-- ==== Sys2Proof/Word.lean ====
section
/-!
DEFINITION. The word types of the Hestad core and the plainest field reads on them (R8: little-endian, bit 0
is the least significant).
-/
namespace Sys2Proof

/-- A byte. -/
abbrev W8 := BitVec 8
/-- A 16-bit word: lane-flag words, tags, per-command summaries (R118). -/
abbrev W16 := BitVec 16
/-- A 32-bit word: command words, register words, FP32 encodings. -/
abbrev W32 := BitVec 32
/-- A 64-bit word: escapement address registers and parameters (R196). -/
abbrev W64 := BitVec 64

end Sys2Proof
end

