-- ==== Sys2Proof/Config.lean ====
section
/-!
DEFINITION. The free values: what the spec leaves open, each an opaque constant that no proof can see the value of.
Each is named in a row of the assumption log (notes/assumptions).
-/
namespace Sys2Proof.Config

/-- The value of the core's entropy source at the k-th core reset (R444: it gives the seed of the stochastic
rounding generators; the spec gives no value). -/
opaque entropy : Nat → W32

/-- The order in which a sum of several FP32 terms is taken (R4, R127: not fixed): at step `step` of the sum
numbered `id`, with `n` terms left, the position of the next term to fold in.
DESIGN CHOICE: log 41. -/
opaque sumPick : (id step n : Nat) → Nat

/-- Whether the accumulator of the sum numbered `id` begins at +0 rather than at its first term: it decides only the
sign of an all-zero sum, which R127 does not state.
DESIGN CHOICE: log 41. -/
opaque sumFromZero : (id : Nat) → Bool

/-- The error of a transcendental in FP32 units in the last place (R125 gives a bound and no value); the bound is
applied where it is used. `id` numbers the evaluation.
DESIGN CHOICE: log 42. -/
opaque ulpError : (id : Nat) → Int

/-- A byte the spec leaves unspecified: an overlapped destination (R112, R149), a transposing-buffer byte after an
untimed point (R90), the lines of a read that was cut short.
DESIGN CHOICE: log 9. -/
opaque freeByte : (id : Nat) → W8

/-- A 32-bit value the spec leaves open. -/
opaque freeWord : (id : Nat) → W32

/-- A choice among finitely many equally allowed cases: an order of two events of one cycle, a victim of equal age. -/
opaque freeChoice : (id : Nat) → Nat

/-- The microsecond error and the like: a quantity the spec bounds only from one side. -/
opaque freeNat : (id : Nat) → Nat

/-- The static term of the power estimate of a grade in mW, of the banks with power, in RETAIN and DARK and of the gated units
(R379: fixed at manufacture, no value given).
DESIGN CHOICE: log 97. -/
opaque staticMw : (grade on retain dark : Nat) → (mxeGated vxeGated : Bool) → (pinsGated : Nat) → Nat

/-- What an active AC of a block adds to the power estimate of a grade in mW (R379: fixed at manufacture): 0 the array, 1 the VXE,
2 the pinions, 3 core memory, 4 the XMU and the link ports, 5 the rest.
DESIGN CHOICE: log 97. -/
opaque blockMw : (grade block : Nat) → Nat

/-- The serial number blown in the fuses of the die (R443: fused, no value given).
DESIGN CHOICE: log 87. -/
opaque dieSerial : W64

/-- The stepping blown in the fuses of the die (R443).
DESIGN CHOICE: log 87. -/
opaque dieStepping : W32

/-- The signing key of the Bezel numbered `unit` on the core's taps (R393: generated inside it, and never leaves it).
DESIGN CHOICE: log 115. -/
opaque bezelKey : (unit : Nat) → Nat

/-- The nonce of a signature (R392: the standard asks for one and gives no value).
DESIGN CHOICE: log 115. -/
opaque bezelNonce : (id : Nat) → Nat

/-- The error of the calibration numbered `cal` of a Bezel at a sample, in tenths of a percent of the energy (R388 bounds it
where the supply stays in its limits).
DESIGN CHOICE: log 92. -/
opaque senseError : (cal id : Nat) → Int

/-- Whether a package presented to the Bezel carries a valid signature of its stated signer (R394): key 0 is the
firmware key, 1 the calibration authority's. The keys are not in the spec. -/
opaque bezelVerify : (key : Nat) → List W8 → Bool

/-- The fw_version or cal_id that a package carries: its layout is not in the spec (R395, R396). -/
opaque pkgNumber : List W8 → W32

/-- The serial number of a Bezel (R392). -/
opaque bezelSerial : (unit : Nat) → W64

/-- The device certificate of a Bezel (R393). -/
opaque bezelCert : (unit : Nat) → List W8

end Sys2Proof.Config
end

