-- ==== Sys2Proof/Types.lean ====
section
/-!
DEFINITION. What the commands of the block carry: the operand types of the rows of spec/opcode_table.json.
-/
namespace Sys2Proof

/-- A hardware context, also a submission ring (R196, R341). -/
abbrev Ctx := Fin 8
/-- A memory channel (R317). -/
abbrev Chan := Fin 4
/-- A Fjolin link port (R318). -/
abbrev Port := Fin 2

/-- The six engine queues (R14, R208). -/
inductive QName where
  | mxe | txb | vxe | pin | xdma | lnk
deriving DecidableEq, Repr, Inhabited

/-- The three virtual channels of a link port (R326). -/
inductive VChan where
  | req | rsp | snp
deriving DecidableEq, Repr, Inhabited

/-- A command slot of 40 bytes: the native command words 0 to 7 and the issue record of words 8 and 9 (R207). -/
structure Slot where
  w0 : W32
  w1 : W32
  w2 : W32
  w3 : W32
  w4 : W32
  w5 : W32
  w6 : W32
  w7 : W32
  irec : W64
deriving DecidableEq, Repr, Inhabited

/-- A halyard message of four words (R264). -/
structure HalMsg where
  w0 : W32
  w1 : W32
  w2 : W32
  w3 : W32
deriving DecidableEq, Repr, Inhabited

/-- A Fjolin packet: its sixteen header words and its payload bytes (R325). -/
structure Packet where
  hdr : List W32
  data : List W8
deriving DecidableEq, Repr, Inhabited

/-- Flit credits by virtual channel (R326). -/
structure Credits where
  req : Nat
  rsp : Nat
  snp : Nat
deriving DecidableEq, Repr, Inhabited

/-- Where a droop assertion comes from: the DROOP input, or a detector whose local supply is `mv` millivolts below nominal
(R376). -/
inductive DroopSrc where
  | input
  | detector (mv : Nat)
deriving DecidableEq, Repr, Inhabited

/-- A write that failed the part's check (R304): the channel, and the line within it of the oldest unreported write. -/
structure WriteErr where
  ch : Chan
  line : Nat
deriving DecidableEq, Repr, Inhabited

/-- A row that a part reports (R308), and the bits that come back wrong when it is read (R309). -/
structure FailedRow where
  row : Nat
  errs : List W8 := []
deriving DecidableEq, Repr, Inhabited

/-- What a part answers to a line or sector read: the bits that come back wrong, whether the part reports an error that it
corrected (R317), and whether the block's directory entry, read for the check, has an uncorrectable error (R292); or bytes that
failed the data check of the part's interface (R304). -/
inductive ReadRet where
  | data (errs : List W8) (corrected : Bool := false) (dirErr : Bool := false)
  | crcErr
deriving DecidableEq, Repr, Inhabited

/-- A change of stored bits in one 8-byte word of a core-memory granule: correctable or not (R189, R191). -/
structure Upset where
  bank : Nat
  granule : Nat
  word : Nat
  uncorrectable : Bool
deriving DecidableEq, Repr, Inhabited

/-- What a core reset finds (R424–R434): whether host software requested it; the board record's 512 bytes as the management bus
returns them, if it does; the rows of banks that fail self-test; how many failures of other SRAMs nothing repairs; whether the
parts kept their contents. -/
structure ResetInput where
  hostReq : Bool
  board : Option (List W8)
  bistRows : List (Nat × Nat)
  bistFails : Nat
  keepExt : Bool
deriving DecidableEq, Repr, Inhabited

end Sys2Proof
end

