-- ==== Sys2Proof/Syntax.lean ====
section
/-!
DEFINITION. The commands of the block: one constructor per row of spec/opcode_table.json. A row of an engine or scalar
command carries the 40-byte slot the escapement issues (R207); an event row carries what the event brings with it.
-/
namespace Sys2Proof

/-- The commands. -/
inductive Instr where
  /-- ESC_NOP (R211): Scalar command with no effect that still uses its issue EC and gap. -/
  | escNop (sl : Slot)
  /-- ESC_SET (R211): Writes a 64-bit immediate into an address register. -/
  | escSet (sl : Slot)
  /-- ESC_LDP (R211): Copies a parameter register into an address register. -/
  | escLdp (sl : Slot)
  /-- ESC_ALU (R211): Computes an ALU operation on address registers or an immediate and writes the result to an address register. -/
  | escAlu (sl : Slot)
  /-- ESC_CMP (R211): Compares two operands and writes the result into a predicate bit. -/
  | escCmp (sl : Slot)
  /-- ESC_PLOG (R211): Combines two predicate bits logically into a third. -/
  | escPlog (sl : Slot)
  /-- ESC_CMPARM (R212): Arms or disarms a comparator that drives a predicate bit in every issuing EC. -/
  | escCmparm (sl : Slot)
  /-- ESC_LOOP (R213): Latches a loop count and opens a hardware loop, skips its body, or faults on the count. -/
  | escLoop (sl : Slot)
  /-- ESC_ENDLOOP (R214): Advances the loop index and repeats the body, or closes the loop. -/
  | escEndloop (sl : Slot)
  /-- ESC_END (R206): Ends the program; the context becomes QUIESCED once its commands retire and a completion record follows. -/
  | escEnd (sl : Slot)
  /-- MXE_FILL (R72): Loads the shadow stationary set over the row-broadcast buses. -/
  | mxeFill (sl : Slot)
  /-- MXE_FILL_A (R102): Loads the adapter strip's shadow set on Max. -/
  | mxeFillA (sl : Slot)
  /-- MXE_SWAP (R73): Exchanges active and shadow stationary sets, travelling down the array with the moving rows. -/
  | mxeSwap (sl : Slot)
  /-- MXE_STREAM (R76): Streams moving rows through the array, claiming or accumulating into FTQ entries. -/
  | mxeStream (sl : Slot)
  /-- FTQ_CVT (R78): Converts an FTQ entry to core memory under a conversion control word and frees the entry. -/
  | ftqCvt (sl : Slot)
  /-- SCT_WRITE_CFG (R61): SCT.SET operation that sets a tracker slot's SCT_CFG. -/
  | sctWriteCfg (sl : Slot)
  /-- SCT_WRITE_SCALE (R61): SCT.SET operation that sets a slot's scale and scale_inv. -/
  | sctWriteScale (sl : Slot)
  /-- SCT_CLEAR (R61): SCT.SET operation that zeroes all 16 history entries of a slot. -/
  | sctClear (sl : Slot)
  /-- SCT_ROLL (R61): SCT.SET operation that closes the open history entry and recomputes a delayed scale. -/
  | sctRoll (sl : Slot)
  /-- SCT_READ (R221): Reads a tracker slot word into an address register at done. -/
  | sctRead (sl : Slot)
  /-- TXB_LOAD (R86): Copies a rectangle of stored rows from core memory into a transposing buffer. -/
  | txbLoad (sl : Slot)
  /-- VXE_ADD (R121): VXE element-wise addition. -/
  | vxeAdd (sl : Slot)
  /-- VXE_SUB (R121): VXE element-wise subtraction. -/
  | vxeSub (sl : Slot)
  /-- VXE_MUL (R121): VXE element-wise multiplication. -/
  | vxeMul (sl : Slot)
  /-- VXE_FMA (R121): VXE fused multiply-add with d as addend and destination. -/
  | vxeFma (sl : Slot)
  /-- VXE_MIN (R121): VXE element-wise minimum. -/
  | vxeMin (sl : Slot)
  /-- VXE_MAX (R121): VXE element-wise maximum. -/
  | vxeMax (sl : Slot)
  /-- VXE_ABS (R121): VXE element-wise absolute value. -/
  | vxeAbs (sl : Slot)
  /-- VXE_NEG (R121): VXE element-wise negation. -/
  | vxeNeg (sl : Slot)
  /-- VXE_CMP_EQ (R122): VXE equality compare writing a bit plane. -/
  | vxeCmpEq (sl : Slot)
  /-- VXE_CMP_NE (R122): VXE inequality compare writing a bit plane. -/
  | vxeCmpNe (sl : Slot)
  /-- VXE_CMP_LT (R122): VXE less-than compare writing a bit plane. -/
  | vxeCmpLt (sl : Slot)
  /-- VXE_CMP_LE (R122): VXE less-or-equal compare writing a bit plane. -/
  | vxeCmpLe (sl : Slot)
  /-- VXE_SELECT (R120): VXE selects a or b per element by the mask bit. -/
  | vxeSelect (sl : Slot)
  /-- VXE_CVT (R126): VXE converts a into d under the conversion control word, including MX and INT8. -/
  | vxeCvt (sl : Slot)
  /-- FLAGS_STORE (R119): Writes the context's 64 lane-flag words to core memory. -/
  | flagsStore (sl : Slot)
  /-- FLAGS_CLEAR (R119): Zeroes the context's lane-flag words. -/
  | flagsClear (sl : Slot)
  /-- VXE_EXP (R125): VXE exponential. -/
  | vxeExp (sl : Slot)
  /-- VXE_EXP2 (R125): VXE base-2 exponential. -/
  | vxeExp2 (sl : Slot)
  /-- VXE_LOG (R125): VXE natural logarithm. -/
  | vxeLog (sl : Slot)
  /-- VXE_LOG2 (R125): VXE base-2 logarithm. -/
  | vxeLog2 (sl : Slot)
  /-- VXE_RCP (R125): VXE reciprocal. -/
  | vxeRcp (sl : Slot)
  /-- VXE_DIV (R125): VXE correctly rounded division. -/
  | vxeDiv (sl : Slot)
  /-- VXE_SQRT (R125): VXE correctly rounded square root. -/
  | vxeSqrt (sl : Slot)
  /-- VXE_RSQRT (R125): VXE reciprocal square root. -/
  | vxeRsqrt (sl : Slot)
  /-- VXE_TANH (R125): VXE hyperbolic tangent. -/
  | vxeTanh (sl : Slot)
  /-- VXE_SIGMOID (R125): VXE logistic sigmoid. -/
  | vxeSigmoid (sl : Slot)
  /-- VXE_SILU (R125): VXE SiLU activation. -/
  | vxeSilu (sl : Slot)
  /-- VXE_GELU (R125): VXE GELU activation in erf form. -/
  | vxeGelu (sl : Slot)
  /-- VXE_ERF (R125): VXE error function. -/
  | vxeErf (sl : Slot)
  /-- VXE_SIN (R125): VXE sine. -/
  | vxeSin (sl : Slot)
  /-- VXE_COS (R125): VXE cosine. -/
  | vxeCos (sl : Slot)
  /-- VXE_PERMUTE (R123): VXE gathers row elements by index, writing zero and RANGE for out-of-range indices. -/
  | vxePermute (sl : Slot)
  /-- VXE_REVERSE (R123): VXE reverses each row. -/
  | vxeReverse (sl : Slot)
  /-- VXE_ROTATE (R123): VXE rotates each row by a per-row or scalar amount. -/
  | vxeRotate (sl : Slot)
  /-- VXE_INTERLEAVE (R123): VXE interleaves rows of a and b. -/
  | vxeInterleave (sl : Slot)
  /-- VXE_DEINTERLEAVE (R123): VXE separates even and odd elements of each row. -/
  | vxeDeinterleave (sl : Slot)
  /-- VXE_PACK (R124): VXE packs active elements of each row and writes per-row counts. -/
  | vxePack (sl : Slot)
  /-- VXE_UNPACK (R124): VXE scatters consecutive elements to active destination lanes. -/
  | vxeUnpack (sl : Slot)
  /-- VXE_SUM (R127): VXE stream reduction: sum along rows or columns. -/
  | vxeSum (sl : Slot)
  /-- VXE_RED_MAX (R127): VXE stream reduction: maximum. -/
  | vxeRedMax (sl : Slot)
  /-- VXE_RED_MIN (R127): VXE stream reduction: minimum. -/
  | vxeRedMin (sl : Slot)
  /-- VXE_AMAX (R127): VXE stream reduction: largest magnitude. -/
  | vxeAmax (sl : Slot)
  /-- VXE_SUMSQ (R127): VXE stream reduction: sum of squares. -/
  | vxeSumsq (sl : Slot)
  /-- VXE_TILE_SUM (R128): FTQ-tile reduction: sum, consuming the entry. -/
  | vxeTileSum (sl : Slot)
  /-- VXE_TILE_MAX (R128): FTQ-tile reduction: maximum, consuming the entry. -/
  | vxeTileMax (sl : Slot)
  /-- VXE_TILE_MIN (R128): FTQ-tile reduction: minimum, consuming the entry. -/
  | vxeTileMin (sl : Slot)
  /-- VXE_TILE_AMAX (R128): FTQ-tile reduction: largest magnitude, consuming the entry. -/
  | vxeTileAmax (sl : Slot)
  /-- VXE_TILE_SUMSQ (R128): FTQ-tile reduction: sum of squares, consuming the entry. -/
  | vxeTileSumsq (sl : Slot)
  /-- TSTATE (R128): FTQ-tile reduction merging each row's softmax state into a state vector. -/
  | tstate (sl : Slot)
  /-- SMX_STATE (R132): Merges active positions of each row into its online-softmax state, optionally writing P and corrections. -/
  | smxState (sl : Slot)
  /-- SMX_MERGE (R132): Merges a row's state with peer states into a global state. -/
  | smxMerge (sl : Slot)
  /-- SMX_FINAL (R132): Computes the per-row rescale factor from a local and a global state. -/
  | smxFinal (sl : Slot)
  /-- SMX_NORM (R132): Writes normalised softmax outputs from a final state. -/
  | smxNorm (sl : Slot)
  /-- PIN_RUN (R145): Runs a microprogram over the named banks' pinions with input and output streams. -/
  | pinRun (sl : Slot)
  /-- ATOM_LOAD (R162): PIN.ATOM that returns a word unchanged. -/
  | atomLoad (sl : Slot)
  /-- ATOM_SWAP (R162): PIN.ATOM that replaces a word with the operand. -/
  | atomSwap (sl : Slot)
  /-- ATOM_CAS (R162): PIN.ATOM compare-and-swap. -/
  | atomCas (sl : Slot)
  /-- ATOM_ADD_I32 (R162): PIN.ATOM integer add modulo 2^32. -/
  | atomAddI32 (sl : Slot)
  /-- ATOM_ADD_F32 (R162): PIN.ATOM FP32 add. -/
  | atomAddF32 (sl : Slot)
  /-- ATOM_MAX_I32 (R162): PIN.ATOM signed maximum. -/
  | atomMaxI32 (sl : Slot)
  /-- ATOM_MIN_I32 (R162): PIN.ATOM signed minimum. -/
  | atomMinI32 (sl : Slot)
  /-- ATOM_MAX_U32 (R162): PIN.ATOM unsigned maximum. -/
  | atomMaxU32 (sl : Slot)
  /-- ATOM_MIN_U32 (R162): PIN.ATOM unsigned minimum. -/
  | atomMinU32 (sl : Slot)
  /-- ATOM_MAX_F32 (R162): PIN.ATOM FP32 maximum. -/
  | atomMaxF32 (sl : Slot)
  /-- ATOM_MIN_F32 (R162): PIN.ATOM FP32 minimum. -/
  | atomMinF32 (sl : Slot)
  /-- ATOM_AND (R162): PIN.ATOM bitwise AND. -/
  | atomAnd (sl : Slot)
  /-- ATOM_OR (R162): PIN.ATOM bitwise OR. -/
  | atomOr (sl : Slot)
  /-- ATOM_XOR (R162): PIN.ATOM bitwise XOR. -/
  | atomXor (sl : Slot)
  /-- ATOM_INC_WRAP (R162): PIN.ATOM wrapping increment. -/
  | atomIncWrap (sl : Slot)
  /-- SYN_SIGNAL (R251): Updates a local pennant or sends a remote SIGNAL over the halyard. -/
  | synSignal (sl : Slot)
  /-- SYN_WAIT (R254): Enters a threshold or take wait on a pennant, ending the timed section. -/
  | synWait (sl : Slot)
  /-- HOIST_ARRIVE_WAIT (R259): SYN.HOIST mode that enters the hoist and waits for the epoch of the entry. -/
  | hoistArriveWait (sl : Slot)
  /-- HOIST_ARRIVE (R259): SYN.HOIST mode that enters the hoist and continues once recorded. -/
  | hoistArrive (sl : Slot)
  /-- HOIST_WAIT (R259): SYN.HOIST mode that waits for the epoch of the last recorded entry. -/
  | hoistWait (sl : Slot)
  /-- XDMA_READ (R296): Copies rows of external memory into core memory. -/
  | xdmaRead (sl : Slot)
  /-- XDMA_WRITE (R296): Copies rows of core memory into external memory through the write-combining buffer. -/
  | xdmaWrite (sl : Slot)
  /-- XDMA_GATHER (R297): Reads indexed rows of external memory into core memory. -/
  | xdmaGather (sl : Slot)
  /-- XDMA_SMREAD (R222): Copies chip-shared memory into core memory through the shared-memory port. -/
  | xdmaSmread (sl : Slot)
  /-- XDMA_SMWRITE (R222): Copies core memory into chip-shared memory. -/
  | xdmaSmwrite (sl : Slot)
  /-- STASH_CLAIM (R96): Places a stash slot for a layer, evicting victims under their policies. -/
  | stashClaim (sl : Slot)
  /-- STASH_FETCH (R98): Returns or restores a stashed layer and reports its outcome in a predicate. -/
  | stashFetch (sl : Slot)
  /-- STASH_RELEASE (R99): Frees a layer's stash slot or record. -/
  | stashRelease (sl : Slot)
  /-- LNK_WRITE (R322): Sends local core memory to a global address as WRITE packets. -/
  | lnkWrite (sl : Slot)
  /-- LNK_READ (R322): Requests remote data into local core memory as READ_REQ packets. -/
  | lnkRead (sl : Slot)
  /-- ENGINE_COMMAND_START (R28): A queued command starts once it has arrived and every resource it names is free. -/
  | engineCommandStart (q : QName)
  /-- COMMAND_DONE (R33): A timed command reaches its done AC; results are in place and the command retires. -/
  | commandDone
  /-- ASYNC_COMMAND_COMPLETE (R300): An XDMA, stash or LNK command completes and raises its completion pennant. -/
  | asyncCommandComplete (job : Nat)
  /-- ARRAY_LEVEL_FALL (R34): The array activity level falls by one after 8 AC with no STREAM running. -/
  | arrayLevelFall
  /-- GATE_ARRIVAL (R79): A gated STREAM reaches the head of the MXE queue and is checked at the fill gate. -/
  | gateArrival
  /-- GATE_DEADLINE_EXPIRY (R79): The fill-gate deadline timer expires and meets the release condition. -/
  | gateDeadlineExpiry
  /-- GATE_RELEASE (R79): The gate releases the STREAM, takes M rows from the pennant and writes gate_reg. -/
  | gateRelease
  /-- UNTIMED_POINT_RELEASE (R248): A pennant or hoist wait releases its escapement context in EC 2d+2. -/
  | untimedPointRelease (c : Ctx)
  /-- QUANTUM_EXPIRY (R224): The dispatched context exceeds ESC_CTX_QUANTUM, allowing a switch at its next untimed point. -/
  | quantumExpiry
  /-- CONTEXT_SWITCH (R225): The escapement switches to another ready context, saving and restoring MXE state. -/
  | contextSwitch
  /-- PARTITION_SPILL (R227): The snapshot engine spills a partition to external memory and restores another, with CRC sealing and checking. -/
  | partitionSpill
  /-- CONTEXT_STOPPED (R198): A stopping context becomes STOPPED once its last queued command has started. -/
  | contextStopped (c : Ctx)
  /-- CONTEXT_QUIESCED (R199): A context reaching quiesce or ESC.END becomes QUIESCED once its timed commands are done. -/
  | contextQuiesced (c : Ctx)
  /-- PLAIN_ARRIVAL (R183): A granule of an XMU, shared-memory, link or COPY transfer lands in a DMA-in slot and the transfer's pennant rises after its last granule. -/
  | plainArrival (i : Nat)
  /-- COMBINED_ARRIVAL (R157): A reduce-on-arrival granule is read, combined and written back in two DMA-in slots. -/
  | combinedArrival (i : Nat)
  /-- SYNC_TIMEOUT (R250): A pennant wait's timeout expires; the wait is withdrawn and the context faults or releases with pred cleared. -/
  | syncTimeout (i : Nat)
  /-- HOIST_WAIT_TIMEOUT (R260): A hoist wait timer expires; the waiter faults or releases and the hoist may abort. -/
  | hoistWaitTimeout (c : Ctx)
  /-- HALYARD_SEND (R264): An outbound halyard message leaves the HY_ port and frees its buffer entry. -/
  | halyardSend
  /-- SIGNAL_MESSAGE (R245): An inbound halyard SIGNAL updates a pennant. -/
  | signalMessage (m : HalMsg)
  /-- ARRIVE_MESSAGE (R257): An inbound ARRIVE from a child counts in the epoch of its parity. -/
  | arriveMessage (m : HalMsg)
  /-- RELEASE_MESSAGE (R258): An inbound RELEASE from the parent closes the node's SENT epoch. -/
  | releaseMessage (m : HalMsg)
  /-- ABORT_MESSAGE (R262): An inbound ABORT aborts the hoist and is forwarded. -/
  | abortMessage (m : HalMsg)
  /-- THERMAL_ADVISORY (R261): An inbound advisory extends the hoist's waiter timers and is forwarded. -/
  | thermalAdvisory (m : HalMsg)
  /-- LINK_PACKET_SEND (R326): A port sends a packet on a virtual channel while it holds credits. -/
  | linkPacketSend (port : Port) (vc : VChan)
  /-- WRITE_PACKET (R332): An inbound WRITE packet is checked, landed or refused, and answered with ACK. -/
  | writePacket (port : Port) (pkt : Packet)
  /-- READ_REQ (R335): An inbound READ_REQ is served from core or external memory and answered with READ_DATA. -/
  | readReq (port : Port) (pkt : Packet)
  /-- ACK (R332): An ACK completes an outstanding WRITE or reports its refusal. -/
  | ack (port : Port) (pkt : Packet)
  /-- READ_DATA (R335): READ_DATA lands at the requester under its combine code or reports a refusal. -/
  | readData (port : Port) (pkt : Packet)
  /-- SNAP_DATA (R336): An inbound SNAP_DATA packet is written by a fill or refused. -/
  | snapData (port : Port) (pkt : Packet)
  /-- SNAP_ACK (R361): A SNAP_ACK answers a snapshot packet; the last one completes the stream. -/
  | snapAck (port : Port) (pkt : Packet)
  /-- LINK_TIMEOUT (R330): A request's response timer expires; its command faults or an advisory is logged. -/
  | linkTimeout (port : Port) (seq : Nat)
  /-- LINK_PORT_UP (R415): A port becomes UP and the credit allotments are returned. -/
  | linkPortUp (port : Port) (cr : Credits)
  /-- LINK_PORT_DOWN (R415): A port becomes DOWN; credits and incomplete packets are discarded. -/
  | linkPortDown (port : Port)
  /-- XMU_READ_RETURN (R294): A line or sector returns from a part, is retried on data CRC error, lands, and completes the block check. -/
  | xmuReadReturn (job : Nat) (i : Nat) (ret : ReadRet)
  /-- WCB_LINE_DRAIN (R302): A write-combining line drains to the part when full, idle 256 EC, needed, or at CRITICAL. -/
  | wcbLineDrain (i : Nat)
  /-- SM_RESPONSE (R418): A shared-memory port response delivers read data or a write acknowledgement. -/
  | smResponse (tag : Nat) (wack : Bool) (err : Bool) (data : List W8)
  /-- XMU_ROW_FAULT (R308): A part reports an uncorrected row error and the XMU remaps the row or retires the block. -/
  | xmuRowFault (ch : Chan) (bank : Nat) (row : FailedRow)
  /-- REMAP_COPY_DONE (R309): A remap copy finishes and the row switches to its spare. -/
  | remapCopyDone
  /-- XMU_REMAP_REQ (R307): Host write of start raises a row fault on a named row. -/
  | xmuRemapReq (v : W32)
  /-- RETRAIN (R312): Host write of retrain puts a channel into TRAINING. -/
  | retrain (ch : Chan)
  /-- MAP_OUT (R313): Host write of map_out maps a channel out and retires its blocks. -/
  | mapOut (ch : Chan)
  /-- TRAINING_ATTEMPT_END (R312): A training attempt ends; the channel returns to ACTIVE or another attempt or map-out follows. -/
  | trainingAttemptEnd (ch : Chan) (pass : Bool)
  /-- XMU_DIR_HI (R314): Host write to a directory entry retires it or changes its exempt bit or channel map. -/
  | xmuDirHi (v : W32)
  /-- XMU_DEV_CMD (R435): Host issues a bring-up command class to a TRAINING or ABSENT channel. -/
  | xmuDevCmd (v : W32) (result : W32)
  /-- XMU_THERMAL_SAMPLE (R315): The 100 µs thermal sample sets the memory thermal step. -/
  | xmuThermalSample (t : Option Nat)
  /-- ADVISORY_PERIOD_EXPIRY (R315): While HOT, a THERMAL_ADVISORY is sent every advisory_us ÷ 2. -/
  | advisoryPeriodExpiry
  /-- LAUNCH (R202): Descriptor that copies, checks and starts a program image for a context. -/
  | launch (r : Ctx) (data : List W8)
  /-- REPLAY (R204): Descriptor that patches parameters and reruns the loaded image. -/
  | replay (r : Ctx) (data : List W8)
  /-- COPY (R348): Descriptor that copies between two address spaces. -/
  | copy (r : Ctx)
  /-- SIGNAL (R349): Descriptor that applies a local or remote pennant update. -/
  | signal (r : Ctx)
  /-- WAIT (R349): Descriptor that waits on a pennant and reports on the event ring. -/
  | wait (r : Ctx)
  /-- SNAPSHOT (R355): Descriptor that starts a snapshot by quiescing the core. -/
  | snapshot (r : Ctx)
  /-- FENCE (R345): Descriptor that completes once every earlier descriptor of its ring has completed. -/
  | fence (r : Ctx)
  /-- HST_SQ_DB (R341): Host doorbell write declares submission entries up to a tail. -/
  | hstSqDb (c : Ctx) (v : W32)
  /-- HST_CQ_DB (R340): Host write of the completion-ring head frees record slots. -/
  | hstCqDb (v : W32)
  /-- HST_EQ_DB (R340): Host write of the event-ring head frees record slots. -/
  | hstEqDb (v : W32)
  /-- RING_STOP (R352): Host write of stop halts a submission ring with reason HOST. -/
  | ringStop (c : Ctx)
  /-- RING_RESUME (R352): Host write of resume clears a ring's halt and retries the head entry. -/
  | ringResume (c : Ctx)
  /-- RING_RESET (R352): Host write of reset sets head and tail to zero on a halted or disabled idle ring. -/
  | ringReset (c : Ctx)
  /-- HOST_READ_COMPLETION (R414): A host-bus read completion delivers a descriptor or COPY data, or an error. -/
  | hostReadCompletion (tag : Nat) (err : Bool) (data : List W8)
  /-- RECORD_WRITE (R344): A queued completion or event record is written to host memory in number order when its ring has room. -/
  | recordWrite (ring : Bool)
  /-- HOST_WINDOW_WRITE (R413): A host write request reaches core memory or the register window. -/
  | hostWindowWrite (space : Nat) (off : Nat) (data : List W8) (be : List Bool)
  /-- HOST_WINDOW_READ (R413): A host read request of core memory is answered through an SVC slot. -/
  | hostWindowRead (space : Nat) (off : Nat)
  /-- REGISTER_WRITE (R438): A host write to a register field that has no row of its own. -/
  | registerWrite (off : Nat) (v : W32)
  /-- CTX_QUIESCE (R199): Host write of quiesce requests a pause at the context's next untimed point. -/
  | ctxQuiesce (c : Ctx)
  /-- CTX_STOP (R199): Host write of stop stops the context in the next EC with HOST_STOP. -/
  | ctxStop (c : Ctx)
  /-- CTX_RESUME (R197): Host write of resume continues a paused context. -/
  | ctxResume (c : Ctx)
  /-- CTX_CLEAR (R197): Host write of clear moves a STOPPED context to QUIESCED and clears its fault. -/
  | ctxClear (c : Ctx)
  /-- PENNANT_SET (R255): Host write to a pennant word sets its count. -/
  | pennantSet (p : Nat) (v : W32)
  /-- SYN_HOIST_CFG_WRITE (R256): Host write to a hoist configuration, accepted by the enable rules. -/
  | synHoistCfgWrite (h : Nat) (v : W32)
  /-- HOST_ARRIVE (R257): Host write of host_arrive enters the hoist for host software. -/
  | hostArrive (h : Nat)
  /-- REARM (R263): Host write of rearm returns a hoist to OPEN epoch 0, aborting its waiters. -/
  | rearm (h : Nat)
  /-- STASH_CFG_WRITE (R92): Host write to STASH_CFG_c discards every stash slot and record of the context. -/
  | stashCfgWrite (c : Ctx) (v : W32)
  /-- CMEM_MAP_COMMIT (R173): Host write of commit checks the staged slot maps and activates them at the next turn or refuses. -/
  | cmemMapCommit
  /-- CMEM_PART_EVICT (R181): Host write requests the spill of a quiesced context's partition. -/
  | cmemPartEvict (mask : W8)
  /-- CMEM_PWR_REQ (R185): Host write requests ON, RETAIN or DARK for a bank and starts its transition. -/
  | cmemPwrReq (bank : Nat) (req : Nat)
  /-- BANK_DRAIN_END (R185): A DRAINING bank's outstanding count reaches zero and its port is isolated. -/
  | bankDrainEnd (bank : Nat)
  /-- BANK_DRAIN_TIMEOUT (R185): The drain timeout expires and the bank proceeds to isolation. -/
  | bankDrainTimeout (bank : Nat)
  /-- BANK_TRANSITION_DONE (R185): A bank power transition stage completes and the bank reaches its next state. -/
  | bankTransitionDone (bank : Nat)
  /-- CMEM_REPAIR (R192): Host write of start copies a bank row into a spare row. -/
  | cmemRepair (bank : Nat) (row : Nat)
  /-- REPAIR_SWITCH (R192): The repair copy ends and the row switches to the spare at a turn boundary. -/
  | repairSwitch
  /-- SCRUB_TICK (R191): The scrub interval expires and the scrubber reads one granule per ON bank. -/
  | scrubTick (upsets : List Upset)
  /-- SCRUB_WRITEBACK (R191): The scrubber writes a corrected granule back in a later SVC slot unless it was rewritten. -/
  | scrubWriteback
  /-- PIN_FENCE (R153): Host write of a fence bit requests fencing or unfencing of a pinion. -/
  | pinFence (i : Nat) (v : W32)
  /-- PIN_FENCE_APPLY (R153): The fence or unfence takes effect once the pinion's running command has ended. -/
  | pinFenceApply (p : Nat)
  /-- PIN_SELFTEST (R155): Host write of start begins a built-in test of a fenced pinion. -/
  | pinSelftest (p : Nat)
  /-- SELFTEST_DONE (R155): The pinion self-test completes and reports pass. -/
  | selftestDone (pass : Bool)
  /-- SCT_SR_SEED (R444): Host write reseeds every stochastic-rounding generator. -/
  | sctSrSeed (v : W32)
  /-- HEALTH_SAMPLE (R353): The 1 ms health sample updates the risk estimate. -/
  | healthSample
  /-- SNAPSHOT_FLOOR_EXPIRY (R354): The min_s floor expires and a pending advisory is raised if still due. -/
  | snapshotFloorExpiry
  /-- SNAPSHOT_INTERVAL_EXPIRY (R354): max_s seconds pass since the last snapshot. -/
  | snapshotIntervalExpiry
  /-- SNAPSHOT_QUIESCE_END (R357): The quiesce phase ends and the stop begins: freeze, then streaming. -/
  | snapshotQuiesceEnd
  /-- SNAP_QUIESCE_TIMEOUT (R356): The quiesce limit expires and the SNAPSHOT completes without writing. -/
  | snapQuiesceTimeout
  /-- FILL_START (R363): Host write of start begins a fill or is refused BUSY. -/
  | fillStart
  /-- FILL_FINISH (R365): Host write of finish loads state, images, partitions and directory from the last stream. -/
  | fillFinish
  /-- FILL_ABORT (R364): Host write of abort ends the fill with reason HOST. -/
  | fillAbort
  /-- FILL_TIMEOUT (R363): No snapshot packet arrives within timeout_ms and the fill aborts. -/
  | fillTimeout
  /-- ISOLATE (R368): Host write of isolate stops every context and silences links and halyard. -/
  | isolate
  /-- SV_ISOLATE (R368): An accepted isolation input isolates the core. -/
  | svIsolate
  /-- CORE_RESET (R424): SV_RESET_N starts the reset sequence through phases 0 to 8. -/
  | coreReset (r : ResetInput)
  /-- NVS_STORE (R431): Host write of store, or a store request with auto_store, starts a STORE of the staging image. -/
  | nvsStore
  /-- STORE_COMPLETE (R431): A STORE finishes programming and makes the target copy current. -/
  | storeComplete (ok : Bool)
  /-- NVS_RELOAD (R437): Host write of reload refills the staging image from the current copy. -/
  | nvsReload
  /-- FIRMWARE_LOAD (R436): Host write of load reads, checks and installs escapement firmware. -/
  | firmwareLoad
  /-- FIRMWARE_LOAD_DONE (R436): The firmware image read completes and is installed or rejected. -/
  | firmwareLoadDone (img : List W8)
  /-- PM_DROOP (R376): An accepted droop assertion stretches the clock tree. -/
  | pmDroop
  /-- DROOP_RELEASE (R376): The droop signal stays deasserted 64 root cycles and the request is released. -/
  | droopRelease
  /-- PERSISTENT_DROOP (R377): The droop request is held 1 ms and code 4 is requested. -/
  | persistentDroop
  /-- DROOP_RECOVERED (R377): The droop request stays released 1 ms and code 4 is withdrawn. -/
  | droopRecovered
  /-- STRETCH_FALL_STEP (R375): After 240 root cycles the effective stretch factor falls by one code. -/
  | stretchFallStep
  /-- DIE_TEMP_SAMPLE (R378): The 10 µs die sample may throttle or trip the core. -/
  | dieTempSample (ts : List Nat)
  /-- POWER_ESTIMATE (R379): The power estimate interval passes and the limit request is adjusted. -/
  | powerEstimate (us : Nat)
  /-- PLL_UNLOCK (R373): The root PLL loses lock; fatal fault and trip output. -/
  | pllUnlock
  /-- INTERNAL_PARITY (R405): A parity error in escapement or queue state is a core fault. -/
  | internalParity (unit : Nat)
  /-- CLOCK_GATE (R380): A unit idle for hyst_ac AC has its clock gated. -/
  | clockGate (unit : Nat)
  /-- SV_EVT (R421): An accepted outside event input adds 1 to its configured pennant. -/
  | svEvt (i : Nat)
  /-- EVT_STUCK (R420): An event input stays asserted for stuck_ms and is masked. -/
  | evtStuck (i : Nat)
  /-- EVT_UNMASK (R421): Host write of 1 to a masked bit unmasks an input after a fresh quiet. -/
  | evtUnmask (i : Nat)
  /-- CH_MTEMP (R315): A memory temperature strobe delivers a new reading. -/
  | chMtemp (t : Nat)
  /-- MTEMP_STUCK (R422): No temperature strobe for 1 ms masks the input and takes hot_c as the reading. -/
  | mtempStuck
  /-- ERR_ACK (R402): Host write of ack frees the ACTIVE log entry and promotes the next. -/
  | errAck
  /-- ERR_FLUSH (R408): Host write of flush frees every log entry. -/
  | errFlush
  /-- ERR_TRC_MARK (R406): Host write places a MARK record in the trace. -/
  | errTrcMark (v : W32)
  /-- TAP_FRAME_SEND (R389): Every 16 service cycles the core sends a tap frame to the Bezel. -/
  | tapFrameSend
  /-- TAP_FRAME (R389): The Bezel accepts a tap frame and adds counter differences. -/
  | tapFrame (ws : List W8)
  /-- TAP_GAP (R389): No frame accepted for 1 ms sets tap_gap and a new baseline. -/
  | tapGap
  /-- BEZEL_POWER_UP (R390): The Bezel powers up and begins a new epoch, logging the power loss. -/
  | bezelPowerUp
  /-- BEZEL_GLITCH (R395): The Bezel's supply or reference leaves its limits and a GLITCH entry is written. -/
  | bezelGlitch
  /-- PERIODIC_REPORT (R391): The report interval expires and the Bezel signs a periodic report. -/
  | periodicReport
  /-- BEZEL_LIVE_PUBLISH (R398): Every 1 ms the Bezel rewrites the live mirror block. -/
  | bezelLivePublish
  /-- SET_INTERVAL (R394): Management command that sets the report interval. -/
  | setInterval (n : Nat)
  /-- FW_LOAD (R396): Management command that installs signed Bezel firmware between closing and opening reports. -/
  | fwLoad (pkg : List W8)
  /-- CAL_LOAD (R396): Management command that installs a calibration between closing and opening reports. -/
  | calLoad (pkg : List W8)
  /-- RETIRE (R397): Management command that signs a final report and ends the Bezel's service. -/
  | retire (pkg : List W8)
  /-- RESERVED_OPCODE (R208): A command slot with an opcode the table does not list is issued and faults as FORMAT_INVALID without entering a queue. -/
  | reservedOpcode (sl : Slot)
  /-- CREDIT_RETURN (R326): The fabric returns one flit credit of a virtual channel to a link port on FLp_TX_CRD. -/
  | creditReturn (port : Port) (vc : VChan)
  /-- CH_WERR (R304): The part reports a write data CRC error on CH_c_WERR, and the XMU retries the write or starts retraining after 4 retries. -/
  | chWerr (w : WriteErr)
  /-- CH_PHY_RDY (R417): CH_c_PHY_RDY changes, and the channel leaves or regains ACTIVE service. -/
  | chPhyRdy (ch : Chan) (rdy : Bool)
  /-- BEZEL_SUPPLY_LOSS (R390): The Bezel supply is lost, which ends the epoch and stops metering and publishing until the next power-up. -/
  | bezelSupplyLoss
  /-- REPORT (R391): Management command that signs a requested report. -/
  | report
  /-- READ_REPORT (R394): Management command that returns the latest report. -/
  | readReport
  /-- READ_CERT (R394): Management command that returns the device certificate. -/
  | readCert
  /-- READ_LOG (R394): Management command that returns seal-log entries. -/
  | readLog
deriving DecidableEq, Repr, Inhabited

end Sys2Proof
end

