-- ==== Sys2Proof/Decode.lean ====
section
/-!
DEFINITION. The decoder over the rows of spec/opcode_table.json that give bits. Every row's list of fields is empty: the
table gives the bits of no row, and so no word spells a command.
-/
namespace Sys2Proof

/-- The command that a word spells by the bits of spec/opcode_table.json: none, for no row of the table gives any.
DESIGN CHOICE: log 8. -/
def decodeTableWord (_nbits _w : Nat) : Option Instr := none

end Sys2Proof
end

