-- ==== Sys2Proof/Machine/Bits.lean ====
section
/-!
DEFINITION. Bit-field, sign-extension and byte-order helpers, and the sparse map in canonical form that holds every
numbered array of state.
-/
namespace Sys2Proof.Machine

/-- Bits [hi:lo] of a natural number (R8). -/
def bits (w hi lo : Nat) : Nat := w / 2 ^ lo % 2 ^ (hi + 1 - lo)

/-- Bit i of a natural number. -/
def bit (w i : Nat) : Bool := w / 2 ^ i % 2 = 1

/-- 1 for true, 0 for false. -/
def b2n (b : Bool) : Nat := if b then 1 else 0

/-- `w` with bits [hi:lo] replaced by the low bits of `v`. -/
def setBits (w hi lo v : Nat) : Nat :=
  w - bits w hi lo * 2 ^ lo + v % 2 ^ (hi + 1 - lo) * 2 ^ lo

/-- The two's-complement value of the low n bits. -/
def sext (n w : Nat) : Int :=
  let v := w % 2 ^ n
  if 2 * v < 2 ^ n then (v : Int) else (v : Int) - 2 ^ n

/-- The low n bits of an integer. -/
def wrap (n : Nat) (i : Int) : Nat := (i % (2 ^ n : Int)).toNat

/-- n bytes of a number, lowest first (R8). -/
def leBytes : (n w : Nat) → List W8
  | 0, _ => []
  | n + 1, w => BitVec.ofNat 8 w :: leBytes n (w / 256)

/-- The number whose bytes, lowest first, are given (R8). -/
def ofLE : List W8 → Nat
  | [] => 0
  | b :: bs => b.toNat + 256 * ofLE bs

/-- Quotient rounded up. -/
def ceilDiv (a b : Nat) : Nat := (a + b - 1) / b

/-- The first k elements dropped and n kept. -/
def slice {α : Type} (k n : Nat) (l : List α) : List α := (l.drop k).take n

/-- A list cut or filled up to n elements. -/
def padTo {α : Type} (d : α) (n : Nat) (l : List α) : List α :=
  l.take n ++ List.replicate (n - l.length) d

/-- Cut a list into pieces of k elements (the last may be short); `fuel` bounds the number of pieces. -/
def chunksF {α : Type} (k : Nat) : (fuel : Nat) → List α → List (List α)
  | 0, _ => []
  | _, [] => []
  | f + 1, l => l.take k :: chunksF k f (l.drop k)

/-- Cut a list into pieces of k elements. -/
def chunks {α : Type} (k : Nat) (l : List α) : List (List α) := chunksF k l.length l

/-- The 32-bit words of a little-endian byte string. -/
def wordsOf (bs : List W8) : List Nat := (chunks 4 bs).map ofLE

/-- The little-endian bytes of 32-bit words. -/
def bytesOfWords (ws : List Nat) : List W8 := ws.flatMap (leBytes 4)

/-! ### Sparse maps

An array of state numbered from 0 is held as the list of its entries that differ from their default, keys rising. -/

/-- An array of α by number, in canonical form (`SMap.wf`). -/
abbrev SMap (α : Type) := List (Nat × α)

/-- The entry at k: the default where none is listed. -/
def SMap.get {α : Type} (d : α) : SMap α → Nat → α
  | [], _ => d
  | (j, v) :: m, k => if j = k then v else SMap.get d m k

/-- Remove the entry at k. -/
def SMap.erase {α : Type} : SMap α → Nat → SMap α
  | [], _ => []
  | (j, v) :: m, k => if j = k then SMap.erase m k else (j, v) :: SMap.erase m k

/-- Insert or replace the entry at k, keys rising. -/
def SMap.put {α : Type} : SMap α → Nat → α → SMap α
  | [], k, x => [(k, x)]
  | (j, v) :: m, k, x =>
    if k < j then (k, x) :: (j, v) :: m
    else if j = k then (k, x) :: m
    else (j, v) :: SMap.put m k x

/-- Write the entry at k: a write of the default removes it. -/
def SMap.set {α : Type} [DecidableEq α] (d : α) (m : SMap α) (k : Nat) (x : α) : SMap α :=
  if x = d then SMap.erase m k else SMap.put m k x

/-- Change the entry at k. -/
def SMap.mod {α : Type} [DecidableEq α] (d : α) (m : SMap α) (k : Nat) (f : α → α) : SMap α :=
  SMap.set d m k (f (SMap.get d m k))

/-- The canonical form: keys strictly rising from `lo` on, no entry equal to the default. -/
def SMap.wfFrom {α : Type} [DecidableEq α] (d : α) : (lo : Nat) → SMap α → Bool
  | _, [] => true
  | lo, (j, v) :: m => decide (lo ≤ j) && decide (v ≠ d) && SMap.wfFrom d (j + 1) m

/-- The canonical form of a sparse map. -/
def SMap.wf {α : Type} [DecidableEq α] (d : α) (m : SMap α) : Bool := SMap.wfFrom d 0 m

/-- `f` folded over 0, 1, …, n − 1. -/
def iter {σ : Type} (f : Nat → σ → σ) : (n : Nat) → σ → σ
  | 0, s => s
  | n + 1, s => f n (iter f n s)

end Sys2Proof.Machine
end

