-- ==== Sys2Proof/Machine/Flags.lean ====
section
/-!
DEFINITION. The flag word: sixteen bits whose positions are the same in the lane-flag words, in every per-command
summary and in every context summary (R118).
-/
namespace Sys2Proof.Machine

/-- A flag word (R118). Bits [15:9] are reserved and read 0. -/
abbrev Flags := W16

/-- No flag. -/
def fNone : Flags := 0x000#16
/-- OVERFLOW, bit 0: a finite result or conversion overflowed (R118). -/
def fOverflow : Flags := 0x001#16
/-- UNDERFLOW, bit 1 (R118, R57). -/
def fUnderflow : Flags := 0x002#16
/-- INEXACT, bit 2 (R118, R57). -/
def fInexact : Flags := 0x004#16
/-- INVALID, bit 3 (R118). -/
def fInvalid : Flags := 0x008#16
/-- DIV_ZERO, bit 4 (R118). -/
def fDivZero : Flags := 0x010#16
/-- NONFINITE_BLOCK, bit 5 (R118, R48). -/
def fNonfiniteBlock : Flags := 0x020#16
/-- RANGE, bit 6 (R118, R123). -/
def fRange : Flags := 0x040#16
/-- EMPTY_ROW, bit 7 (R118, R132). -/
def fEmptyRow : Flags := 0x080#16
/-- NAN_ROW, bit 8 (R118, R132). -/
def fNanRow : Flags := 0x100#16

/-- The flag if the condition holds. -/
def fIf (c : Bool) (f : Flags) : Flags := if c then f else 0#16

/-- The OR of a list of flag words. -/
def fOr (l : List Flags) : Flags := l.foldl (· ||| ·) 0#16

end Sys2Proof.Machine
end

