-- ==== Sys2Proof/Machine/Num.lean ====
section
/-!
DEFINITION. Number formats (spec chapter 03): decoding every format to its exact value, the three rounding modes,
encoding into every destination with its flags, FP32 arithmetic with one rounding, MX blocks and the stochastic
rounding generators. Values are exact dyadic rationals, so nothing rounds before the encoder rounds (R54).
-/
namespace Sys2Proof.Machine

/-- What an operand decodes to: NaN, a signed infinity, or the exact value (−1)^neg · m · 2^e with its sign kept on
zero (R39–R42). -/
inductive Val where
  | nan
  | inf (neg : Bool)
  | fin (neg : Bool) (m : Nat) (e : Int)
deriving DecidableEq, Repr, Inhabited

/-- The format codes 0 to 10 (R39, R43, R44). -/
inductive Fmt where
  | fp32 | bf16 | fp16 | e4m3 | e5m2 | mxfp8 | e3m2 | e2m3 | e2m1 | mxint8 | int8
deriving DecidableEq, Repr, Inhabited

/-- The format of a code; 11 to 15 name none (R55). -/
def Fmt.ofCode : Nat → Option Fmt
  | 0 => some .fp32 | 1 => some .bf16 | 2 => some .fp16 | 3 => some .e4m3 | 4 => some .e5m2
  | 5 => some .mxfp8 | 6 => some .e3m2 | 7 => some .e2m3 | 8 => some .e2m1 | 9 => some .mxint8
  | 10 => some .int8 | _ => none

/-- The code of a format. -/
def Fmt.code : Fmt → Nat
  | .fp32 => 0 | .bf16 => 1 | .fp16 => 2 | .e4m3 => 3 | .e5m2 => 4
  | .mxfp8 => 5 | .e3m2 => 6 | .e2m3 => 7 | .e2m1 => 8 | .mxint8 => 9 | .int8 => 10

/-- The width of an element in bits (R39, R43, R44, R46). -/
def Fmt.width : Fmt → Nat
  | .fp32 => 32 | .bf16 => 16 | .fp16 => 16 | .e4m3 => 8 | .e5m2 => 8
  | .mxfp8 => 8 | .e3m2 => 6 | .e2m3 => 6 | .e2m1 => 4 | .mxint8 => 8 | .int8 => 8

/-- The formats that are blocked under a shared scale: codes 5 to 9. -/
def Fmt.isMx : Fmt → Bool
  | .mxfp8 | .e3m2 | .e2m3 | .e2m1 | .mxint8 => true
  | _ => false

/-- What the all-ones exponent field means (R40). -/
inductive Specials where
  | ieee | e4m3 | none
deriving DecidableEq, Repr

/-- A floating-point layout: exponent bits, mantissa bits, bias, special encodings (R39, R40). -/
structure Layout where
  eb : Nat
  mb : Nat
  bias : Nat
  special : Specials
deriving DecidableEq, Repr

/-- The layouts of R39. -/
def layFP32 : Layout := ⟨8, 23, 127, .ieee⟩
def layBF16 : Layout := ⟨8, 7, 127, .ieee⟩
def layFP16 : Layout := ⟨5, 10, 15, .ieee⟩
def layE4M3 : Layout := ⟨4, 3, 7, .e4m3⟩
def layE5M2 : Layout := ⟨5, 2, 15, .ieee⟩
def layE3M2 : Layout := ⟨3, 2, 3, .none⟩
def layE2M3 : Layout := ⟨2, 3, 1, .none⟩
def layE2M1 : Layout := ⟨2, 1, 1, .none⟩

/-- The element layout of a format; code 5 takes the one its kind bit selects; the integer formats have none. -/
def Fmt.layout (f : Fmt) (kind : Bool) : Option Layout :=
  match f with
  | .fp32 => some layFP32 | .bf16 => some layBF16 | .fp16 => some layFP16
  | .e4m3 => some layE4M3 | .e5m2 => some layE5M2
  | .mxfp8 => some (if kind then layE5M2 else layE4M3)
  | .e3m2 => some layE3M2 | .e2m3 => some layE2M3 | .e2m1 => some layE2M1
  | .mxint8 => none | .int8 => none

/-- The largest finite magnitude's bits (R39, R40). -/
def Layout.maxBits (L : Layout) : Nat :=
  match L.special with
  | .ieee => (2 ^ L.eb - 1) * 2 ^ L.mb - 1
  | .e4m3 => 2 ^ (L.eb + L.mb) - 2
  | .none => 2 ^ (L.eb + L.mb) - 1

/-- The canonical NaN (R40, R41); a format without NaN has none and gives 0. -/
def Layout.nanBits (L : Layout) : Nat :=
  match L.special with
  | .ieee => (2 ^ L.eb - 1) * 2 ^ L.mb + 2 ^ (L.mb - 1)
  | .e4m3 => 2 ^ (L.eb + L.mb) - 1
  | .none => 0

/-- Infinity of positive sign, for a layout that has one. -/
def Layout.infBits (L : Layout) : Nat := (2 ^ L.eb - 1) * 2 ^ L.mb

/-- Decode a floating-point encoding to its exact value (R39, R40, R42). -/
def Layout.decode (L : Layout) (w : Nat) : Val :=
  let s := bit w (L.eb + L.mb)
  let e := bits w (L.eb + L.mb - 1) L.mb
  let m := w % 2 ^ L.mb
  let finite : Val :=
    if e = 0 then .fin s m (1 - (L.bias : Int) - L.mb)
    else .fin s (2 ^ L.mb + m) ((e : Int) - L.bias - L.mb)
  if e = 2 ^ L.eb - 1 then
    match L.special with
    | .ieee => if m = 0 then .inf s else .nan
    | .e4m3 => if m = 2 ^ L.mb - 1 then .nan else finite
    | .none => finite
  else finite

/-- An integer as an exact value. -/
def Val.ofInt (i : Int) (e : Int) : Val := .fin (decide (i < 0)) i.natAbs e

/-- Decode an element before its block scale or its channel factor: an MXINT8 element is q · 2^−6, an INT8 element is
q (R39, R43, R44). -/
def decodeElem (f : Fmt) (kind : Bool) (w : Nat) : Val :=
  match f.layout kind with
  | some L => L.decode w
  | none => if f = .mxint8 then .ofInt (sext 8 w) (-6) else .ofInt (sext 8 w) 0

/-- The value of an E8M0 scale byte: 255 is NaN (R45). -/
def decodeE8M0 (x : Nat) : Val := if x = 255 then .nan else .fin false 1 ((x : Int) - 127)

/-! ### Exact arithmetic -/

/-- Whether a value is NaN. -/
def Val.isNan : Val → Bool
  | .nan => true | _ => false
/-- Whether a value is an infinity. -/
def Val.isInf : Val → Bool
  | .inf _ => true | _ => false
/-- Whether a value is finite. -/
def Val.isFin : Val → Bool
  | .fin _ _ _ => true | _ => false
/-- Whether a value is a zero of either sign. -/
def Val.isZero : Val → Bool
  | .fin _ m _ => m = 0 | _ => false
/-- The sign bit. -/
def Val.sign : Val → Bool
  | .nan => false | .inf s => s | .fin s _ _ => s
/-- The negation; NaN stays NaN. -/
def Val.neg : Val → Val
  | .nan => .nan | .inf s => .inf (!s) | .fin s m e => .fin (!s) m e
/-- The magnitude; NaN stays NaN. -/
def Val.abs : Val → Val
  | .nan => .nan | .inf _ => .inf false | .fin _ m e => .fin false m e

/-- +0. -/
def Val.zero : Val := .fin false 0 0
/-- 1. -/
def Val.one : Val := .fin false 1 0

/-- The integer that a finite value is at a common exponent at or below its own. -/
def scaledInt (neg : Bool) (m : Nat) (e q : Int) : Int :=
  let v : Int := (m * 2 ^ (e - q).toNat : Nat)
  if neg then -v else v

/-- The exact sum, with INVALID on ∞ − ∞. An exact zero sum of non-zero terms, or of zeros of unlike sign, is +0 (the
round-to-nearest rule of IEEE 754). -/
def Val.add (a b : Val) : Val × Flags :=
  match a, b with
  | .nan, _ => (.nan, fNone)
  | _, .nan => (.nan, fNone)
  | .inf s, .inf t => if s = t then (.inf s, fNone) else (.nan, fInvalid)
  | .inf s, _ => (.inf s, fNone)
  | _, .inf t => (.inf t, fNone)
  | .fin s m e, .fin t n f =>
    let q := min e f
    let i := scaledInt s m e q + scaledInt t n f q
    if i = 0 then (.fin (decide (m = 0) && decide (n = 0) && s && t) 0 0, fNone) else (.ofInt i q, fNone)

/-- The exact difference. -/
def Val.sub (a b : Val) : Val × Flags := a.add b.neg

/-- The exact product, with INVALID on 0 × ∞. -/
def Val.mul (a b : Val) : Val × Flags :=
  match a, b with
  | .nan, _ => (.nan, fNone)
  | _, .nan => (.nan, fNone)
  | .inf s, .inf t => (.inf (s ^^ t), fNone)
  | .inf s, .fin t n _ => if n = 0 then (.nan, fInvalid) else (.inf (s ^^ t), fNone)
  | .fin s m _, .inf t => if m = 0 then (.nan, fInvalid) else (.inf (s ^^ t), fNone)
  | .fin s m e, .fin t n f => (.fin (s ^^ t) (m * n) (e + f), fNone)

/-- a · b + c, exact, with INVALID on 0 × ∞ and ∞ − ∞. -/
def Val.fma (a b c : Val) : Val × Flags :=
  let p := a.mul b
  let r := p.1.add c
  (r.1, p.2 ||| r.2)

/-- The order of two values that are not NaN: negative, zero or positive as a is below, equal to or above b; zeros of
either sign are equal. -/
def Val.cmp (a b : Val) : Int :=
  match a, b with
  | .nan, _ => 0
  | _, .nan => 0
  | .inf s, .inf t => if s = t then 0 else if s then -1 else 1
  | .inf s, _ => if s then -1 else 1
  | _, .inf t => if t then 1 else -1
  | .fin s m e, .fin t n f =>
    let q := min e f
    scaledInt s m e q - scaledInt t n f q

/-- a = b as a compare sees it: false with a NaN (R122). -/
def Val.eqv (a b : Val) : Bool := !a.isNan && !b.isNan && decide (a.cmp b = 0)
/-- a < b: false with a NaN (R122). -/
def Val.lt (a b : Val) : Bool := !a.isNan && !b.isNan && decide (a.cmp b < 0)
/-- a ≤ b: false with a NaN (R122). -/
def Val.le (a b : Val) : Bool := !a.isNan && !b.isNan && decide (a.cmp b ≤ 0)

/-- The smaller: NaN if either is NaN, −0 below +0 (R120). -/
def Val.min (a b : Val) : Val :=
  if a.isNan || b.isNan then .nan
  else if a.cmp b = 0 then (if a.sign then a else b)
  else if a.cmp b < 0 then a else b

/-- The larger: NaN if either is NaN, −0 below +0 (R120). -/
def Val.max (a b : Val) : Val :=
  if a.isNan || b.isNan then .nan
  else if a.cmp b = 0 then (if a.sign then b else a)
  else if a.cmp b < 0 then b else a

/-! ### Rounding -/

/-- A rounding mode, SR with its sixteen random bits (R50, R51). -/
inductive Rnd where
  | rne
  | rtz
  | sr (r : Nat)
deriving DecidableEq, Repr

/-- Round num/den, a count of units in the last place, to an integer, and whether it was inexact (R50, R51). -/
def roundUnits (rnd : Rnd) (num den : Nat) : Nat × Bool :=
  let i := num / den
  let rem := num % den
  let up : Bool :=
    match rnd with
    | .rne => decide (den < 2 * rem) || (decide (2 * rem = den) && decide (i % 2 = 1))
    | .rtz => false
    | .sr r => decide (2 ^ 16 ≤ rem * 2 ^ 16 / den + r % 2 ^ 16)
  (i + b2n up, decide (rem ≠ 0))

/-- ⌊log2 (num/den · 2^e)⌋ for num, den > 0. -/
def floorLog2 (num den : Nat) (e : Int) : Int :=
  let k : Int := (Nat.log2 num : Int) - Nat.log2 den
  let below : Bool :=
    if 0 ≤ k then decide (num < den * 2 ^ k.toNat) else decide (num * 2 ^ (-k).toNat < den)
  (if below then k - 1 else k) + e

/-- num/den · 2^e as a fraction of whole numbers in units of 2^q. -/
def inUnits (num den : Nat) (e q : Int) : Nat × Nat :=
  if q ≤ e then (num * 2 ^ (e - q).toNat, den) else (num, den * 2 ^ (q - e).toNat)

/-- Round the magnitude num/den · 2^e as though the exponent range had no upper limit (R50). The answer is the
magnitude's encoding, which passes `maxBits` when the magnitude overflows, and whether it is inexact. -/
def Layout.roundMag (L : Layout) (rnd : Rnd) (num den : Nat) (e : Int) : Nat × Bool :=
  if num = 0 then (0, false) else
  let qmin : Int := 1 - (L.bias : Int) - L.mb
  let q := Max.max (floorLog2 num den e - L.mb) qmin
  let u := inUnits num den e q
  let r := roundUnits rnd u.1 u.2
  (r.1 + (q - qmin).toNat * 2 ^ L.mb, r.2)

/-- Put a sign on a magnitude's bits. -/
def Layout.signed (L : Layout) (neg : Bool) (mag : Nat) : Nat := b2n neg * 2 ^ (L.eb + L.mb) + mag

/-- Encode the exact magnitude num/den · 2^e of the given sign into a floating-point destination that is no MX element
(R56), with the flags of R57. -/
def Layout.encodeRat (L : Layout) (rnd : Rnd) (sat neg : Bool) (num den : Nat) (e : Int) : Nat × Flags :=
  let r := L.roundMag rnd num den e
  if L.maxBits < r.1 then
    let w :=
      if sat || decide (rnd = .rtz) then L.signed neg L.maxBits
      else match L.special with
        | .ieee => L.signed neg L.infBits
        | .e4m3 => L.nanBits
        | .none => L.signed neg L.maxBits
    (w, fOverflow ||| fInexact)
  else
    (L.signed neg r.1, fIf r.2 fInexact ||| fIf (r.2 && decide (r.1 < 2 ^ L.mb)) fUnderflow)

/-- Encode a value into a floating-point destination that is no MX element (R56). An infinite source that does not become
an infinity raises INEXACT, for the result differs from the exact value; OVERFLOW names a finite source (R57).
DEDUCED: log 40. -/
def Layout.encode (L : Layout) (rnd : Rnd) (sat : Bool) (v : Val) : Nat × Flags :=
  match v with
  | .nan => (L.nanBits, fNone)
  | .inf s =>
    match L.special with
    | .ieee => if sat then (L.signed s L.maxBits, fInexact) else (L.signed s L.infBits, fNone)
    | .e4m3 => (if sat then L.signed s L.maxBits else L.nanBits, fInexact)
    | .none => (L.signed s L.maxBits, fInexact)
  | .fin s m e => L.encodeRat rnd sat s m 1 e

/-- Round a value to an integer of magnitude at most 127, in units of 2^q, as a two's-complement byte (R44, R56, R57:
0x80 is never produced, UNDERFLOW never raised). -/
def encodeByte (rnd : Rnd) (neg : Bool) (m : Nat) (e q : Int) : Nat × Flags :=
  let u := inUnits m 1 e q
  let r := roundUnits rnd u.1 u.2
  let k := Min.min r.1 127
  (wrap 8 (if neg then -(k : Int) else k), fIf (r.2 || decide (127 < r.1)) fInexact ||| fIf (decide (127 < r.1)) fOverflow)

/-- Encode into an INT8 destination the value x · m_c (R56): an infinity saturates and NaN gives 0, both with INVALID. -/
def encodeInt8 (rnd : Rnd) (v : Val) : Nat × Flags :=
  match v with
  | .nan => (0, fInvalid)
  | .inf s => (if s then 0x81 else 0x7F, fInvalid ||| fInexact)
  | .fin s m e => encodeByte rnd s m e 0

/-- Encode an element of an MX block, already divided by the block scale: overflow always saturates (R48, R49). The
elements of a block that holds NaN or an infinity are zero and are not encoded here. -/
def encodeMxElem (f : Fmt) (kind : Bool) (rnd : Rnd) (v : Val) : Nat × Flags :=
  match v with
  | .fin s m e =>
    match f.layout kind with
    | some L => L.encodeRat rnd true s m 1 e
    | none => encodeByte rnd s m e (-6)
  | _ => (0, fNone)

/-- Encode into a destination of codes 0 to 4 or 10 (for INT8 the value is already multiplied by m_c). -/
def encodePlain (f : Fmt) (rnd : Rnd) (sat : Bool) (v : Val) : Nat × Flags :=
  match f.layout false with
  | some L => L.encode rnd sat v
  | none => encodeInt8 rnd v

/-- Round the exact result of an arithmetic operation once with RNE into a destination of codes 0 to 4, sat = 0 (R53,
R121). -/
def encodeArith (f : Fmt) (v : Val) : Nat × Flags := encodePlain f .rne false v

/-! ### FP32 -/

/-- Decode an FP32 word. -/
def f32 (w : Nat) : Val := layFP32.decode w
/-- Round a value to FP32 with RNE. -/
def toF32 (v : Val) : Nat × Flags := layFP32.encode .rne false v
/-- A value rounded to FP32 and read back. -/
def roundF32 (v : Val) : Val × Flags :=
  let r := toF32 v
  (f32 r.1, r.2)

/-- FP32 1.0. -/
def f32One : Nat := 0x3F800000
/-- FP32 canonical NaN (R40). -/
def f32Nan : Nat := 0x7FC00000
/-- FP32 +∞. -/
def f32Inf : Nat := 0x7F800000
/-- FP32 −∞. -/
def f32NegInf : Nat := 0xFF800000

/-- FP32 sum of two FP32 values with one rounding. -/
def addF32 (a b : Val) : Val × Flags :=
  let x := a.add b
  let r := roundF32 x.1
  (r.1, x.2 ||| r.2)

/-- The quotient a ÷ b rounded once to a layout, with the flags of R125: DIV_ZERO for a finite non-zero value over
zero, INVALID for 0 ÷ 0 and ∞ ÷ ∞. -/
def Layout.div (L : Layout) (a b : Val) : Nat × Flags :=
  match a, b with
  | .nan, _ => (L.nanBits, fNone)
  | _, .nan => (L.nanBits, fNone)
  | .inf _, .inf _ => (L.nanBits, fInvalid)
  | .inf s, .fin t _ _ => L.encode .rne false (.inf (s ^^ t))
  | .fin s _ _, .inf t => (L.signed (s ^^ t) 0, fNone)
  | .fin s m e, .fin t n f =>
    if n = 0 then
      if m = 0 then (L.nanBits, fInvalid)
      else ((L.encode .rne false (.inf (s ^^ t))).1, fDivZero)
    else L.encodeRat .rne false (s ^^ t) m n (e - f)

/-- The FP32 quotient. -/
def divF32 (a b : Val) : Nat × Flags := layFP32.div a b

/-- The largest integer whose square is at most n (binary digits from the top; `k` counts them). -/
def isqrtGo (n : Nat) : (k : Nat) → (r : Nat) → Nat
  | 0, r => r
  | k + 1, r => let r' := r + 2 ^ k; isqrtGo n k (if r' * r' ≤ n then r' else r)

/-- ⌊√n⌋. -/
def isqrt (n : Nat) : Nat := isqrtGo n (Nat.log2 n / 2 + 1) 0

/-- The square root of m · 2^e as a fraction in units below any FP32 rounding boundary: ⌊√⌋ at 64 further bits, with a
sticky half unit added when the root is not exact, so one rounding of it is the correct rounding of the root. -/
def sqrtMag (m : Nat) (e : Int) : Nat × Int :=
  let e2 := (e - 128) / 2
  let n := m * 2 ^ (e - 2 * e2).toNat
  let r := isqrt n
  (2 * r + b2n (decide (r * r ≠ n)), e2 - 1)

/-- The square root rounded once to a layout: −0 gives −0, a negative value NaN with INVALID (R125). -/
def Layout.sqrt (L : Layout) (v : Val) : Nat × Flags :=
  match v with
  | .nan => (L.nanBits, fNone)
  | .inf s => if s then (L.nanBits, fInvalid) else L.encode .rne false (.inf false)
  | .fin s m e =>
    if m = 0 then (L.signed s 0, fNone)
    else if s then (L.nanBits, fInvalid)
    else let r := sqrtMag m e; L.encodeRat .rne false false r.1 1 r.2

/-! ### MX blocks -/

/-- The exponent of the largest normal element (R48). -/
def emaxElem (f : Fmt) (kind : Bool) : Int :=
  match f with
  | .mxfp8 => if kind then 15 else 8
  | .e3m2 => 4 | .e2m3 => 2 | .e2m1 => 2 | .mxint8 => 0
  | _ => 0

/-- The largest magnitude among finite values (R60); a NaN or an infinity does not enter. -/
def amaxVal (l : List Val) : Val :=
  l.foldl (fun a v => if v.isFin && Val.lt a v.abs then v.abs else a) .zero

/-- The shared scale byte of a block of values (R48); none for a block made NaN. -/
def mxScale (f : Fmt) (kind : Bool) (xs : List Val) : Option Nat :=
  if xs.any (fun v => !v.isFin) then none
  else
    match amaxVal xs with
    | .fin _ m e =>
      if m = 0 then some 0
      else
        let k := floorLog2 m 1 e - emaxElem f kind
        some (Max.max (-127) (Min.min 127 k) + 127).toNat
    | _ => some 0

/-- v ÷ 2^k, exact. -/
def Val.scale2 (v : Val) (k : Int) : Val :=
  match v with
  | .fin s m e => .fin s m (e + k)
  | v => v

/-- Encode one MX block (R48, R49): the scale byte, each element's bits with its flags, and whether the block is NaN. The
rounding modes are one per element (each element of an SR block draws its own bits, R51). -/
def encodeMxBlock (f : Fmt) (kind : Bool) (xs : List (Val × Rnd)) : Nat × List (Nat × Flags) × Bool :=
  match mxScale f kind (xs.map Prod.fst) with
  | none => (255, xs.map (fun _ => (0, fNone)), true)
  | some X =>
    (X, xs.map (fun p => encodeMxElem f kind p.2 (p.1.scale2 (127 - (X : Int)))), false)

/-- Decode an element of a block with scale byte X (R45): a NaN scale makes every element NaN. -/
def decodeMx (f : Fmt) (kind : Bool) (X w : Nat) : Val :=
  if X = 255 then .nan else (decodeElem f kind w).scale2 ((X : Int) - 127)

/-- The largest finite value of a format (R59's fmt_max): 127 for INT8, 1.984375 for MXINT8. -/
def fmtMax (f : Fmt) (kind : Bool) : Val :=
  match f.layout kind with
  | some L => L.decode L.maxBits
  | none => if f = .mxint8 then .fin false 127 (-6) else .fin false 127 0

/-! ### Stochastic rounding generators (R52) -/

/-- One step of a generator. -/
def lfsrStep (st : Nat) : Nat :=
  let sh := st * 2 % 2 ^ 32
  if bit st 31 then sh ^^^ 0x00400007 else sh

/-- The state a seed gives the generator at position q. -/
def lfsrInit (seed q : Nat) : Nat :=
  let s := (seed ^^^ (q * 0x9E3779B9 % 2 ^ 32)) % 2 ^ 32
  if s = 0 then 0xFFFFFFFF else s

/-- The sixteen bits a rounding takes and the state after it: sixteen steps on.
DEDUCED: log 52. -/
def lfsrDraw (st : Nat) : Nat × Nat := (st % 2 ^ 16, iter (fun _ x => lfsrStep x) 16 st)

end Sys2Proof.Machine
end

