-- ==== Sys2Proof/Machine/Elementary.lean ====
section
/-!
DEFINITION. The transcendentals (R125). Each is computed to several hundred bits, rounded down to FP32 and moved by a free
error inside the bound the spec states: any FP32 result the bound allows is a result of the model, and no other is.
-/
namespace Sys2Proof.Machine

/-- The fractional bits of the working precision. -/
def prec : Nat := 512

/-- One at the working precision. -/
def fxOne : Int := 2 ^ prec

/-- Product at the working precision. -/
def fxMul (a b : Int) : Int := a * b / fxOne

/-- Quotient at the working precision. -/
def fxDiv (a b : Int) : Int := a * fxOne / b

/-- A finite value at the working precision. -/
def fxOf (neg : Bool) (m : Nat) (e : Int) : Int :=
  let k := e + prec
  let v : Int := if 0 ≤ k then (m * 2 ^ k.toNat : Nat) else (m / 2 ^ (-k).toNat : Nat)
  if neg then -v else v

/-- Σ y^(2i+1)/(2i+1), the sign alternating where `alt`: atanh y or atan y. -/
def fxAtanSeries (alt : Bool) (y2 : Int) : (n i : Nat) → (t acc : Int) → Int
  | 0, _, _, acc => acc
  | n + 1, i, t, acc =>
    let term := t / (2 * i + 1 : Nat)
    fxAtanSeries alt y2 n (i + 1) (fxMul t y2) (if alt && decide (i % 2 = 1) then acc - term else acc + term)

/-- atanh y for |y| ≤ 1/3, or atan y for |y| ≤ 1/5. -/
def fxAtan (alt : Bool) (y : Int) : Int := fxAtanSeries alt (fxMul y y) 200 0 y 0

/-- ln 2. -/
def fxLn2 : Int := 2 * fxAtan false (fxOne / 3)

/-- π (Machin's formula). -/
def fxPi : Int := 16 * fxAtan true (fxOne / 5) - 4 * fxAtan true (fxOne / 239)

/-- Σ r^i/i! for 0 ≤ r < 1. -/
def fxExpSeries (r : Int) : (n i : Nat) → (t acc : Int) → Int
  | 0, _, _, acc => acc
  | n + 1, i, t, acc => fxExpSeries r n (i + 1) (fxMul t r / (i + 1 : Nat)) (acc + t)

/-- e^y as a mantissa at the working precision and a power of two; y below −400 is taken as −400, which is below every
FP32 magnitude. -/
def fxExp (y : Int) : Int × Int :=
  let y := max y (-400 * fxOne)
  let n := y / fxLn2
  (fxExpSeries (y - n * fxLn2) 130 0 fxOne 0, n)

/-- e^−y for y ≥ 0, at the working precision, never 0. -/
def fxExpNeg (y : Int) : Int :=
  let p := fxExp (-y)
  max 1 (p.1 / 2 ^ (-p.2).toNat)

/-- ln of a positive value. -/
def fxLog (m : Nat) (e : Int) : Int :=
  let k := Nat.log2 m
  let f : Int := (m : Int) * fxOne / 2 ^ k
  2 * fxAtan false (fxDiv (f - fxOne) (f + fxOne)) + (e + k) * fxLn2

/-- Σ (−1)^i z^(2i+1)/(i!(2i+1)). -/
def fxErfSeries (z2 : Int) : (n i : Nat) → (t acc : Int) → Int
  | 0, _, _, acc => acc
  | n + 1, i, t, acc =>
    let term := t / (2 * i + 1 : Nat)
    fxErfSeries z2 n (i + 1) (fxMul t z2 / (i + 1 : Nat)) (if i % 2 = 1 then acc - term else acc + term)

/-- √ of a non-negative number at the working precision. -/
def fxSqrt (y : Int) : Int := (isqrt (y.toNat * 2 ^ prec) : Int)

/-- erf z for z ≥ 0; from 12 on it is taken one unit below 1. -/
def fxErf (z : Int) : Int :=
  if 12 * fxOne ≤ z then fxOne - 1
  else fxDiv (2 * fxErfSeries (fxMul z z) 1000 0 z 0) (fxSqrt fxPi)

/-- Σ of the sine series for 0 ≤ r < π/2. -/
def fxSinSeries (r2 : Int) : (n i : Nat) → (t acc : Int) → Int
  | 0, _, _, acc => acc
  | n + 1, i, t, acc => fxSinSeries r2 n (i + 2) (-(fxMul t r2) / ((i + 1) * (i + 2) : Nat)) (acc + t)

/-- sin of a number (cos where `cosine`), reduced by π/2 at full precision. -/
def fxSin (cosine : Bool) (y : Int) : Int :=
  let h := fxPi / 2
  let q := y / h
  let r := y - q * h
  let q' := ((q + (if cosine then 1 else 0)) % 4).toNat
  let s := fxSinSeries (fxMul r r) 100 1 r 0
  let c := fxSinSeries (fxMul r r) 100 0 fxOne 0
  match q' with
  | 0 => s | 1 => c | 2 => -s | _ => -c

/-- A result before its error: a sign, the magnitude num/den · 2^e, and whether that magnitude is the exact result. -/
structure Approx where
  neg : Bool
  num : Nat
  den : Nat
  e : Int
  exact : Bool
deriving Repr

/-- A number at the working precision as a result. -/
def Approx.ofFx (v : Int) (k : Int) : Approx := ⟨decide (v < 0), v.natAbs, 1, k - prec, false⟩

/-- The signed place of i/den · 2^e in the order of a format's numbers, towards zero: the magnitude's encoding, negative below
zero. -/
def fpPlace (L : Layout) (i : Int) (den : Nat) (e : Int) : Int :=
  if 0 ≤ i then ((L.roundMag .rtz i.natAbs den e).1 : Int) else -((L.roundMag .rtz i.natAbs den e).1 : Int)

/-- The first and the last place whose number lies within k units in the last place of the magnitude num/den · 2^e (R125): the
unit is that of the exact result's binade, and the places in the binades beside it count with their own spacing. -/
def ulpPlaces (L : Layout) (k num den : Nat) (e : Int) : Int × Int :=
  let qmin : Int := 1 - (L.bias : Int) - L.mb
  let u : Int := if num = 0 then qmin else Max.max (floorLog2 num den e - L.mb) qmin
  let q := min e u
  let x : Int := (num * 2 ^ (e - q).toNat : Nat)
  let d : Int := (k * 2 ^ (u - q).toNat * den : Nat)
  let bot := fpPlace L (x - d) den q
  (if decide (0 < x - d) && (L.roundMag .rtz (x - d).natAbs den q).2 then bot + 1 else bot, fpPlace L (x + d) den q)

/-- An FP32 result within k units in the last place of an approximated magnitude, by a free error (R125). Overflow gives
infinity with OVERFLOW.
DESIGN CHOICE: log 42.
DEDUCED: log 43. -/
def finishUlp (k : Nat) (id : Nat) (a : Approx) : Val × Flags :=
  let f := layFP32.roundMag .rtz a.num a.den a.e
  let b := ulpPlaces layFP32 k a.num a.den a.e
  let p := max b.1 (min b.2 ((f.1 : Int) + Config.ulpError id))
  let w := p.natAbs
  let neg := a.neg ^^ decide (p < 0)
  if layFP32.maxBits < w then (.inf neg, fOverflow ||| fInexact)
  else
    let inex := !(a.exact && !f.2 && decide (p = f.1))
    (layFP32.decode (layFP32.signed neg w), fIf inex fInexact ||| fIf (inex && decide (w < 2 ^ 23)) fUnderflow)

/-- A result that is exact, or rounded once to FP32.
DEDUCED: log 43. -/
def finishExact (v : Val) : Val × Flags := roundF32 v

/-- The transcendental operations of the VXE, in the order of their codes 0x10 to 0x1E (R125). -/
inductive TOp where
  | exp | exp2 | log | log2 | rcp | div | sqrt | rsqrt | tanh | sigmoid | silu | gelu | erf | sin | cos
deriving DecidableEq, Repr

/-- The exponential. -/
def evalExp (id : Nat) : Val → Val × Flags
  | .nan => (.nan, fNone)
  | .inf s => (if s then .zero else .inf false, fNone)
  | .fin s m e =>
    if m = 0 then finishUlp 2 id ⟨false, 1, 1, 0, true⟩
    else if !s && decide (1000 < m * 2 ^ (e.toNat) / 2 ^ ((-e).toNat)) then (.inf false, fOverflow ||| fInexact)
    else let p := fxExp (if s && decide (1000 < m * 2 ^ (e.toNat) / 2 ^ ((-e).toNat)) then -400 * fxOne else fxOf s m e)
         finishUlp 2 id (.ofFx p.1 p.2)

/-- The power of two: exact for an integer. -/
def evalExp2 (id : Nat) : Val → Val × Flags
  | .nan => (.nan, fNone)
  | .inf s => (if s then .zero else .inf false, fNone)
  | .fin s m e =>
    if decide (1000 < m * 2 ^ (e.toNat) / 2 ^ ((-e).toNat)) then
      (if !s then (.inf false, fOverflow ||| fInexact)
      else if m * 2 ^ e.toNat % 2 ^ (-e).toNat = 0 then (.zero, fInexact ||| fUnderflow)
      else finishUlp 1 id (.ofFx fxOne (-1000)))
    else
      let y := fxOf s m e
      let n := y / fxOne
      if y = n * fxOne then finishExact (.fin false 1 n)
      else finishUlp 1 id (.ofFx (fxExp (fxMul (y - n * fxOne) fxLn2)).1 (n + (fxExp (fxMul (y - n * fxOne) fxLn2)).2))

/-- The natural logarithm. -/
def evalLog (id : Nat) : Val → Val × Flags
  | .nan => (.nan, fNone)
  | .inf s => if s then (.nan, fInvalid) else (.inf false, fNone)
  | .fin s m e =>
    if m = 0 then (.inf true, fDivZero)
    else if s then (.nan, fInvalid)
    else if m = 2 ^ Nat.log2 m ∧ e = -(Nat.log2 m : Int) then finishUlp 2 id ⟨false, 0, 1, 0, true⟩
    else finishUlp 2 id (.ofFx (fxLog m e) 0)

/-- The logarithm to base two: exact for a power of two. -/
def evalLog2 (id : Nat) : Val → Val × Flags
  | .nan => (.nan, fNone)
  | .inf s => if s then (.nan, fInvalid) else (.inf false, fNone)
  | .fin s m e =>
    if m = 0 then (.inf true, fDivZero)
    else if s then (.nan, fInvalid)
    else if m = 2 ^ Nat.log2 m then finishExact (.ofInt (e + Nat.log2 m) 0)
    else finishUlp 1 id (.ofFx (fxDiv (fxLog m e) fxLn2) 0)

/-- The reciprocal. -/
def evalRcp (id : Nat) : Val → Val × Flags
  | .nan => (.nan, fNone)
  | .inf s => (.fin s 0 0, fNone)
  | .fin s m e => if m = 0 then (.inf s, fDivZero) else finishUlp 1 id ⟨s, 1, m, -e, true⟩

/-- The reciprocal square root. -/
def evalRsqrt (id : Nat) : Val → Val × Flags
  | .nan => (.nan, fNone)
  | .inf s => if s then (.nan, fInvalid) else (.zero, fNone)
  | .fin s m e =>
    if m = 0 then (.inf s, fDivZero)
    else if s then (.nan, fInvalid)
    else
      let r := sqrtMag m e
      finishUlp 1 id ⟨false, 1, r.1, -r.2, decide (r.1 % 2 = 0)⟩

/-- The hyperbolic tangent. -/
def evalTanh (id : Nat) : Val → Val × Flags
  | .nan => (.nan, fNone)
  | .inf s => (.fin s 1 0, fNone)
  | .fin s m e =>
    if m = 0 then finishUlp 2 id ⟨s, 0, 1, 0, true⟩
    else
      let t := fxExpNeg (min (2 * fxOf false m e) (1000 * fxOne))
      let v := fxDiv (fxOne - t) (fxOne + t)
      finishUlp 2 id { Approx.ofFx v 0 with neg := s }

/-- 1/(1 + e^−x) at the working precision, for finite x. -/
def fxSigmoid (s : Bool) (m : Nat) (e : Int) : Int :=
  let t := fxExpNeg (min (fxOf false m e) (1000 * fxOne))
  if s then fxDiv t (fxOne + t) else fxDiv fxOne (fxOne + t)

/-- The logistic function. -/
def evalSigmoid (id : Nat) : Val → Val × Flags
  | .nan => (.nan, fNone)
  | .inf s => (if s then .zero else .one, fNone)
  | .fin s m e =>
    if m = 0 then finishUlp 2 id ⟨false, 1, 2, 0, true⟩
    else finishUlp 2 id (.ofFx (fxSigmoid s m e) 0)

/-- x · sigmoid x. -/
def evalSilu (id : Nat) : Val → Val × Flags
  | .nan => (.nan, fNone)
  | .inf s => (if s then .fin true 0 0 else .inf false, fNone)
  | .fin s m e =>
    if m = 0 then finishUlp 3 id ⟨s, 0, 1, 0, true⟩
    else finishUlp 3 id ⟨s, m * (fxSigmoid s m e).toNat, 1, e - prec, false⟩

/-- Φ(x) at the working precision: the error-function form of R125; beyond ±16 it is one unit from its limit. -/
def fxPhi (s : Bool) (m : Nat) (e : Int) : Int :=
  let y := fxOf false m e
  if 16 * fxOne ≤ y then (if s then 1 else fxOne - 1)
  else
    let r := fxErf (fxDiv y (fxSqrt (2 * fxOne)))
    if s then (fxOne - r) / 2 else (fxOne + r) / 2

/-- x · Φ(x). -/
def evalGelu (id : Nat) : Val → Val × Flags
  | .nan => (.nan, fNone)
  | .inf s => (if s then .fin true 0 0 else .inf false, fNone)
  | .fin s m e =>
    if m = 0 then finishUlp 3 id ⟨s, 0, 1, 0, true⟩
    else finishUlp 3 id ⟨s, m * (fxPhi s m e).toNat, 1, e - prec, false⟩

/-- The error function. -/
def evalErf (id : Nat) : Val → Val × Flags
  | .nan => (.nan, fNone)
  | .inf s => (.fin s 1 0, fNone)
  | .fin s m e =>
    if m = 0 then finishUlp 2 id ⟨s, 0, 1, 0, true⟩
    else finishUlp 2 id { Approx.ofFx (fxErf (min (fxOf false m e) (12 * fxOne))) 0 with neg := s }

/-- Sine, or cosine. -/
def evalSin (cosine : Bool) (id : Nat) : Val → Val × Flags
  | .nan => (.nan, fNone)
  | .inf _ => (.nan, fInvalid)
  | .fin s m e =>
    if m = 0 then finishUlp 2 id (if cosine then ⟨false, 1, 1, 0, true⟩ else ⟨s, 0, 1, 0, true⟩)
    else finishUlp 2 id (.ofFx (fxSin cosine (fxOf s m e)) 0)

/-- The correctly rounded quotient in FP32 (R125). -/
def evalDiv (a b : Val) : Val × Flags :=
  let r := divF32 a b
  (f32 r.1, r.2)

/-- The correctly rounded square root in FP32 (R125). -/
def evalSqrt (a : Val) : Val × Flags :=
  let r := layFP32.sqrt a
  (f32 r.1, r.2)

/-- A transcendental in FP32 (R125); `id` numbers the evaluation for its free error. -/
def TOp.eval (op : TOp) (id : Nat) (a b : Val) : Val × Flags :=
  match op with
  | .exp => evalExp id a
  | .exp2 => evalExp2 id a
  | .log => evalLog id a
  | .log2 => evalLog2 id a
  | .rcp => evalRcp id a
  | .div => evalDiv a b
  | .sqrt => evalSqrt a
  | .rsqrt => evalRsqrt id a
  | .tanh => evalTanh id a
  | .sigmoid => evalSigmoid id a
  | .silu => evalSilu id a
  | .gelu => evalGelu id a
  | .erf => evalErf id a
  | .sin => evalSin false id a
  | .cos => evalSin true id a

end Sys2Proof.Machine
end

