-- ==== Sys2Proof/Machine/Crc.lean ====
section
/-!
DEFINITION. The two checks the spec names: CRC-32C (chapters 08, 09, 13–16, 18, 20, 21) and the halyard CRC-16 (R265).
-/
namespace Sys2Proof.Machine

/-- One bit of the reflected CRC-32C register. -/
def crc32cBit (r : Nat) : Nat := if r % 2 = 1 then r / 2 ^^^ 0x82F63B78 else r / 2

/-- One byte of the CRC-32C register, least significant bit first.
PRESUMED: log 39. -/
def crc32cByte (r : Nat) (b : W8) : Nat := iter (fun _ x => crc32cBit x) 8 (r ^^^ b.toNat)

/-- CRC-32C of a byte string: Castagnoli polynomial, reflected, all-ones initial value and final inversion.
PRESUMED: the spec names the polynomial and R289 the code; the reflection and the two inversions are the code's usual form.
PRESUMED: log 39. -/
def crc32c (bs : List W8) : Nat := bs.foldl crc32cByte 0xFFFFFFFF ^^^ 0xFFFFFFFF

/-- One bit of the CRC-16 register: polynomial 0x1021, most significant bit first (R265). -/
def crc16Bit (r : Nat) : Nat :=
  if bit r 15 then (r * 2 % 2 ^ 16) ^^^ 0x1021 else r * 2 % 2 ^ 16

/-- One byte of the CRC-16 register (R265). -/
def crc16Byte (r : Nat) (b : W8) : Nat := iter (fun _ x => crc16Bit x) 8 (r ^^^ (b.toNat * 2 ^ 8))

/-- The halyard CRC-16 of a byte string (R265). -/
def crc16 (bs : List W8) : Nat := bs.foldl crc16Byte 0xFFFF

end Sys2Proof.Machine
end

