-- ==== Sys2Proof/Machine/Parts.lean ====
section
/-!
DEFINITION. The parts of the state, block by block: the escapement, its contexts and the queues (09), core memory (08),
pennants and hoists (11), the error log and trace (19), the rings (15). Every part is plain data.
-/
namespace Sys2Proof.Machine

/-- The grade fuse (R5, R13). -/
inductive Grade where
  | max | standard | lean
deriving DecidableEq, Repr, Inhabited

/-! ### The escapement (09) -/

/-- The state of a context (R197). -/
inductive CState where
  | stopped | running | quiesced
deriving DecidableEq, Repr, Inhabited

/-- Where a RUNNING context stands with respect to its untimed points (R25, R26, R248). -/
inductive Point where
  /-- in a timed section -/
  | inSection
  /-- at its program start, not yet dispatched -/
  | start
  /-- at a pennant wait not yet released -/
  | pennant
  /-- at a hoist wait not yet released -/
  | hoist
  /-- at a gated STREAM not yet released -/
  | gated
  /-- at ESC.END, until every command it issued has retired -/
  | ending
  /-- it has met a quiesce request at an untimed point and issues nothing more (R199) -/
  | pausing
  /-- its wait has released in the AC given; the escapement has not yet taken the release -/
  | releasing (ac : Nat)
  /-- its untimed point has released, in the EC given, and the context is not dispatched -/
  | released (ec : Nat)
deriving DecidableEq, Repr, Inhabited

/-- A comparator (R211, R212). -/
structure Cmp where
  armed : Bool := false
  pdst : Nat := 0
  src : Nat := 0
  kind : Bool := false
  cond : Nat := 0
  sgn : Bool := false
  imm : Nat := 0
deriving DecidableEq, Repr, Inhabited

/-- An open hardware loop: its counter and the slot at which its body begins (R213–R215). -/
structure Loop where
  ctr : Nat
  body : Nat
deriving DecidableEq, Repr, Inhabited

/-- What the escapement keeps of a loaded image's header (R200, R202). -/
structure ImgHdr where
  grade : Nat := 0
  tver : Nat := 0
  sig : Nat := 0
  saveBlk : Nat := 0
  engines : Nat := 0
  nSlots : Nat := 0
  nAff : Nat := 0
  entry : Nat := 0
deriving DecidableEq, Repr, Inhabited

/-- A LAUNCH or REPLAY descriptor whose program is in progress (R345). -/
structure HostRef where
  kind : Nat
  ring : Nat
  seq : Nat
  hostTag : Nat
  cmpl : Bool
deriving DecidableEq, Repr, Inhabited

/-- A write of an address register that lands in an AC, by a class of writers: queue by queue, then the fill gate (R210). -/
structure LateReg where
  ac : Nat
  cls : Nat
  reg : Nat
  val : W64
deriving DecidableEq, Repr, Inhabited

/-- One hardware context: its scalar state (R196), its execution state (R197–R206), its registers (R228), its lane-flag
words (R119) and its microprogram table (R143). -/
structure CtxSt where
  areg : SMap W64 := []
  /-- writes of address registers by engines and asynchronous commands that the escapement does not see yet (R210) -/
  late : List LateReg := []
  /-- one more than the EC of the last write of each address register by a scalar command (R210) -/
  wroteAt : SMap Nat := []
  lcIdx : SMap Nat := []
  lcCnt : SMap Nat := []
  loops : List Loop := []
  cmps : SMap Cmp := []
  pred : W16 := 0x0001#16
  par : SMap W64 := []
  summary : Flags := 0#16
  firstTag : Nat := 0
  pos : Nat := 0
  cstate : CState := .stopped
  point : Point := .inSection
  /-- the origin of the section while no command of it has issued (`fresh`), then the EC of the last issue -/
  lastIssue : Nat := 0
  fresh : Bool := false
  /-- the first command of its section met a full queue and waits for room (R31) -/
  slipping : Bool := false
  /-- a hoist wait whose entry is recorded was met by a pause: it resumes as WAIT (R356) -/
  rejoin : Bool := false
  /-- the EC in which the context's last outbound halyard entry left (R252) -/
  outLeft : Nat := 0
  paused : Bool := false
  stopping : Bool := false
  quiesceReq : Bool := false
  imageValid : Bool := false
  parRefused : Bool := false
  faultCode : Nat := 0
  faultTag : Nat := 0
  faultSev : Nat := 0
  prio : Nat := 0
  issued : Nat := 0
  codeBase : Nat := 0
  codeSize : Nat := 0
  affBase : Nat := 0
  affSize : Nat := 0
  spillBlk : Nat := 0
  img : ImgHdr := {}
  launch : Option HostRef := none
  lane : SMap Flags := []
  uprog : SMap Nat := []
deriving DecidableEq, Repr, Inhabited

/-- A command in a queue: its words with the loop offsets added, its issued tag, and what it took from the escapement in
its issue EC (R115, R209, R216, R218, R28). -/
structure QEnt where
  ctx : Ctx
  tag : Nat
  pos : Nat
  words : List Nat
  rsv : Nat
  areg : SMap W64
  off3 : Nat
  arrive : Nat
  /-- a TXB.LOAD issued before an untimed point of its context that has come: the bytes it loads are undefined (R90) -/
  stale : Bool := false
deriving DecidableEq, Repr, Inhabited

/-- The outcome of a scale computation from an amax (R62): no scale (fmt names no format, or amax is 0), or a scale with
whether it was clamped to 2^−126 … 2^126. -/
inductive ScaleOut where
  | noFormat
  | zero
  | scale (bits : Nat) (clamped : Bool)
deriving DecidableEq, Repr, Inhabited

/-- One change a command makes at its done AC (R33). -/
inductive Eff where
  /-- bytes written from an address on -/
  | mem (addr : Nat) (bs : List W8)
  /-- flags into a lane-flag word of the command's context -/
  | lane (w : Nat) (f : Flags)
  /-- the per-command summary -/
  | summary (f : Flags)
  /-- every lane-flag word of the context cleared -/
  | laneClear
  /-- an amax fold into a tracker slot -/
  | fold (slot : Nat) (amax : Nat) (nonfinite : Bool)
  /-- a just-in-time scale, as it was computed at the command's start (R62) -/
  | jit (slot : Nat) (out : ScaleOut)
  /-- SCT.SET -/
  | sctSet (slot op value : Nat)
  /-- SCT.READ into an address register -/
  | sctRead (slot sel dst : Nat)
  /-- a FILL or FILL.A: the shadow set takes its lines -/
  | fill (strip : Bool) (fmt : Nat) (kind : Bool) (rank : Nat) (lines : List (List Val))
  /-- a SWAP of the main and strip sets -/
  | swap
  /-- a STREAM's sums that have not landed yet: rows into an FTQ entry, each with the AC in which it is visible -/
  | sums (entry : Nat) (stamp : Nat) (acc : Bool) (rows : List (Nat × Nat × List W32))
  /-- the accumulation flags of a STREAM -/
  | accFlags (f : Flags)
  /-- a transposing buffer's bytes -/
  | txb (sel : Nat) (off : Nat) (bs : List W8)
  /-- an update of a local pennant by SYN.SIGNAL -/
  | pennant (p op v : Nat)
  /-- an atomic on a word: operation, operand, compare value, destination register (16 for none) -/
  | atom (addr op value cmp dst : Nat)
  /-- the state in which a command leaves a generator: it takes effect at the command's start -/
  | gen (q st : Nat)
  /-- no change: the command reads a transposing buffer until its end AC (R109) -/
  | readsTxb (sel : Nat)
deriving DecidableEq, Repr, Inhabited

/-- A timed command between its start and its done AC (R33). -/
structure Run where
  ctx : Ctx
  tag : Nat
  opcode : Nat
  startAc : Nat
  endAc : Nat
  doneAc : Nat
  effs : List Eff
  /-- the queue entry it came from -/
  ent : QEnt := default
  /-- the number of its span over the granules it reads and writes; one that has none changes memory at done alone -/
  seat : Nat := 0
deriving DecidableEq, Repr, Inhabited

/-! ### Matrix engine, scale trackers, transposing buffers, stash (03, 04, 05) -/

/-- A stationary set, main or strip: its lines by column, each a list of exact decoded elements by K; what is not listed is
+0 (R66, R72, R74, R102). -/
structure StatSet where
  lines : List (List Val) := []
  fmt : Nat := 0
  kind : Bool := false
  rank : Nat := 0
deriving DecidableEq, Repr, Inhabited

/-- The state of an FTQ entry (R76). -/
inductive FtqState where
  | free | open_ | held | consuming
deriving DecidableEq, Repr, Inhabited

/-- An FTQ entry: rows of FP32 sums, unlisted elements +0 (R75–R77). `stamp` counts its claims, `writer` is the number of
the STREAM that last writes it, `freeAt` the end AC of the command that consumes it. -/
structure Ftq where
  st : FtqState := .free
  owner : Nat := 0
  data : List (List W32) := []
  tag : Nat := 0
  rows : Nat := 0
  stamp : Nat := 0
  writer : Nat := 0
  freeAt : Nat := 0
deriving DecidableEq, Repr, Inhabited

/-- The gated STREAM at the gate (R79): the AC it reached it, whether its deadline has expired, whether the count has been
256 or more in some AC since, the pennant it samples and the entries it opens at its release. -/
structure Gate where
  reached : Nat
  expired : Bool
  met : Bool := false
  pennant : Nat := 0
  opens : List Nat := []
deriving DecidableEq, Repr, Inhabited

/-- The MXE block (R34, R64–R85, R101–R106). -/
structure MxeSt where
  active : StatSet := {}
  shadow : StatSet := {}
  stripActive : StatSet := {}
  stripShadow : StatSet := {}
  ftq : SMap Ftq := []
  accOverflow : Bool := false
  accInvalid : Bool := false
  lateWrite : Bool := false
  gate : Option Gate := none
  lastM : Nat := 0
  lastByDeadline : Bool := false
  releases : Nat := 0
  /-- activity level at `lvlAc`, and whether it rises or falls from there (R34) -/
  lvl : Nat := 0
  lvlAc : Nat := 0
  lvlUp : Bool := false
  /-- the first AC in which the fill path, array entry, converter, tracker port and the write port of each transposing
  buffer are free (R33, R89) -/
  fillFree : Nat := 0
  entryFree : Nat := 0
  cvtFree : Nat := 0
  sctFree : Nat := 0
  txbFree : SMap Nat := []
  /-- bytes of the two transposing buffers, the second from 524,288 on (R86); an unlisted one is undefined, and so is
  every one after an untimed point, which starts a new generation (R90) -/
  txb : SMap W8 := []
  txbGen : Nat := 0
  /-- the context whose state the MXE holds (R225), and each context's saved state -/
  owner : Option Ctx := none
deriving DecidableEq, Repr, Inhabited

/-- What a context switch saves of the MXE (R84, R225, R226), and whether it stands in the save area. -/
structure MxeSave where
  active : StatSet
  shadow : StatSet
  stripActive : StatSet
  stripShadow : StatSet
  ftq : SMap Ftq
  placed : Bool := false
deriving DecidableEq, Repr, Inhabited

/-- A scale tracker slot (R59). -/
structure Sct where
  policy : Nat := 0
  pow2 : Bool := false
  fmt : Nat := 0
  kind : Bool := false
  margin : Nat := 0
  histLen : Nat := 14
  scale : Nat := 0x3F800000
  scaleInv : Nat := 0x3F800000
  nonfinite : Bool := false
  zeroAmax : Bool := false
  clamped : Bool := false
  hist : SMap Nat := []
deriving DecidableEq, Repr, Inhabited

/-- The state of a stash layer with what its record holds: slot start, size and policy (R93–R97). -/
inductive Layer where
  | absent
  | resident
  | spilled (n policy : Nat)
  | dropped
deriving DecidableEq, Repr, Inhabited

/-- A live stash slot (R95). -/
structure StSlot where
  layer : Nat
  start : Nat
  n : Nat
  policy : Nat
deriving DecidableEq, Repr, Inhabited

/-- The stash of one context (R92–R99, R109): its live slots, oldest first. -/
structure Stash where
  base : Nat := 0
  size : Nat := 0
  spillBlk : Nat := 0
  stride : Nat := 0
  spills : Nat := 0
  drops : Nat := 0
  head : Nat := 0
  slots : List StSlot := []
  layers : SMap Layer := []
deriving DecidableEq, Repr, Inhabited

/-! ### Vector engine and pinions (06, 07) -/

/-- The VXE block's registers (R133) and the first AC in which the engine is free. -/
structure VxeSt where
  ctx : Nat := 0
  vop : Nat := 0
  tag : Nat := 0
  lastSummary : Nat := 0
  lastTag : Nat := 0
  free : Nat := 0
deriving DecidableEq, Repr, Inhabited

/-- The PIN block's registers (R165), the first AC in which each pinion is free, and the generators' states. -/
structure PinSt where
  ctx : Nat := 0
  tag : Nat := 0
  lastSummary : Nat := 0
  lastTag : Nat := 0
  /-- fence bits as the host wrote them, and the fences in effect (R153) -/
  fenceReq : SMap Bool := []
  fenced : SMap Bool := []
  /-- the AC in which the fence of a pinion last followed its bit (R380) -/
  fencedAt : SMap Nat := []
  testPinion : Nat := 0
  testBusy : Bool := false
  testPass : Bool := false
  testBad : Bool := false
  combines : Nat := 0
  free : SMap Nat := []
deriving DecidableEq, Repr, Inhabited

/-- Where the stochastic-rounding seed comes from: the entropy source at the k-th reset, or the word the host wrote (R52,
R444). -/
inductive Seed where
  | entropy (k : Nat)
  | written (w : W32)
deriving DecidableEq, Repr, Inhabited

/-- A seed written while a command runs: its word, the number of the free values that say how many draws of each generator come
before it, and the states that the generators have with it when the command comes to draw (R52, R444). -/
structure Reseed where
  word : Nat
  id : Nat
  gens : SMap Nat
deriving DecidableEq, Repr, Inhabited

/-- What a timed command took from the engines in its start AC: all its operands but those that it reads in slots of its span. -/
structure View where
  mxe : MxeSt := {}
  sct : SMap Sct := []
  ctx : CtxSt := {}
  seed : Seed := .entropy 0
  gens : SMap Nat := []
  /-- the seeds written since -/
  reseeds : List Reseed := []
  /-- the first of its free numbers -/
  id : Nat := 0
deriving DecidableEq, Repr, Inhabited

/-- The span of a timed command over the granules it reads and writes, each in a slot between its start and its done AC
(R19, R29, R271). -/
structure Span where
  /-- the owner whose slots it takes (R170), and the EC of its start, end and done -/
  owner : Nat := 0
  startEc : Nat := 0
  endEc : Nat := 0
  doneEc : Nat := 0
  /-- the sub-unit that moves its granules in the MXE's slots, by priority (R24): 0 the moving operand, 1 the fill, 2 a TXB
  load, 3 the output converter -/
  unit : Nat := 0
  /-- the granules it reads, in its order, and the EC before which it has read each, in the same order; an unlisted one is its
  end (R66, R67, R72) -/
  reads : List Nat := []
  by_ : List Nat := []
  /-- the granules it writes, where it has an order for them (R150) -/
  writes : List Nat := []
  /-- the granules that changed after it had read them, with the bytes it read -/
  old : SMap (List W8) := []
  /-- a granule changed before it was read: what the command does is to be computed anew -/
  dirty : Bool := false
  /-- the granules it has written -/
  landed : List Nat := []
  /-- the AC up to which the rows of a STREAM have landed -/
  rowsTo : Nat := 0
  /-- an atomic: once it has read, its old word, its flags and its granule as it will be (R158) -/
  atom : Bool := false
  took : Option (Nat × Flags) := none
  result : List W8 := []
  /-- the command is done: only the slots that it took still count (R24) -/
  ended : Bool := false
  view : View := {}
deriving DecidableEq, Repr, Inhabited

/-! ### Core memory (08) -/

/-- The power state of a bank (R185). -/
inductive PwrState where
  | on | draining | retain | dark | waking
deriving DecidableEq, Repr, Inhabited

/-- One bank's registers and power sequence (R184, R185, R194). -/
structure Bank where
  pw : PwrState := .on
  /-- the requested state: 0 ON, 1 RETAIN, 2 DARK -/
  req : Nat := 0
  /-- the state a drain goes to, or the state a waking bank comes from -/
  goal : Nat := 0
  /-- the drain has ended and the port is isolated -/
  isolated : Bool := false
  /-- the EC and the wall time in which the stage of its power sequence began -/
  stageEc : Nat := 0
  stageWall : Nat := 0
  ce : Nat := 0
  ue : Nat := 0
  spares : Nat := 0
  ceGran : Option Nat := none
  ueGran : Option Nat := none
  arrivals : Nat := 0
  darkDiscards : Nat := 0
deriving DecidableEq, Repr, Inhabited

/-- A slot-map set: four maps of sixteen owner codes and eight select words (R170, R171). -/
structure MapSet where
  maps : List Nat
  sels : List Nat
deriving DecidableEq, Repr, Inhabited

/-- The block's control registers (R173, R179–R181, R191, R192, R194). -/
structure CmemCtl where
  hier : Bool := false
  darkAccess : Bool := false
  active : MapSet
  staged : MapSet
  mapReason : Nat := 0
  mapRefused : Bool := false
  partBase : SMap Nat := []
  partSize : SMap Nat := []
  resident : List Nat := []
  mxeOwner : Nat := 0
  mxeValid : Bool := false
  vxeOwner : Nat := 0
  vxeValid : Bool := false
  evicting : List Nat := []
  /-- the partitions whose bytes have left core memory and are not accepted whole: context and writer (R227, R271) -/
  spilling : List (Nat × Nat) := []
  evictRefused : Bool := false
  pwrTimeout : Nat := 100
  scrubEn : Bool := true
  scrubInterval : Nat := 1024
  scrubGran : Nat := 0
  scrubPasses : Nat := 0
  scrubWb : List (Nat × Nat) := []
  /-- the first EC from which the DMA-in, DMA-out and SVC slots of a bank are free, by bank × 8 + owner; the service ports of
  the buffer windows count as banks 128 and 129 (R21, R177) -/
  slotFree : SMap Nat := []
  repBank : Nat := 0
  repRow : Nat := 0
  /-- the bank and row of the repair copy that runs -/
  repCopy : Nat × Nat := (0, 0)
  repBusy : Bool := false
  repOk : Bool := false
  repNoSpare : Bool := false
  /-- rows that stand on a spare: bank and row -/
  repaired : List (Nat × Nat) := []
deriving DecidableEq, Repr, Inhabited

/-- What caused an error: the context, the tag, the position that issued the tag when it is another's, and the host
descriptor if one caused it (R403). -/
structure Cause where
  ctx : Option Ctx := none
  tag : Nat := 0
  src : Option Nat := none
  ring : Option Nat := none
  hostSeq : Nat := 0
  /-- the host_tag of a WAIT descriptor, which its event record carries (R349, R350) -/
  waitTag : Option Nat := none
deriving DecidableEq, Repr, Inhabited

/-! ### Pennants and hoists (11) -/

/-- Who waits on a pennant (R246, R255). -/
inductive Waiter where
  | ctx (c : Ctx)
  | host (ring : Nat) (seq : Nat) (hostTag : Nat) (block : Bool)
deriving DecidableEq, Repr, Inhabited

/-- A pennant wait held by the pennant unit, in order of arrival (R246–R250). -/
structure PWait where
  who : Waiter
  pennant : Nat
  take : Bool
  value : Nat
  /-- the wall time at which the timeout expires -/
  due : Option Nat
  act : Bool
  pred : Nat
  tag : Nat
  /-- the EC from which the unit sees it -/
  at_ : Nat
  /-- the AC from which it is withdrawn, while an evaluation of an earlier AC is still due (R248) -/
  gone : Option Nat := none
deriving DecidableEq, Repr, Inhabited

/-- An update of a pennant (R244, R245): the place of its kind in the order of an AC, 0 ADD, 1 SUB, 2 SET, the value, and the
count that the pennant had before the updates of the AC. -/
structure PUpd where
  cls : Nat
  p : Nat
  op : Nat
  v : Nat
  cause : Cause
  base : Nat
deriving DecidableEq, Repr, Inhabited

/-- The state of a hoist (R267). -/
inductive HState where
  | open_ | sent | aborted
deriving DecidableEq, Repr, Inhabited

/-- A local waiter of a hoist: its epoch (false for n, true for n + 1) and its timer (R259–R261). -/
structure HWait where
  ctx : Ctx
  next : Bool
  due : Option Nat
  start : Nat
  act : Bool
  pred : Nat
  tag : Nat
deriving DecidableEq, Repr, Inhabited

/-- A hoist (R256, R257, R267). -/
structure Hoist where
  mask : Nat := 0
  childCount : Nat := 0
  childBase : Nat := 0
  root : Bool := false
  abortOnTimeout : Bool := true
  notify : Bool := false
  enable : Bool := false
  parent : Nat := 0
  timeoutUs : Nat := 0
  parity : Bool := false
  st : HState := .open_
  /-- why it aborted: 0 timeout, 1 thermal, 2 message (R405) -/
  cause : Nat := 0
  marksN : Nat := 0
  marksN1 : Nat := 0
  /-- the child positions (from the child base) whose arrival bit is set in n, and in n + 1 -/
  childN : List Nat := []
  childN1 : List Nat := []
  entered : Nat := 0
  overrun : Bool := false
  closed : Nat := 0
  waiters : List HWait := []
deriving DecidableEq, Repr, Inhabited

/-- A SYN.HOIST on its way to the hoist unit (R28, R259): the AC in which it arrives, its mode (0 ARRIVE_WAIT, 1 ARRIVE, 2 WAIT),
and whether its context has stopped meanwhile. -/
structure HEnt where
  ctx : Ctx
  ac : Nat
  hoist : Nat
  mode : Nat
  act : Bool
  pred : Nat
  tag : Nat
  gone : Bool := false
deriving DecidableEq, Repr, Inhabited

/-- Which buffer of the outbound halyard a message waits in (R252): a context's, or the hoist unit's and the host's. -/
structure OutMsg where
  owner : Option Ctx
  /-- the host SIGNAL descriptor that completes when the message leaves -/
  host : Option HostRef
  msg : HalMsg
  /-- the AC in which it enters the buffer (R251, R252) -/
  start : Nat := 0
deriving DecidableEq, Repr, Inhabited

/-- The SYN block (R267). -/
structure SynSt where
  count : SMap Nat := []
  ovf : List Nat := []
  unf : List Nat := []
  waits : List PWait := []
  /-- the updates that have reached the unit in AC `updAc` (R245) -/
  updAc : Nat := 0
  upds : List PUpd := []
  /-- what comes about at the end of an AC, in ascending order: the AC, and what, by number: the evaluation of a pennant (R247),
  beyond them the completion of a hoist's epoch, the entry of a context into a hoist and the start of a SYN.SIGNAL -/
  evals : List (Nat × Nat) := []
  /-- the entries of contexts into hoists that are on their way (R28, R259) -/
  ents : List HEnt := []
  timeouts : Nat := 0
  msgsOut : Nat := 0
  msgsIn : Nat := 0
  crcDrops : Nat := 0
  unkDrops : Nat := 0
  hoists : SMap Hoist := []
  child : SMap Nat := []
  out : List OutMsg := []
  /-- the first AC in which the pennant unit takes another signal (R33) -/
  unitFree : Nat := 0
deriving DecidableEq, Repr, Inhabited

/-! ### What leaves the core (20) -/

/-- One thing the core sends through a port: the model's record of it, for observers outside.
DESIGN CHOICE: log 10. -/
inductive OutEv where
  | halyard (m : HalMsg)
  | link (port : Port) (p : Packet)
  /-- credit pulses of a port's channel, one in an EC (R326, R415) -/
  | credits (port : Nat) (vc : VChan) (n : Nat)
  /-- a host-bus read request -/
  | hostRead (tag addr n : Nat)
  /-- a host-bus write -/
  | hostWrite (addr : Nat) (bs : List W8)
  /-- the answer to a host-window read; none of its bytes on an error -/
  | window (err : Bool) (bs : List W8)
  | smRead (tag addr : Nat)
  | smWrite (tag addr : Nat) (bs : List W8)
  /-- a trace record on the TS_ signals -/
  | traceOut (ws : List Nat)
  /-- a tap frame to the Bezel -/
  | tap (bs : List W8)
  /-- the Bezel's answer on the management port -/
  | report (bs : List W8)
  /-- a bring-up command to a part -/
  | dev (ch cmd data : Nat)
  /-- a read of n bytes from an offset of a target of the management bus (R433) -/
  | boardRead (target off n : Nat)
  /-- the reads of a firmware image from a host address (R436) -/
  | fwRead (addr : Nat)
deriving DecidableEq, Repr, Inhabited

/-! ### Errors and trace (19) -/

/-- A slot of the error log that is not FREE (R402, R403). -/
structure LogEntry where
  slot : Nat
  number : Nat
  code : Nat
  sev : Nat
  cause : Cause
  rep : Nat
  ecTime : Nat
  wallUs : Nat
  detail : List Nat
deriving DecidableEq, Repr, Inhabited

/-- A trace record before it is laid out (R406). -/
structure TraceRec where
  kind : Nat
  ctx : Option Ctx := none
  opcode : Nat := 0
  tag : Nat := 0
  time : Nat
  argA : Nat := 0
  argB : Nat := 0
  /-- the severity of the entry of a FAULT record (R407) -/
  sev : Nat := 0
deriving DecidableEq, Repr, Inhabited

/-- The part of the log that the order of placement decides (R402). -/
structure LogPart where
  log : List LogEntry := []
  active : Option Nat := none
  lost : Nat := 0
  nextNumber : Nat := 0
  held : Nat := 0
deriving DecidableEq, Repr, Inhabited

/-- The ERR block (R402–R408). -/
structure ErrSt where
  /-- the entries of the present EC in the order in which they are placed, each with its choice of a slot; the log before them;
  the numbers of their event records (R402) -/
  news : List (LogEntry × Nat) := []
  was : LogPart := {}
  newEvs : List Nat := []
  /-- the trace records of the present EC in their order (R406) -/
  trcWait : List TraceRec := []
  /-- the slots that are not FREE, in order of placement -/
  log : List LogEntry := []
  /-- the slot of the ACTIVE entry -/
  active : Option Nat := none
  lost : Nat := 0
  counts : SMap Nat := []
  nextNumber : Nat := 0
  ringMinSev : Nat := 1
  outMinSev : Nat := 3
  /-- the severity the outputs hold once they have shown core or fatal -/
  held : Nat := 0
  trcEnable : Bool := false
  trcSink : Nat := 0
  trcFrozen : Bool := false
  trcStopSev : Nat := 0
  trcPost : Nat := 256
  trcLeft : Option Nat := none
  trcKinds : Nat := 0x0FFE
  trcCtxs : Nat := 0xFF
  trcBase : Nat := 0
  trcSize : Nat := 0
  trcIndex : Nat := 0
  trcWrapped : Bool := false
  trcRingPos : Nat := 0
  trcLost : Nat := 0
  /-- records dropped since the last LOST record -/
  trcOwed : Nat := 0
  /-- the EC of the records last offered, and how many it has accepted -/
  trcEc : Nat := 0
  trcInEc : Nat := 0
  trcBuf : SMap (List Nat) := []
  /-- records on their way to the trace port or the external ring -/
  trcQ : List (List Nat) := []
deriving DecidableEq, Repr, Inhabited

/-! ### Host rings (15) -/

/-- A submission ring (R341, R342, R352). -/
structure SRing where
  base : Nat := 0
  log2 : Nat := 4
  en : Bool := false
  tail : Nat := 0
  head : Nat := 0
  halted : Bool := false
  reason : Nat := 0
  expect : Nat := 0
  /-- the descriptor at head that the core has fetched and that waits for its start condition -/
  held : Option (List Nat) := none
  /-- started descriptors that have not completed (COPY, SIGNAL, WAIT, SNAPSHOT) -/
  busy : List HostRef := []
deriving DecidableEq, Repr, Inhabited

/-- A completion or event ring (R352). -/
structure CRing where
  base : Nat := 0
  log2 : Nat := 4
  head : Nat := 0
  tail : Nat := 0
deriving DecidableEq, Repr, Inhabited

/-- A record that waits to be written: its number and its eight words (R343, R344, R350). -/
structure HRec where
  number : Nat
  words : List Nat
deriving DecidableEq, Repr, Inhabited

/-- The HST block (R352). -/
structure HstSt where
  enable : Bool := false
  nextOut : Nat := 0
  lost : Nat := 0
  /-- events dropped and not yet reported, and the number of the first of them -/
  ovCount : Nat := 0
  ovFirst : Nat := 0
  cq : CRing := {}
  eq_ : CRing := {}
  cqQ : List HRec := []
  eqQ : List HRec := []
  /-- completions that found the queue full: their records are produced when it has room (R351) -/
  late : List (List Nat) := []
  /-- the ring that is served next (R345) -/
  turn : Nat := 0
  rings : SMap SRing := []
deriving DecidableEq, Repr, Inhabited

end Sys2Proof.Machine
end

