-- ==== Sys2Proof/Machine/PartsOuter.lean ====
section
/-!
DEFINITION. The parts of the state outside the timed engines: the external memory unit (13), transfers in progress and
arrivals (08, 13), the link ports (14), health, snapshot and fill (16), clocks and power (17), the Bezel (18), the filtered
inputs (20) and the settings store (21). Every part is plain data.
-/
namespace Sys2Proof.Machine

/-! ### External memory unit (13) -/

/-- The state of a block (R289). -/
inductive BState where
  | unsealed | sealed_ | retired
deriving DecidableEq, Repr, Inhabited

/-- A directory entry (R289). -/
structure DirEnt where
  crc : Nat := 0
  st : BState := .unsealed
  exempt : Bool := false
  dirty : Bool := true
  chan : Nat := 0
  blk : Nat := 0
  /-- the entry has an uncorrectable error in the SRAM (R292) -/
  upset : Bool := false
deriving DecidableEq, Repr, Inhabited

/-- The state of a channel (R311). -/
inductive ChanSt where
  | active | training | mappedOut | absent
deriving DecidableEq, Repr, Inhabited

/-- An entry of a channel's remap table (R307): the spare row is counted from the lowest spare row of its bank. -/
structure Remap where
  bank : Nat
  row : Nat
  spare : Nat
  gen : Nat
deriving DecidableEq, Repr, Inhabited

/-- One channel (R311, R312, R317). -/
structure ChanRec where
  st : ChanSt := .absent
  fails : Nat := 0
  phyRdy : Bool := false
  /-- it is TRAINING for its PHY alone (R417) -/
  phyOnly : Bool := false
  /-- link_retries, and the errors the part reports as corrected -/
  retries : Nat := 0
  ce : Nat := 0
  remaps : SMap Remap := []
  /-- spare rows marked bad: bank and spare -/
  bad : List (Nat × Nat) := []
  /-- retries of writes that failed the part's check, by line of the channel (R304) -/
  wTries : SMap Nat := []
  /-- who wrote each line of the channel last, as it drained (R404) -/
  writers : SMap Cause := []
  /-- accesses of the present window of 64, and those of them of bulk and of background class (R306) -/
  winAll : Nat := 0
  winBulk : Nat := 0
  winBg : Nat := 0
deriving DecidableEq, Repr, Inhabited

/-- A remap copy that runs or waits (R309), with the lines drained to its row while it runs: they stand in the spare too; and
the bits that the failed row gives wrong, which are open where host software asked for the remap. -/
structure RemapCopy where
  ch : Nat
  bank : Nat
  row : Nat
  spare : Nat
  drained : List Nat := []
  errs : Option (List W8) := none
deriving DecidableEq, Repr, Inhabited

/-- Who caused a transfer: what faults of it name (R403). -/
abbrev Blame := Cause

/-- What waits for data to land: nothing; a flit of a port's inbound buffer, by port, channel and the count of the port's UPs when
it came (R326, R415); or a read of the XMU, by its number, narrow or not (R220). -/
inductive Hold where
  | none
  | flit (port : Nat) (vc : VChan) (ups : Nat)
  | read (k : Nat) (narrow : Bool)
deriving DecidableEq, Repr, Inhabited

/-- A line of the write-combining buffer (R302): its physical line number, its block, its written bytes, the EC of its last
write, its writer. -/
structure WcbLine where
  pl : Nat
  blk : Nat
  bytes : List (Option W8)
  last : Nat
  blame : Blame
deriving DecidableEq, Repr, Inhabited

/-- A block in sealing, or sealed and still being written by the same writer (R293): the writer and the 4-byte words it has
written, one bit each. -/
structure Sealing where
  writer : Nat
  got : Nat
deriving DecidableEq, Repr, Inhabited

/-- The XMU block (R284–R317). -/
structure XmuSt where
  populated : Bool := false
  clamshell : Bool := false
  density : Nat := 0
  rate : Nat := 0
  partTemp : Bool := false
  partRepair : Bool := false
  /-- the bytes of the parts by physical line and byte; `gen` counts the losses of their contents -/
  ext : SMap W8 := []
  gen : Nat := 0
  dir : SMap DirEnt := []
  sealing : SMap Sealing := []
  wcb : List WcbLine := []
  chans : SMap ChanRec := []
  copies : List RemapCopy := []
  rqChan : Nat := 0
  rqBank : Nat := 0
  rqRow : Nat := 0
  rqResult : Nat := 0
  unchecked : Nat := 0
  crcFaults : Nat := 0
  warm : Nat := 85
  hot : Nat := 95
  crit : Nat := 105
  hyst : Nat := 3
  step : Nat := 0
  temp : Nat := 0
  critSeen : Bool := false
  bulkMin : Nat := 4
  bgMin : Nat := 2
  advisoryUs : Nat := 2000
  /-- the wall time of the next THERMAL_ADVISORY while HOT (R315) -/
  advDue : Option Nat := none
  dirIndex : Nat := 0
  mapRefused : Bool := false
  devChan : Nat := 0
  devCmd : Nat := 0
  devData : Nat := 0
  riChan : Nat := 0
  riEntry : Nat := 0
  /-- the temperature input: its last reading and the wall time of its last strobe (R420, R422) -/
  mtemp : Option Nat := none
  mtempAt : Nat := 0
  mtempStuck : Bool := false
  mtempMasked : Bool := false
deriving DecidableEq, Repr, Inhabited

/-! ### Transfers -/

/-- What a transfer is. -/
inductive JKind where
  | read | write | gather | smRead | smWrite | claim | fetch | release
  | lnkWrite | lnkRead
  /-- an inbound WRITE packet -/
  | linkIn
  /-- an inbound READ_REQ being served -/
  | serve
  | copy
deriving DecidableEq, Repr, Inhabited

/-- A line or sector read that is outstanding (R304): physical line, logical block, the first byte in the line and the number
of bytes it delivers, where they go (none for a line read only for a check), whether it is a sector, its retries, whether it
waits for its channel since they ran out. -/
structure Rd where
  pl : Nat
  blk : Nat
  off : Nat
  n : Nat
  dst : Option Nat
  narrow : Bool
  tries : Nat
  waits : Bool := false
deriving DecidableEq, Repr, Inhabited

/-- A block that a read touches (R294): whether it was SEALED when its first line was requested, the stored CRC, the lines
requested and the lines returned, whether a writer's line came between, and whether its entry could not be read (R292). -/
structure Chk where
  blk : Nat
  sealed : Bool
  crc : Nat
  asked : Nat
  lines : SMap (List W8)
  race : Bool
  done : Bool
  bad : Bool := false
deriving DecidableEq, Repr, Inhabited

/-- A transfer in progress. -/
structure Job where
  id : Nat
  kind : JKind
  ctx : Nat
  blame : Blame := {}
  prio : Nat := 1
  pennant : Nat := 0
  incr : Nat := 0
  comb : Nat := 0
  /-- the command's words, the descriptor's words or the packet's header words -/
  words : List Nat := []
  /-- the next row to request and the next byte in it -/
  row : Nat := 0
  col : Nat := 0
  /-- the external address of a gather's present row, from its index (R297) -/
  base : Nat := 0
  /-- the granules of an XDMA.WRITE that the XMU has accepted, of those that a reader has come upon (R271) -/
  early : List Nat := []
  verify : Bool := false
  out : List Rd := []
  chks : List Chk := []
  /-- shared-memory or host reads and writes, or packets, not yet answered -/
  acks : Nat := 0
  withheld : Bool := false
  faulted : Bool := false
  /-- it requests nothing more; a mismatch of a block does not keep the other blocks from landing (R295) -/
  halted : Bool := false
  /-- every granule of an inbound packet has landed, and its increment waits for earlier packets (R333) -/
  landed : Bool := false
  port : Nat := 0
  host : Option HostRef := none
  bytes : Nat := 0
  /-- bytes collected for a remote reader or for host memory -/
  buf : SMap W8 := []
  /-- why an inbound packet or a served read is refused; 0 while it is not -/
  status : Nat := 0
  /-- the place that its packet keeps in a port's inbound buffer (R326) -/
  hold : Hold := .none
deriving DecidableEq, Repr, Inhabited

/-- An arrival on its way to a bank or a window: one granule, its enabled bytes, its combine code, its transfer (R183). -/
structure Arr where
  gran : Nat
  bs : List (Option W8)
  comb : Nat
  job : Nat
  /-- the span of the atomic that took its pending result and writes it (R158) -/
  carrier : Option Nat := none
  /-- what waits until it has landed (R21) -/
  hold : Hold := .none
deriving DecidableEq, Repr, Inhabited

/-- A write into external memory of which the XMU has accepted only some units of 64 bytes (R271, R293): its transfer, its writer,
whom its faults name, its external address, its bytes, and the units accepted, by number. -/
structure LateW where
  job : Nat
  writer : Nat
  blame : Blame
  a : Nat
  bs : List W8
  got : List Nat := []
deriving DecidableEq, Repr, Inhabited

/-- What an outbound host read is for (R414). -/
inductive HUse where
  | desc (ring : Nat)
  /-- 64 bytes at this offset of a COPY -/
  | copy (job : Nat) (off : Nat)
  /-- a descriptor that its ring does not want any more -/
  | stale
deriving DecidableEq, Repr, Inhabited

/-- What an outstanding shared-memory request is for: a read's destination, or a write. -/
structure SmReq where
  job : Nat
  dst : Option Nat
deriving DecidableEq, Repr, Inhabited

/-- Transfers, arrivals and outstanding host and shared-memory requests. -/
structure XferSt where
  jobs : List Job := []
  nextJob : Nat := 0
  arrivals : List Arr := []
  hreads : SMap HUse := []
  sm : SMap SmReq := []
  /-- writes into external memory that the XMU has not accepted whole, oldest first (R271) -/
  late : List LateW := []
  /-- the number of the next read of the XMU -/
  nextRead : Nat := 0
deriving DecidableEq, Repr, Inhabited

/-! ### Link ports (14) -/

/-- A request packet sent and not answered: its transfer, its sends and the wall time of the last one; `due` while it waits
to be sent again (R328–R330). -/
structure OutPkt where
  pkt : Packet
  job : Nat
  sends : Nat
  sentAt : Nat
  due : Bool
deriving DecidableEq, Repr, Inhabited

/-- What the core grants the fabric of one channel of a port (R326, R415): the credits that the fabric holds, those that the core
has still to return, one in an EC, and the EC up to which it has. -/
structure Grant where
  held : Nat := 0
  back : Nat := 0
  at_ : Nat := 0
deriving DecidableEq, Repr, Inhabited

/-- A request packet in a port's inbound buffer, with the place it keeps there: one that turned round inside keeps none (R326,
R335). -/
structure InPkt where
  pkt : Packet
  hold : Hold := .none
deriving DecidableEq, Repr, Inhabited

/-- A link port (R318–R338). -/
structure PortSt where
  ready : Bool := false
  up : Bool := false
  cr : Credits := ⟨0, 0, 0⟩
  /-- the core's grants, and how often the port has come UP (R415) -/
  gReq : Grant := {}
  gRsp : Grant := {}
  gSnp : Grant := {}
  ups : Nat := 0
  /-- commands whose request packets are not all sent, in order -/
  jobs : List Nat := []
  rsp : List Packet := []
  snp : List Packet := []
  outW : List OutPkt := []
  outR : List OutPkt := []
  outS : List OutPkt := []
  seq : Nat := 0
  /-- SNP goes before REQ next (R326) -/
  turn : Bool := false
  frozen : Bool := false
  /-- the REQ packets of the inbound buffer that are not handled yet (R333, R337) -/
  heldIn : List InPkt := []
  pktsOut : Nat := 0
  pktsIn : Nat := 0
  resends : Nat := 0
  crcBad : Nat := 0
  timeouts : Nat := 0
  refusals : Nat := 0
  unknown : Nat := 0
deriving DecidableEq, Repr, Inhabited

/-- The LNK block. -/
structure LnkSt where
  en0 : Bool := false
  en1 : Bool := false
  timeoutUs : Nat := 10000
  ports : SMap PortSt := []
  /-- inbound commands of which a granule was lost: source position, source port, tag (R333) -/
  lostCmds : List (Nat × Nat × Nat) := []
  /-- their WRITE packets discarded for their CRC and not come again: command and number (R329) -/
  crcLost : List ((Nat × Nat × Nat) × Nat) := []
  /-- inbound commands whose last packet has been handled and of which a packet is still to come -/
  tails : List (Nat × Nat × Nat) := []
deriving DecidableEq, Repr, Inhabited

/-! ### Health, snapshot, fill (16) -/

/-- The health monitor (R353, R354). -/
structure HealthSt where
  risk : Nat := 0
  /-- the event is held for its floor (R354) -/
  pending : Bool := false
  /-- it is held for a stop, with its reason (R357) -/
  stopHeld : Option Nat := none
  advised : Bool := false
  thresh : Nat := 32768
  decay : Nat := 6
  marginRef : Nat := 10
  wCmem : Nat := 4
  wXmu : Nat := 16
  wLnk : Nat := 8
  wDroop : Nat := 64
  wTherm : Nat := 256
  /-- the running counts at the last sample -/
  cmem : Nat := 0
  xmu : Nat := 0
  lnk : Nat := 0
  droop : Nat := 0
  minS : Nat := 600
  maxS : Nat := 0
  /-- the wall time of the last completed snapshot, or of reset -/
  lastAt : Nat := 0
deriving DecidableEq, Repr, Inhabited

/-- The on-chip state a freeze record holds (R358). -/
structure Frozen where
  ctxs : SMap CtxSt := []
  stash : SMap Stash := []
  sct : SMap Sct := []
  count : SMap Nat := []
  ovf : List Nat := []
  unf : List Nat := []
  hoists : SMap Hoist := []
  child : SMap Nat := []
  active : MapSet := ⟨[], []⟩
  staged : MapSet := ⟨[], []⟩
  partBase : SMap Nat := []
  partSize : SMap Nat := []
  resident : List Nat := []
  mxeOwner : Nat := 0
  mxeValid : Bool := false
  vxeOwner : Nat := 0
  vxeValid : Bool := false
  /-- the size of the buffer windows (R176) -/
  hier : Bool := false
  mxe : Option (Nat × MxeSave) := none
  /-- what the save areas in the contexts' partitions hold (R225) -/
  saved : SMap (Option MxeSave) := []
deriving DecidableEq, Repr, Inhabited

/-- A snapshot in progress (R355–R362). -/
structure SnapSt where
  /-- 0 idle, 1 quiesce, 2 freeze, 3 stream or close -/
  phase : Nat := 0
  host : Option HostRef := none
  mask : Nat := 0
  full : Bool := false
  store : Nat := 0
  /-- contexts that it asked to pause -/
  paused : List Nat := []
  due : Nat := 0
  stopAt : Nat := 0
  frozen : Frozen := {}
  dir : SMap DirEnt := []
  /-- the block numbers of the block segment -/
  blocks : List Nat := []
  header : List Nat := []
  total : Nat := 0
  sent : Nat := 0
  acked : Nat := 0
  lastStatus : Nat := 0
  stopUs : Nat := 0
  mib : Nat := 0
  freezeBlk : Nat := 0
  port : Nat := 0
  quiesceMs : Nat := 100
  seq : Nat := 0
deriving DecidableEq, Repr, Inhabited

/-- A fill in progress or ended (R363–R367). -/
structure FillSt where
  /-- 0 idle, 1 filling, 2 done, 3 aborted -/
  st : Nat := 0
  reason : Nat := 0
  srcChip : Nat := 0
  srcCore : Nat := 0
  timeoutMs : Nat := 100
  /-- bytes of the current stream received, and the wall time of the last packet -/
  off : Nat := 0
  lastAt : Nat := 0
  /-- the bytes of the current stream up to its block segment, and those of the last stream accepted -/
  pre : List W8 := []
  last : List W8 := []
  /-- bytes of the block segment that wait for room in the write-combining buffer: external address, bytes, and the place of
  their packet in the port's inbound buffer, with its flits, at the last of them -/
  late : List (Nat × List W8 × Hold × Nat) := []
  /-- finish has been written, and it waits for those bytes (R365) -/
  finishing : Bool := false
  streams : Nat := 0
  seq : Nat := 0
deriving DecidableEq, Repr, Inhabited

/-- The RSL block. -/
structure RslSt where
  health : HealthSt := {}
  snap : SnapSt := {}
  fill : FillSt := {}
  /-- the model's record of what the core has frozen, for the streams that come back to it (R358, R365) -/
  made : List Frozen := []
deriving DecidableEq, Repr, Inhabited

/-! ### Clocks and power (17) -/

/-- The PWR block (R372–R382). -/
structure PwrSt where
  pllLock : Bool := true
  held : Bool := false
  /-- the wall time of the last change of the droop request -/
  heldAt : Nat := 0
  /-- the wall time of the last assertion of the droop signal -/
  droopAt : Nat := 0
  persist : Bool := false
  thermal : Bool := false
  limitCode : Nat := 0
  tripped : Bool := false
  /-- the EC of the trip, in which the engines' clocks stop (R378) -/
  tripEc : Nat := 0
  /-- the trip output (R373, R378, R399) -/
  tripOut : Bool := false
  droopFactor : Nat := 2
  detEn : Bool := true
  extEn : Bool := true
  detMv : Nat := 40
  episodes : Nat := 0
  dieTemp : Nat := 0
  margin : Nat := 0
  throttle : Nat := 100
  trip : Nat := 115
  hyst : Nat := 3
  thermFactor : Nat := 1
  limit : Nat
  /-- the estimates of the last 16 µs, newest first -/
  hist : List Nat := []
  /-- consecutive estimates above the limit, and below 96% of it -/
  above : Nat := 0
  below : Nat := 0
  mxeCg : Bool := true
  vxeCg : Bool := true
  pinCg : Bool := true
  hystAc : Nat := 16
  mxeGated : Bool := false
  vxeGated : Bool := false
  pinsGated : List Nat := []
  /-- the AC in which the last command of the MXE group (0), of the VXE (1), of pinion p (2 + p) was done (R380) -/
  lastBusy : SMap Nat := []
  /-- the AC in which the last command for pinion p issued (R380) -/
  wakeAt : SMap Nat := []
  /-- active AC since the last estimate of the array (0), the VXE (1), the pinions (2); the AC of that estimate (R379) -/
  active : SMap Nat := []
  estAc : Nat := 0
  /-- the wall time of the last change of the effective factor -/
  stepAt : Nat := 0
deriving DecidableEq, Repr, Inhabited

/-! ### Inputs (20) -/

/-- An outside event input (R420–R423). -/
structure EvtIn where
  pennant : Nat := 0
  en : Bool := false
  stuckMs : Nat := 100
  /-- the filtered level as it is known -/
  level : Bool := false
  /-- a high level lasts at least through this service cycle -/
  heldTo : Nat := 0
  /-- the first service cycle in which an assertion can be accepted -/
  armAt : Nat := 0
  stuck : Bool := false
  masked : Bool := false
  count : Nat := 0
  /-- the wall time of the last accepted assertion -/
  since : Nat := 0
deriving DecidableEq, Repr, Inhabited

/-! ### Settings store (21) -/

/-- A STORE in progress: the words of the target copy but its crc word, and that word (R431). -/
structure StoreRun where
  image : SMap Nat
  crc : Nat
deriving DecidableEq, Repr, Inhabited

/-- The NVS block (R424–R437): the two copies of the companion macro (an unlisted word is erased), the staging image (an
unlisted word is 0), and the board record as read. -/
structure NvsSt where
  copy0 : SMap Nat := []
  copy1 : SMap Nat := []
  current : Nat := 1
  staging : SMap Nat := [(0, 1), (2, 0x142)]
  store : Option StoreRun := none
  storePending : Bool := false
  lastOk : Bool := false
  lost : Bool := false
  copyBad : Bool := false
  boardBad : Bool := false
  auto_ : Bool := true
  phase : Nat := 8
  fwLo : Nat := 0
  fwHi : Nat := 0
  fwBusy : Bool := false
  fwResult : Nat := 0
  /-- the image in the firmware store; none: what phase 2 loads from mask ROM -/
  fwStore : Option (List W8) := none
  board : List W8 := []
  /-- SRAM self-test failed beyond repair (R426) -/
  bistFail : Bool := false
deriving DecidableEq, Repr, Inhabited

/-! ### The Bezel (18) -/

/-- A seal-log entry (R395). -/
structure SealEnt where
  kind : Nat
  epoch : Nat
  seq : Nat
  detail : Nat
deriving DecidableEq, Repr, Inhabited

/-- The mirror of a Bezel in the core (R384, R398): what the publish path wrote last. A core reset clears it. -/
structure BezelMirror where
  gen : Nat := 0
  live : List W8 := []
  report : List W8 := []
  epoch : Nat := 0
  /-- the number of the last signed report -/
  seq : Nat := 0
  tapErrors : Nat := 0
  retired : Bool := false
  log : List SealEnt := []
  cert : List W8 := []
  /-- the wall time of the last publish -/
  at_ : Option Nat := none
deriving DecidableEq, Repr, Inhabited

/-- The Bezel meter (R383–R398). Counters 0 to 10 are mac_units_f, 11 to 18 vxe_elems to lnk_rx. -/
structure BezelSt where
  powered : Bool := true
  epoch : Nat := 1
  seq : Nat := 0
  /-- the wall time of the power-up -/
  upAt : Nat := 0
  counters : SMap Nat := []
  last : SMap Nat := []
  /-- the next accepted frame is a new baseline -/
  rebase : Bool := true
  lastFrame : Nat := 0
  position : Nat := 0
  /-- the energy integrated in the epoch (R385, R388), in units of 40 fJ: one period of the reference at 1 µW -/
  energy : Nat := 0
  outOfRange : Bool := false
  tapGap : Bool := false
  coreReset : Bool := false
  tapErrors : Nat := 0
  calId : Nat := 0
  fw : Nat := 0
  log : List SealEnt := []
  retired : Bool := false
  interval : Nat := 60
  /-- the wall time of the last periodic report or change of interval -/
  since : Nat := 0
  /-- the wall time of the last signed report -/
  signedAt : Option Nat := none
  /-- the number of the latest signed report in the epoch is `seq`; its bytes -/
  latest : List W8 := []
  /-- which Bezel instance is on the taps (R397) -/
  unit : Nat := 0
  /-- the sample, in periods of the reference since the power-up, up to which the energy is integrated -/
  sensed : Nat := 0
  /-- the mirror in the core's register window -/
  mirror : BezelMirror := {}
deriving DecidableEq, Repr, Inhabited

/-- The core's own tap totals (R389, R385), frames sent, and whether the next frame is the first after reset. -/
structure TapSt where
  tot : SMap Nat := []
  frames : Nat := 0
  first : Bool := true
deriving DecidableEq, Repr, Inhabited

/-! ### Values a reset takes from the grade -/

/-- The default set of a grade (R175, R194). -/
def defaultMaps (g : Grade) : MapSet :=
  match g with
  | .max =>
    ⟨[0x6312413153124131, 0x6312413153124131, 0x6312413153124131, 0x6312413153124131], List.replicate 8 0⟩
  | .standard =>
    ⟨[0x6312413153124131, 0x6512412154124121, 0x6312413153124131, 0x6312413153124131],
      List.replicate 8 0x44444444⟩
  | .lean =>
    ⟨[0x6112415151124141, 0x6112415151124141, 0x6112415151124141, 0x6112415151124141], List.replicate 8 0⟩

/-- The peak power of a grade in mW, entry 24 of the size table: the reset value of the power limit (R13, R382). -/
def peakMw (g : Grade) : Nat :=
  match g with
  | .max => 58000 | .standard => 51000 | .lean => 39000

end Sys2Proof.Machine

namespace Sys2Proof.Config

/-- The bytes of a context's save area that hold its MXE state (R225: the manual gives their number, not their layout).
DESIGN CHOICE: log 23. -/
opaque saveBytes : Machine.MxeSave → List W8

/-- The MXE state that a save area holds whose bytes are none that a switch has written.
DESIGN CHOICE: log 23. -/
opaque loadSaved : List W8 → Machine.MxeSave

/-- The control state of a freeze record, 256 KiB at 0 (R358 gives its size and contents, not its layout).
DESIGN CHOICE: log 83. -/
opaque controlBytes : Machine.Frozen → List W8

/-- The MXE state of a freeze record, 2,816 KiB at 0x04_0000, with the owner's number (R358).
DESIGN CHOICE: log 83. -/
opaque mxeBytes : Option (Nat × Machine.MxeSave) → List W8

/-- The control and MXE state that 3 MiB of a freeze record hold which this core has not written.
DESIGN CHOICE: log 83. -/
opaque thaw : List W8 → Machine.Frozen

/-- What the core's contexts, pennants, hoists and maps hold after a fill has been aborted (R364: undefined).
DESIGN CHOICE: log 84. -/
opaque abortedState : (id : Nat) → Machine.Frozen

/-- What the command and affine stores, the directory and the MXE hold after a fill has been aborted (R364).
DESIGN CHOICE: log 84. -/
opaque abortedStores : (id : Nat) → Machine.SMap Slot × Machine.SMap (List Nat)
/-- The directory.
DESIGN CHOICE: log 84. -/
opaque abortedDir : (id : Nat) → Machine.SMap Machine.DirEnt
/-- The MXE.
DESIGN CHOICE: log 84. -/
opaque abortedMxe : (id : Nat) → Machine.MxeSt

/-- What core memory holds after a fill has been aborted (R364).
DESIGN CHOICE: log 84. -/
opaque abortedMem : (id : Nat) → List W8

end Sys2Proof.Config
end

