-- ==== Sys2Proof/Machine/State.lean ====
section
/-!
DEFINITION. The state of the block, its faults and refusals, and the state right after reset.
-/
namespace Sys2Proof.Machine

/-- Why the block stops. No command that the spec gives an effect stops. -/
inductive Fault where
  /-- Raised by a row of an engine or scalar command whose slot holds the opcode or operation of another row: the command
  is ill formed and no hardware event corresponds to it. Safe. -/
  | notThisRow
deriving DecidableEq, Repr

/-- Why the block refuses a command. -/
inductive Refusal where
  /-- No meaning has been given to the command of this mnemonic. Safe. -/
  | notModelled (mnemonic : String)
deriving DecidableEq, Repr

/-- The whole state.
DESIGN CHOICE: log 10. -/
structure State where
  /-- the commands that wait, first in, first out -/
  pending : List Instr := []
  /-- the grade fuse (R13) -/
  grade : Grade := .max
  /-- the rows, by bank and row, that the fuses put on spare rows at manufacture (R192) -/
  fuseRows : List (Nat × Nat) := []
  /-- the EC of the latest event (R18), and the wall time in twenty-fourths of an unstretched EC (R38) -/
  ec : Nat := 0
  wall : Nat := 0
  /-- the wall time of the end of the last core reset (R403, R424) -/
  resetAt : Nat := 0
  /-- the effective stretch factor code (R374) -/
  factor : Nat := 0
  /-- isolated (R368) -/
  isolated : Bool := false
  /-- core resets so far, for the entropy source -/
  resets : Nat := 0
  /-- the model's own counter of free values -/
  free : Nat := 0
  /-- what the core has sent, oldest first -/
  out : List OutEv := []
  /-- the position identity: chip [13:0], core [21:14] (R320, R338) -/
  pos : Nat := 0
  /-- the position-alias table: match word and target (R321, R338) -/
  alias_ : SMap (Nat × Nat) := []
  -- escapement (09)
  dispatched : Option Ctx := none
  switching : Bool := false
  /-- the context that a switch leaves, until its commands have left the engines (R225, steps 1 and 2) -/
  switchFrom : Option Ctx := none
  /-- the context that a switch goes to, and the AC of step 3 (R225) -/
  switchTo : Option Ctx := none
  switchAc : Nat := 0
  /-- the context that was dispatched last -/
  lastDisp : Option Ctx := none
  quantumUs : Nat := 1000
  slips : Nat := 0
  switches : Nat := 0
  lastSwitchAc : Nat := 0
  dispatchedAt : Nat := 0
  quantumOver : Bool := false
  ctxs : SMap CtxSt := []
  code : SMap Slot := []
  aff : SMap (List Nat) := []
  queues : SMap (List QEnt) := []
  /-- the AC in which the head of each queue became its head: commands of one queue start in queue order (R28) -/
  headAt : SMap Nat := []
  runs : List Run := []
  /-- the spans of running commands over granules, by number (R29) -/
  spans : SMap Span := []
  -- core memory (08)
  mem : List Host.Cell := []
  ecc : SMap Nat := []
  banks : SMap Bank := []
  cm : CmemCtl
  -- engines (03 to 07)
  mxe : MxeSt := {}
  mxeSaved : SMap (Option MxeSave) := []
  sct : SMap Sct := []
  stash : SMap Stash := []
  vxe : VxeSt := {}
  pin : PinSt := {}
  seed : Seed := .entropy 0
  gens : SMap Nat := []
  /-- of the machine as a running command sees it: the seeds written since its start (R444) -/
  reseeds : List Reseed := []
  -- sync (11), errors (19), rings (15)
  syn : SynSt := {}
  err : ErrSt := {}
  hst : HstSt := {}
  -- external memory (13), transfers, links (14), recovery (16), power (17), Bezel (18), inputs (20), settings (21)
  xmu : XmuSt := {}
  xfer : XferSt := {}
  lnk : LnkSt := {}
  rsl : RslSt := {}
  pwr : PwrSt
  tap : TapSt := {}
  bezel : BezelSt := {}
  evts : SMap EvtIn := []
  /-- the host's isolate bit (R371), and the isolation input was accepted (R423) -/
  isolateHost : Bool := false
  isolateSeen : Bool := false
  scratch : Nat := 0
  nvs : NvsSt := {}
  /-- what a core reset that has not ended finds (R424) -/
  boot : Option ResetInput := none
  /-- wall-time ticks with an effective factor above 1 (R382) -/
  stretched : Nat := 0
  /-- the EC of the last scrub tick, for the interval (R191) -/
  scrubAt : Nat := 0
deriving DecidableEq, Repr

/-- The state of a core of grade `g` at release, with every register at the reset value its table gives: every context
STOPPED with no fault, every bank ON and zero, no part populated, nothing in the settings store (R424, R442).
DESIGN CHOICE: log 5, log 6. -/
def State.atRelease (g : Grade) : State :=
  { grade := g
    cm := { active := defaultMaps g, staged := defaultMaps g }
    pwr := { limit := peakMw g } }

/-- The state right after reset: a core of grade Max, its queue empty.
DESIGN CHOICE: log 5. -/
def State.reset : State := State.atRelease .max

end Sys2Proof.Machine
end

