-- ==== Sys2Proof/Machine/Mem.lean ====
section
/-!
DEFINITION. Core memory (chapter 08): the address map, banks and granules, partitions, the bytes and their check bits.
-/
namespace Sys2Proof.Machine

/-! ### The grade's figures (R13) -/

/-- The grade code of entry 0. -/
def Grade.code : Grade → Nat
  | .max => 0 | .standard => 1 | .lean => 2

/-- The number of banks, entry 8. -/
def Grade.banks : Grade → Nat
  | .lean => 96 | _ => 128

/-- The pinion count, entry 6. -/
def Grade.pinions : Grade → Nat
  | .max => 128 | .standard => 64 | .lean => 0

/-- Whether bank b carries a pinion (R13, R134): every bank on Max, the even banks on Standard. -/
def Grade.hasPinion (g : Grade) (b : Nat) : Bool :=
  match g with
  | .max => b < 128
  | .standard => b < 128 && b % 2 = 0
  | .lean => false

/-- The size table (R13). -/
def sizeTable (g : Grade) (n : Nat) : Nat :=
  let pick (a b c : Nat) : Nat := match g with | .max => a | .standard => b | .lean => c
  match n with
  | 0 => g.code | 1 => 1 | 2 => 27 | 3 => 256 | 4 => 256
  | 5 => pick 64 0 0 | 6 => g.pinions | 7 => pick 1 2 0 | 8 => g.banks | 9 => 512
  | 10 => pick 67840 67840 51456 | 11 => pick 2 2 1 | 12 => 512 | 13 => 8 | 14 => 64
  | 15 => 256 | 16 => 8 | 17 => pick 0x40402040 0x40402040 0x00402040 | 18 => 0x00008080
  | 19 => 4096 | 20 => 256 | 21 => 2 | 22 => 524288 | 23 => pick 1 1 0
  | 24 => pick 58000 51000 39000 | 25 => 24576 | 26 => 6 | _ => 0

/-- The depth of a queue: 64, 32, 64, 64, 128, 128, and no PIN queue on Lean (R14). -/
def queueDepth (g : Grade) : QName → Nat
  | .mxe => 64 | .txb => 32 | .vxe => 64
  | .pin => if g = .lean then 0 else 64
  | .xdma => 128 | .lnk => 128

/-- The number of a queue, in the order of R14. -/
def qIdx : QName → Nat
  | .mxe => 0 | .txb => 1 | .vxe => 2 | .pin => 3 | .xdma => 4 | .lnk => 5

/-! ### The address map (R166–R168, R177) -/

/-- A region of the core-memory address space. -/
inductive Region where
  | bank | mxeBuf | vxeBuf
deriving DecidableEq, Repr

/-- The bytes of the banks. -/
def bankBytes (s : State) : Nat := s.grade.banks * 524288
/-- The bytes of the MXE moving buffer (R167, R176). -/
def mxeBufBytes (s : State) : Nat := if s.cm.hier then 262144 else 2097152
/-- The bytes of the VXE buffer (R167, R176). -/
def vxeBufBytes (s : State) : Nat := if s.cm.hier then 65536 else 262144

/-- The base of the MXE moving buffer. -/
def mxeBufBase : Nat := 0x04000000
/-- The base of the VXE buffer. -/
def vxeBufBase : Nat := 0x04200000

/-- The region an address lies in; none is unmapped (R167). -/
def regionOf (s : State) (a : Nat) : Option Region :=
  if a < bankBytes s then some .bank
  else if mxeBufBase ≤ a ∧ a < mxeBufBase + mxeBufBytes s then some .mxeBuf
  else if vxeBufBase ≤ a ∧ a < vxeBufBase + vxeBufBytes s then some .vxeBuf
  else none

/-- The bank of a bank address (R168). -/
def bankOf (g : Grade) (a : Nat) : Nat := a / 64 % g.banks
/-- The bank granule of a bank address (R166, R168). -/
def granOf (g : Grade) (a : Nat) : Nat := a / (64 * g.banks)
/-- The address of granule n of bank b (R168). -/
def granAddr (g : Grade) (b n : Nat) : Nat := (n * g.banks + b) * 64

/-- Whether context c may use the address: a block of its partition, or a buffer window it owns (R179). -/
def mayUse (s : State) (c : Ctx) (a : Nat) : Bool :=
  match regionOf s a with
  | some .bank =>
    let b := SMap.get 0 s.cm.partBase c
    let n := SMap.get 0 s.cm.partSize c
    decide (b * 16384 ≤ a) && decide (a < (b + n) * 16384)
  | some .mxeBuf => s.cm.mxeValid && decide (s.cm.mxeOwner = c.val)
  | some .vxeBuf => s.cm.vxeValid && decide (s.cm.vxeOwner = c.val)
  | none => false

/-- The addresses of the granules that a byte range touches. -/
def granulesOf (a n : Nat) : List Nat :=
  if n = 0 then [] else (List.range ((a + n - 1) / 64 - a / 64 + 1)).map (fun i => (a / 64 + i) * 64)

/-- Whether every byte of the range lies in regions context c may use (R169). -/
def mayUseRange (s : State) (c : Ctx) (a n : Nat) : Bool :=
  (granulesOf a n).all (fun g => mayUse s c (Nat.max g a))

/-- Whether context c is allocated (R182). -/
def allocated (s : State) (c : Ctx) : Bool :=
  decide (0 < SMap.get 0 s.cm.partSize c) || (s.cm.mxeValid && decide (s.cm.mxeOwner = c.val))
    || (s.cm.vxeValid && decide (s.cm.vxeOwner = c.val))

/-! ### Bytes -/

/-- What a byte that no entry lists reads as: zero, as the reset fill leaves every bank (R424).
DEDUCED: log 7. -/
def emptyByte : W8 := 0#8

/-- The byte of core memory at an address.
DEDUCED: log 7. -/
def readByte (s : State) (a : Nat) : W8 := SMap.get emptyByte s.mem a

/-- n bytes from an address on. -/
def readBytes (s : State) (a n : Nat) : List W8 := (List.range n).map (fun i => readByte s (a + i))

/-- A little-endian number of n bytes at an address. -/
def readLE (s : State) (a n : Nat) : Nat := ofLE (readBytes s a n)

/-- Write bytes into a memory from an address on. -/
def putBytes (m : List Host.Cell) (a : Nat) : List W8 → List Host.Cell
  | [] => m
  | b :: bs => putBytes (SMap.set emptyByte m a b) (a + 1) bs

/-- Clear the check-bit marks of the 8-byte words a write reaches: new data carry their own check bits (R189–R191).
DEDUCED: log 47. -/
def clearEcc (e : SMap Nat) (w : Nat) : (n : Nat) → SMap Nat
  | 0 => e
  | n + 1 => clearEcc (SMap.erase e w) (w + 1) n

/-- Put bytes into core memory (R166, R190). -/
def storeBytes (s : State) (a : Nat) (bs : List W8) : State :=
  { s with
    mem := putBytes s.mem a bs
    ecc := if bs = [] then s.ecc else clearEcc s.ecc (a / 8) ((a + bs.length - 1) / 8 - a / 8 + 1)
    cm := { s.cm with scrubWb := s.cm.scrubWb.filter (fun p =>
      !(granulesOf a bs.length).any (fun g => decide (granAddr s.grade p.1 p.2 = g))) } }

/-! ### Slot maps and the wheel (R19–R21, R170–R175) -/

/-- The owner codes of R170. -/
def ownMxe : Nat := 1
def ownVxe : Nat := 2
def ownPin : Nat := 3
def ownIn : Nat := 4
def ownOut : Nat := 5
def ownSvc : Nat := 6

/-- The sixteen owner codes of a map value, slot 0 first. -/
def mapCodes (v : Nat) : List Nat := (List.range 16).map (fun k => v / 16 ^ k % 16)

/-- The map that bank b selects in a set. -/
def mapOf (m : MapSet) (b : Nat) : Nat :=
  m.maps.getD (m.sels.getD (b / 16) 0 / 4 ^ (b % 16) % 4) 0

/-- The first EC from e on that is a slot of an owner in bank b: slot i is every EC congruent to i modulo 16 (R19, R20). -/
def nextSlot (s : State) (owner b e : Nat) : Nat :=
  let v := mapOf s.cm.active b
  match (List.range 16).find? (fun i => decide (v / 16 ^ ((e + i) % 16) % 16 = owner)) with
  | some i => e + i
  | none => e

/-- The granule of the transposing buffers that holds a byte of buffer `sel`: they lie beyond every address. -/
def txbGran (sel off : Nat) : Nat := 2 ^ 40 + (sel * 524288 + off) / 64 * 64

/-- A byte of a transposing buffer: an unlisted one is undefined (R86, R90).
DEDUCED: log 45. -/
def txbByte (s : State) (sel off : Nat) : W8 :=
  let a := sel * 524288 + off
  SMap.get (Config.freeByte (s.mxe.txbGen * 2 ^ 20 + a)) s.mxe.txb a

/-- The bytes of a granule of core memory or of a transposing buffer. -/
def granBytes (s : State) (g : Nat) : List W8 :=
  if 2 ^ 40 ≤ g then (List.range 64).map (fun i => txbByte s 0 (g - 2 ^ 40 + i)) else readBytes s g 64

/-! ### The spans of timed commands (R29, R271) -/

/-- An EC in [lo, hi), which one is open: that of a span's read (w = 0) or write (w = 1) of granule g.
DESIGN CHOICE: log 13. -/
def openEc (seat w g lo hi : Nat) : Nat := lo + Config.freeNat ((seat + 1) * 2 ^ 48 + 2 * g + w) % Nat.max 1 (hi - lo)

/-- The first slot of an owner in bank b from EC e on that is not taken. -/
def openSlot (s : State) (owner b : Nat) (taken : List Nat) : (fuel e : Nat) → Nat
  | 0, e => e
  | n + 1, e =>
    let x := nextSlot s owner b e
    if x ∈ taken then openSlot s owner b taken n (x + 1) else x

/-- Slots for granules of bank b in their order, one for each, none before `lo` or before the granule's own EC. -/
def inTurn (s : State) (owner b : Nat) (taken : List Nat) : (lo : Nat) → List Nat → List Nat
  | _, [] => []
  | lo, p :: ps =>
    let x := openSlot s owner b taken (taken.length + 1) (Nat.max lo p)
    x :: inTurn s owner b taken (x + 1) ps

/-- Slots for granules of bank b in their order, each given with an open EC and the EC before which it has moved: from the open
EC on, or, where one would come too late, the first slots from `lo` on. -/
def slotsFor (s : State) (owner b : Nat) (taken : List Nat) (lo : Nat) (l : List (Nat × Nat)) : List Nat :=
  let xs := inTurn s owner b taken lo ((l.map Prod.fst).insertionSort (· ≤ ·))
  if (xs.zip l).all (fun p => decide (p.1 < p.2.2)) then xs else inTurn s owner b taken lo (l.map (fun _ => lo))

/-- The EC before which a span has read granule g. -/
def readBy (x : Span) (g : Nat) : Nat := x.by_.getD (x.reads.idxOf g) x.endEc

/-- The EC from which a span writes: an atomic writes after its end (R163). -/
def writeFrom (x : Span) : Nat := if x.atom then x.endEc else x.startEc

/-- The slots that a span takes in bank b beside those taken: for its reads and its writes, in its order. -/
def spanSlots (s : State) (b : Nat) (taken : List Nat) (seat : Nat) (x : Span) : List ((Nat × Bool) × Nat) :=
  let inB (g : Nat) : Bool := decide (g < bankBytes s) && decide (bankOf s.grade g = b)
  let rd := x.reads.filter inB
  let wr := x.writes.filter inB
  let rs := slotsFor s x.owner b taken x.startEc (rd.map (fun g => (openEc seat 0 g x.startEc (readBy x g), readBy x g)))
  let ws := slotsFor s x.owner b (taken ++ rs) (writeFrom x)
    (wr.map (fun g => (openEc seat 1 g (writeFrom x) x.doneEc, x.doneEc)))
  (rd.map (fun g => (g, false))).zip rs ++ (wr.map (fun g => (g, true))).zip ws

/-- The slots that the sub-units of the MXE take in bank b, with the span of each: a sub-unit takes a slot that none of a higher
priority takes, and no two take one (R24). -/
def mxeSlots (s : State) (b : Nat) : List (Nat × (Nat × Bool) × Nat) :=
  ((s.spans.filter (fun p => decide (p.2.owner = ownMxe))).insertionSort (fun p q =>
    p.2.unit < q.2.unit ∨ (p.2.unit = q.2.unit ∧ p.2.startEc ≤ q.2.startEc))).foldl
    (fun acc p => acc ++ (spanSlots s b (acc.map (fun q => q.2.2)) p.1 p.2).map (fun q => (p.1, q))) []

/-- The EC in which a span reads (w false) or writes granule g. In a bank it is a slot of the span's owner; the buffers and the
transposing buffers have no slots, and the VXE has no order among its granules.
DESIGN CHOICE: log 13. -/
def slotEc (s : State) (seat : Nat) (x : Span) (w : Bool) (g : Nat) : Nat :=
  let lo := if w then writeFrom x else x.startEc
  let hi := if w then x.doneEc else readBy x g
  let e := openEc seat (b2n w) g lo hi
  if bankBytes s ≤ g then e
  else
    let b := bankOf s.grade g
    let l := if x.owner = ownMxe then (mxeSlots s b).filterMap (fun p => if p.1 = seat then some p.2 else none)
      else if x.owner = ownPin then spanSlots s b [] seat x else []
    match l.find? (fun p => decide (p.1 = (g, w))) with
    | some p => p.2
    | none =>
      let e := nextSlot s x.owner b e
      if hi ≤ e ∧ lo + 16 ≤ e then e - 16 else e

/-- The EC in which a span reads granule g. -/
def readEc (s : State) (seat : Nat) (x : Span) (g : Nat) : Nat := slotEc s seat x false g

/-- Whether a span has read granule g before a write of EC t: also in the EC of the write (R177), in a transposing buffer in its AC
(R89). -/
def readFirst (s : State) (seat : Nat) (x : Span) (g t : Nat) : Bool :=
  if 2 ^ 40 ≤ g then decide (readEc s seat x g / 2 ≤ t / 2) else decide (readEc s seat x g ≤ t)

/-- What a write of granule g in EC t does to a span: a granule already read keeps what was read, another is read new. A
command's own write comes after its reads. An atomic keeps by itself what it has read (R158). -/
def seeWrite (s : State) (t : Nat) (self : Option Nat) (g seat : Nat) (x : Span) : Span :=
  if x.ended ∨ x.atom ∨ g ∉ x.reads ∨ x.old.any (fun p => decide (p.1 = g)) then x
  else if self = some seat ∨ readFirst s seat x g t then { x with old := SMap.put x.old g (granBytes s g) }
  else { x with dirty := true }

/-- What a write of some granules in EC t does to every span. -/
def noteWrite (s : State) (t : Nat) (self : Option Nat) (gs : List Nat) : State :=
  { s with spans := s.spans.map (fun p => (p.1, gs.foldl (fun x g => seeWrite s t self g p.1 x) p.2)) }

/-- Write bytes of core memory (R166, R190). -/
def writeBytes (s : State) (a : Nat) (bs : List W8) : State :=
  storeBytes (noteWrite s s.ec none (granulesOf a bs.length)) a bs

/-- Write the bytes of a list that are enabled (none: left as it is). -/
def writeMasked (s : State) (a : Nat) : List (Option W8) → State
  | [] => s
  | none :: bs => writeMasked s (a + 1) bs
  | some b :: bs => writeMasked (writeBytes s a [b]) (a + 1) bs

/-- The check-bit mark of the 8-byte word w: 0 good, 1 correctable, 2 uncorrectable (R189).
DEDUCED: log 47. -/
def eccMark (s : State) (w : Nat) : Nat := SMap.get 0 s.ecc w

/-- Whether a granule holds an uncorrectable word (R190). -/
def granUncorrectable (s : State) (g : Nat) : Bool :=
  (List.range 8).any (fun i => decide (eccMark s (g / 8 + i) = 2))

/-- The corrected words of a granule (R189). -/
def granCorrected (s : State) (g : Nat) : Nat :=
  ((List.range 8).filter (fun i => decide (eccMark s (g / 8 + i) = 1))).length

/-- Bank b. -/
def bank (s : State) (b : Nat) : Bank := SMap.get {} s.banks b
/-- Change bank b. -/
def modBank (s : State) (b : Nat) (f : Bank → Bank) : State := { s with banks := SMap.mod {} s.banks b f }

/-- Whether a bank gives timed engines and the host window access (R185, R186). -/
def bankOpen (s : State) (b : Nat) : Bool :=
  match (bank s b).pw with
  | .on | .draining => true
  | _ => false

/-- What the check bits of a granule read do to the bank's registers (R189, R194): corrected words are counted, an
uncorrectable read is counted, each with its granule. -/
def noteRead (s : State) (g : Nat) : State :=
  match regionOf s g with
  | some .bank =>
    let b := bankOf s.grade g
    let n := granCorrected s g
    let u := granUncorrectable s g
    if (n = 0 && !u) || !bankOpen s b then s
    else modBank s b (fun k =>
      { k with
        ce := (k.ce + n) % 65536
        ceGran := if n = 0 then k.ceGran else some (granOf s.grade g)
        ue := if u then (k.ue + 1) % 256 else k.ue
        ueGran := if u then some (granOf s.grade g) else k.ueGran })
  | _ => s

/-- The reads of several granules. -/
def noteReads (s : State) (gs : List Nat) : State := gs.foldl noteRead s

/-! ### Slots of an owner, and map sets (R23, R172–R175, R241) -/

/-- The slots per turn that an owner holds in bank b under the active set. -/
def slotsOf (s : State) (owner b : Nat) : Nat :=
  ((mapCodes (mapOf s.cm.active b)).filter (fun c => decide (c = owner))).length

/-- The granules among `gs` in bank b. -/
def countIn (g : Grade) (gs : List Nat) (b : Nat) : Nat :=
  (gs.filter (fun a => decide (bankOf g a = b))).length

/-- The banks a command needs in which its owner has no slot (R23, R241). -/
def noSlotBank (s : State) (owner : Nat) (gs : List Nat) : Option Nat :=
  (List.range s.grade.banks).find? (fun b => decide (0 < countIn s.grade gs b) && decide (slotsOf s owner b = 0))

/-- The slot bound: 8 × ⌈g ÷ p⌉ in the busiest bank, over the bank granules a command moves (R23). -/
def slotBound (s : State) (owner : Nat) (gs : List Nat) : Nat :=
  (List.range s.grade.banks).foldl
    (fun m b => Nat.max m (8 * ceilDiv (countIn s.grade gs b) (slotsOf s owner b))) 0

/-- The signature of a set: the low 16 bits of the CRC-32C over the four maps and eight selects (R174). -/
def mapSig (m : MapSet) : Nat := crc32c (m.maps.flatMap (leBytes 8) ++ m.sels.flatMap (leBytes 4)) % 65536

/-- The lowest of the refusal reasons 1 to 3 that a bank's effective map breaks (R172, R173, R194); 0 when it is valid. -/
def mapReasonAt (g : Grade) (m : MapSet) (b : Nat) : Nat :=
  let cs := mapCodes (mapOf m b)
  if cs.any (fun c => decide (6 < c)) then 1
  else if !(cs.contains 4 && cs.contains 5 && cs.contains 6) then 2
  else if cs.contains 3 && !g.hasPinion b then 3
  else 0

/-- The reason of a set: the lowest non-zero reason over the present banks, or 0. -/
def mapReason (g : Grade) (m : MapSet) : Nat :=
  ((List.range g.banks).map (mapReasonAt g m)).foldl
    (fun r x => if x = 0 then r else if r = 0 then x else Nat.min r x) 0

/-- The set becomes active in the first turn that begins after the commit (R173). -/
def setMaps (s : State) (m : MapSet) : State := { s with cm := { s.cm with active := m } }

end Sys2Proof.Machine
end

