-- ==== Sys2Proof/Machine/Ops.lean ====
section
/-!
DEFINITION. The operations every command shares: time, trace, event and completion records, the error log, the stopping of
contexts.
-/
namespace Sys2Proof.Machine

/-- The answer of every meaning that has one. -/
abbrev Out := Host.Outcome State Fault Refusal

/-! ### Time (R18, R38, R374) -/

/-- The AC of the latest event: AC n spans EC 2n and 2n + 1. -/
def ac (s : State) : Nat := s.ec / 2

/-- Twenty-fourths of an unstretched EC that one EC lasts under a factor code: 1, 1.25, 4/3, 1.5, 2 (R374). -/
def ecTicks (code : Nat) : Nat :=
  match code with
  | 0 => 24 | 1 => 30 | 2 => 32 | 3 => 36 | _ => 48

/-- Wall-time ticks in a microsecond: 1,600 unstretched EC (R18, R38). -/
def usTicks : Nat := 38400

/-- Time passes up to EC e, and nothing comes about in it; an EC already past changes nothing.
DEDUCED: log 4. -/
def pass (e : Nat) (s : State) : State :=
  if s.ec < e then
    { s with
      ec := e
      wall := s.wall + (e - s.ec) * ecTicks s.factor
      stretched := if s.factor = 0 then s.stretched else s.stretched + (e - s.ec) * ecTicks s.factor }
  else s

/-- Microseconds of wall time since core reset (R403). -/
def wallUs (s : State) : Nat := (s.wall - s.resetAt) / usTicks

/-- Take n numbers of the model's counter of free values: the first, and the state after.
DESIGN CHOICE: log 9. -/
def takeFree (n : Nat) (s : State) : Nat × State := (s.free, { s with free := s.free + n })

/-- The timed commands that still get their clock: the trip of the die gates the engines, not the pennant unit (R378). -/
def liveRuns (s : State) : List Run := if s.pwr.tripped then s.runs.filter (fun r => decide (r.opcode = 0x28)) else s.runs

/-- What a command does once the core is released: before that it has no effect (R425).
DESIGN CHOICE: log 11. -/
def afterBoot (s : State) (o : Out) : Out := if s.nvs.phase < 8 then .next s else o

/-! ### Contexts -/

/-- Context c. -/
def ctx (s : State) (c : Ctx) : CtxSt := SMap.get {} s.ctxs c
/-- Change context c. -/
def modCtx (s : State) (c : Ctx) (f : CtxSt → CtxSt) : State := { s with ctxs := SMap.mod {} s.ctxs c f }

/-- Address register a of a context (R196). -/
def getAreg (x : CtxSt) (a : Nat) : W64 := SMap.get 0#64 x.areg a
/-- Write address register a. -/
def setAreg (x : CtxSt) (a : Nat) (v : W64) : CtxSt := { x with areg := SMap.set 0#64 x.areg a v }
/-- A scalar command issued in EC e writes address register a (R210). -/
def writeAreg (e : Nat) (x : CtxSt) (a : Nat) (v : W64) : CtxSt :=
  { setAreg x a v with wroteAt := SMap.set 0 x.wroteAt a (e + 1) }
/-- Place a write of an address register among those that are to come: by AC, then by class (R210). -/
def insertLate (w : LateReg) : List LateReg → List LateReg
  | [] => [w]
  | y :: l => if w.ac < y.ac ∨ (w.ac = y.ac ∧ w.cls < y.cls) then w :: y :: l else y :: insertLate w l
/-- A write of an engine or an asynchronous command to address register a lands in AC n (R210). -/
def landAreg (n cls a : Nat) (v : W64) (x : CtxSt) : CtxSt := { x with late := insertLate ⟨n, cls, a, v⟩ x.late }
/-- A write that has landed is in its register, unless a scalar command has written it in the last EC of that AC or later
(R210). -/
def applyLate (x : CtxSt) (w : LateReg) : CtxSt :=
  if 2 * w.ac + 2 ≤ SMap.get 0 x.wroteAt w.reg then x else setAreg x w.reg w.val
/-- The address registers as a command that issues in EC e reads them: a write of AC n is visible from EC 2n + 2 on (R210). -/
def seeLate (e : Nat) (x : CtxSt) : CtxSt :=
  (x.late.filter (fun w => decide (2 * w.ac + 2 ≤ e))).foldl applyLate { x with late := x.late.filter (fun w => decide (e < 2 * w.ac + 2)) }
/-- Parameter register n (R196). -/
def getPar (x : CtxSt) (n : Nat) : W64 := SMap.get 0#64 x.par n
/-- Predicate bit i: p0 always reads 1 (R196). -/
def getPred (x : CtxSt) (i : Nat) : Bool := i = 0 || x.pred.getLsbD i
/-- Write predicate bit i: a write to p0 has no effect (R196). -/
def setPred (x : CtxSt) (i : Nat) (b : Bool) : CtxSt :=
  if i = 0 then x
  else { x with pred := if b then x.pred ||| BitVec.ofNat 16 (2 ^ i) else x.pred &&& ~~~ BitVec.ofNat 16 (2 ^ i) }

/-- The queue q. -/
def queue (s : State) (q : QName) : List QEnt := SMap.get [] s.queues (qIdx q)
/-- Set the queue q. -/
def setQueue (s : State) (q : QName) (l : List QEnt) : State := { s with queues := SMap.set [] s.queues (qIdx q) l }

/-- The six queues in the order of R14 and R210. -/
def allQueues : List QName := [.mxe, .txb, .vxe, .pin, .xdma, .lnk]

/-! ### Trace (R406, R407) -/

/-- The four words of a trace record (R406). -/
def traceWords (r : TraceRec) : List Nat :=
  [ r.kind % 16 + (match r.ctx with | some c => c.val | none => 0) * 16 + r.opcode % 256 * 2 ^ 8 + r.tag % 65536 * 2 ^ 16,
    r.time % 2 ^ 32,
    r.time / 2 ^ 32 % 2 ^ 16 + r.argA % 65536 * 2 ^ 16,
    r.argB % 2 ^ 32 ]

/-- Store an accepted record in the buffer, which wraps, and count the records left before a pending freeze (R407).
DEDUCED: log 91. -/
def traceStore (r : TraceRec) (e : ErrSt) : ErrSt :=
  let e := { e with
    trcBuf := SMap.set [] e.trcBuf e.trcIndex (traceWords r)
    trcQ := if e.trcSink = 1 ∨ (e.trcSink = 2 ∧ 0 < e.trcSize) then e.trcQ ++ [traceWords r] else e.trcQ
    trcWrapped := e.trcWrapped || decide (e.trcIndex = 2047)
    trcIndex := (e.trcIndex + 1) % 2048 }
  match e.trcLeft with
  | some (k + 1) => if k = 0 then { e with trcLeft := none, trcFrozen := true } else { e with trcLeft := some k }
  | _ => e

/-- Whether a record passes the filter; a record without a context passes the context mask (R408). -/
def traceAdmits (e : ErrSt) (r : TraceRec) : Bool :=
  bit e.trcKinds r.kind && (match r.ctx with | some c => bit e.trcCtxs c.val | none => true)

/-- The trace freezes on a new entry of trc_stop_sev or more, at once or after trc_post further records (R407). -/
def freezeOn (sev : Nat) (e : ErrSt) : ErrSt :=
  if 0 < e.trcStopSev ∧ e.trcStopSev ≤ sev ∧ e.trcLeft = none ∧ e.trcEnable = true ∧ e.trcFrozen = false then
    if e.trcPost = 0 then { e with trcFrozen := true } else { e with trcLeft := some e.trcPost }
  else e

/-- The LOST record that precedes the next record accepted, if the filter admits it (R406, R408). -/
def traceLost (t : Nat) (e : ErrSt) : ErrSt :=
  let x : TraceRec := { kind := 10, time := t, argB := e.trcOwed }
  let e' := { e with trcOwed := 0 }
  if 0 < e.trcOwed ∧ traceAdmits e x = true then traceStore x e' else e'

/-- The trace takes a record: at most four in one EC, the rest dropped and counted, a LOST record before the next one
accepted (R406). The entry of a FAULT record may freeze it (R407).
DEDUCED: log 91. -/
def traceTake (e : ErrSt) (r : TraceRec) : ErrSt :=
  let e :=
    if e.trcFrozen || !traceAdmits e r then e
    else if 4 ≤ e.trcInEc then { e with trcLost := (e.trcLost + 1) % 2 ^ 32, trcOwed := e.trcOwed + 1 }
    else
      let e := traceLost r.time e
      if e.trcFrozen then e else traceStore r { e with trcInEc := e.trcInEc + 1 }
  if r.kind = 8 then freezeOn r.sev e else e

/-- The trace takes the records of the present EC. -/
def flushTrc (e : ErrSt) : ErrSt := e.trcWait.foldl traceTake { e with trcWait := [] }

/-- The place of a command's queue in the order of R210: MXE, TXB, VXE, PIN, XDMA, LNK. -/
def queueRank (op : Nat) : Nat :=
  if op = 0x18 then 1 else if op < 0x20 then 0 else if op = 0x20 then 2 else if op = 0x24 ∨ op = 0x25 then 3
  else if op = 0x38 ∨ op = 0x39 then 5 else 4

/-- The place of a record among those of its EC (R406). -/
def traceRank (r : TraceRec) : Nat :=
  match r.kind with
  | 1 | 2 => 0
  | 3 | 4 => 1 + queueRank r.opcode
  | 6 => 7
  | 5 => 8
  | 7 => 9
  | 8 => 10
  | 11 => 11
  | _ => 12

/-- Place a record among those of its EC. -/
def insertTrc (r : TraceRec) : List TraceRec → List TraceRec
  | [] => [r]
  | y :: l => if traceRank r < traceRank y then r :: y :: l else y :: insertTrc r l

/-- Offer a record to the trace (R406): it waits for the others of its EC. -/
def traceErr (r : TraceRec) (e : ErrSt) : ErrSt :=
  if !e.trcEnable || e.trcFrozen then e
  else if e.trcEc = r.time then { e with trcWait := insertTrc r e.trcWait }
  else { flushTrc e with trcEc := r.time, trcInEc := 0, trcWait := [r] }

/-- Offer a record to the trace. -/
def trace (r : TraceRec) (s : State) : State := { s with err := traceErr r s.err }

/-! ### Records for host software (R343, R350, R351) -/

/-- The words of an event record after its number (R350). -/
def eventWords (code sev : Nat) (c : Option Ctx) (tag hostTag hostSeq : Nat) (detail : List Nat) : List Nat :=
  [ code + sev * 2 ^ 12 + (match c with | some c => 2 ^ 15 + c.val * 2 ^ 16 | none => 0),
    tag % 65536 + hostTag % 65536 * 2 ^ 16,
    hostSeq ] ++ padTo 0 4 detail

/-- Produce an event record: it takes a number; with 64 waiting it is dropped and counted (R343, R351). -/
def pushEventH (h : HstSt) (ws : List Nat) : HstSt :=
  let n := h.nextOut
  let h := { h with nextOut := (n + 1) % 2 ^ 32 }
  if 64 ≤ h.eqQ.length then
    { h with lost := (h.lost + 1) % 2 ^ 32, ovCount := h.ovCount + 1, ovFirst := if h.ovCount = 0 then n else h.ovFirst }
  else { h with eqQ := h.eqQ ++ [⟨n, n :: ws⟩] }

/-- Produce an event record. -/
def pushEvent (code sev : Nat) (c : Option Ctx) (tag hostTag hostSeq : Nat) (detail : List Nat) (s : State) : State :=
  { s with hst := pushEventH s.hst (eventWords code sev c tag hostTag hostSeq detail) }

/-- Produce a completion record: it takes a number (R343). -/
def pushDone (ws : List Nat) (h : HstSt) : HstSt :=
  { h with nextOut := (h.nextOut + 1) % 2 ^ 32, cqQ := h.cqQ ++ [⟨h.nextOut, h.nextOut :: ws⟩] }

/-- Produce a completion record if the descriptor asked for one or its status is not 0; a WAIT has none (R350). The queue holds
64 records: one that finds it full is produced when it has room (R351).
DESIGN CHOICE: log 78. -/
def complete (r : HostRef) (status faultTag summary firstTag bytes : Nat) (s : State) : State :=
  if r.kind = 5 || (!r.cmpl && decide (status = 0)) then s
  else
    let ws := [r.kind + r.ring * 2 ^ 4 + status * 2 ^ 8, r.seq, r.hostTag + faultTag % 65536 * 2 ^ 16,
      summary % 65536 + firstTag % 65536 * 2 ^ 16, bytes % 2 ^ 32, 0, 0]
    { s with hst := if 64 ≤ s.hst.cqQ.length then { s.hst with late := s.hst.late ++ [ws] } else pushDone ws s.hst }

/-! ### The error log (R399–R403) -/

/-- The slots that are FREE, lowest first. -/
def freeSlots (e : ErrSt) : List Nat :=
  (List.range 64).filter (fun k => !e.log.any (fun x => decide (x.slot = k)))

/-- The ACTIVE entry. -/
def activeEntry (e : ErrSt) : Option LogEntry := e.active.bind (fun k => e.log.find? (fun x => decide (x.slot = k)))

/-- The PENDING entries, oldest placed first. -/
def pendingEntries (e : ErrSt) : List LogEntry := e.log.filter (fun x => decide (some x.slot ≠ e.active))

/-- Of the entries given, oldest placed first, the first one of highest severity. -/
def worstOf (l : List LogEntry) : Option LogEntry :=
  l.foldl (fun b x => match b with
    | none => some x
    | some y => if y.sev < x.sev then some x else some y) none

/-- Of the PENDING entries below a severity, the oldest one of lowest severity (R402, step 3).
DEDUCED: log 73. -/
def victimOf (sev : Nat) (l : List LogEntry) : Option LogEntry :=
  l.foldl (fun b x => if sev ≤ x.sev then b else match b with
    | none => some x
    | some y => if x.sev < y.sev then some x else some y) none

/-- The severity the outputs show (R408): the ACTIVE entry's from out_min_sev on, and from the first core or fatal one the
highest of those held until reset. -/
def outSev (e : ErrSt) : Nat :=
  let cur := match activeEntry e with
    | some x => if e.outMinSev ≤ x.sev then x.sev else 0
    | none => 0
  if 0 < e.held then e.held else cur

/-- After a change of the ACTIVE entry or of out_min_sev, hold core and fatal (R408). -/
def holdSev (e : ErrSt) : ErrSt :=
  match activeEntry e with
  | some x => if e.outMinSev ≤ x.sev ∧ 5 ≤ x.sev then { e with held := Nat.max e.held x.sev } else e
  | none => e

/-- What a new entry did: its event record is due, and the entry number if it was placed (R402, R403). -/
structure Placed where
  err : ErrSt
  event : Bool
  number : Nat

/-- The same code, context, tag and source position (R402, step 1). -/
def sameEvent (x y : LogEntry) : Bool :=
  decide (y.code = x.code ∧ y.cause.ctx = x.cause.ctx ∧ y.cause.tag = x.cause.tag ∧ y.cause.src = x.cause.src)

/-- Count a repeat in the first PENDING entry of the same event, saturating (R402, step 1). -/
def coalesceIn (active : Option Nat) (x : LogEntry) : List LogEntry → List LogEntry
  | [] => []
  | y :: l =>
    if sameEvent x y && decide (some y.slot ≠ active) then { y with rep := Nat.min (y.rep + 1) 65535 } :: l
    else y :: coalesceIn active x l

/-- Place a new entry of severity 1 to 6 in the log (R402): coalesce, place, replace or discard, then pre-empt. `pick`
chooses among the FREE slots.
DEDUCED: log 73. -/
def placeEntry (pick : Nat) (x : LogEntry) (e : ErrSt) : Placed :=
  if (pendingEntries e).any (sameEvent x) then
    ⟨{ e with log := coalesceIn e.active x e.log }, false, 0⟩
  else
    let put (e : ErrSt) (slot : Nat) : Placed :=
      let n := e.nextNumber
      let x := { x with slot := slot, number := n }
      let e := { e with log := e.log ++ [x], nextNumber := (n + 1) % 2 ^ 32 }
      let pre : Bool := match activeEntry e with
        | none => true
        | some a => decide (a.sev < x.sev)
      ⟨holdSev (if pre then { e with active := some slot } else e), true, n⟩
    match freeSlots e with
    | f :: fs => put e ((f :: fs).getD (pick % (f :: fs).length) f)
    | [] =>
      let e := { e with lost := (e.lost + 1) % 2 ^ 32 }
      match victimOf x.sev (pendingEntries e) with
      | some v => put { e with log := e.log.filter (fun y => decide (y.slot ≠ v.slot)) } v.slot
      | none => ⟨e, true, 0⟩

/-- The place of an entry among those of its EC: by code, then by context, those without one last (R402). -/
def newsKey (x : LogEntry) : Nat := x.code * 16 + (match x.cause.ctx with | some c => c.val | none => 8)

/-- Place an entry among those of its EC. -/
def insertNews (x : LogEntry × Nat) : List (LogEntry × Nat) → List (LogEntry × Nat)
  | [] => [x]
  | y :: l => if newsKey x.1 < newsKey y.1 then x :: y :: l else y :: insertNews x l

/-- An entry more in the present EC. -/
def addNews (x : LogEntry × Nat) (e : ErrSt) : ErrSt := { e with news := insertNews x e.news }

/-- The part of the log that placement changes. -/
def logPart (e : ErrSt) : LogPart := ⟨e.log, e.active, e.lost, e.nextNumber, e.held⟩

/-- The entries of EC `t` go on, or a new EC begins. -/
def openNews (t : Nat) (e : ErrSt) : ErrSt :=
  if e.news.any (fun x => decide (x.1.ecTime = t)) then e else { e with news := [], newEvs := [], was := logPart e }

/-- The entries of an EC placed in the log as it was before them, in their order (R402): with each, what its placement did. -/
def placeNews (e : ErrSt) : ErrSt × List (LogEntry × Placed) :=
  e.news.foldl (fun (p : ErrSt × List (LogEntry × Placed)) x => let q := placeEntry x.2 x.1 p.1; (q.err, p.2 ++ [(x.1, q)]))
    ({ e with log := e.was.log, active := e.was.active, lost := e.was.lost, nextNumber := e.was.nextNumber
              held := e.was.held }, [])

/-- The event records of the entries of an EC, of ring_min_sev or more, in their order (R402, R403). -/
def newsEvents (minSev : Nat) (ps : List (LogEntry × Placed)) : List (List Nat) :=
  (ps.filter (fun p => p.2.event && decide (Nat.max 1 minSev ≤ p.1.sev))).map (fun p =>
    eventWords p.1.code p.1.sev p.1.cause.ctx p.1.cause.tag (p.1.cause.waitTag.getD 0)
      (if p.1.cause.waitTag.isSome then p.1.cause.hostSeq else 0) p.1.detail)

/-- Produce what is new of the event records of an EC: those that wait hold them in their order. -/
def syncEvents (evs : List (List Nat)) (s : State) : State :=
  let (h, ns) := (evs.drop s.err.newEvs.length).foldl (fun (p : HstSt × List Nat) ws =>
    (pushEventH p.1 ws, p.2 ++ [p.1.nextOut])) (s.hst, s.err.newEvs)
  { s with
    err := { s.err with newEvs := ns }
    hst := { h with eqQ := h.eqQ.map (fun r =>
      if r.number ∈ ns.take evs.length then ⟨r.number, r.number :: evs.getD (ns.idxOf r.number) []⟩ else r) } }

/-- The FAULT trace records of the entries of an EC (R406). -/
def newsTrace (ps : List (LogEntry × Placed)) : List TraceRec :=
  (ps.filter (fun p => p.2.event)).map (fun p =>
    { kind := 8, ctx := p.1.cause.ctx, tag := p.1.cause.tag, time := p.1.ecTime, argA := p.1.code, argB := p.2.number, sev := p.1.sev })

/-- The FAULT records that wait are those of the entries in their order; `old` are those that were there before. -/
def syncTrace (t : Nat) (old new : List TraceRec) (e : ErrSt) : ErrSt :=
  if !e.trcEnable || e.trcFrozen then e
  else
    let e := if e.trcEc = t then e else { flushTrc e with trcEc := t, trcInEc := 0 }
    let w := e.trcWait.filter (fun r => decide (r.kind ≠ 8))
    let left := new.drop (old.length - (e.trcWait.length - w.length))
    { e with trcWait := left.foldl (fun l r => insertTrc r l) w }

/-- The entries of the present EC are placed as they stand: an entry that comes later comes after them. -/
def settleErr (s : State) : State := { s with err := { flushTrc s.err with news := [], newEvs := [] } }

/-- The trace has taken the records of the ECs before the present one. -/
def settleTrace (s : State) : State := if s.err.trcEc < s.ec then { s with err := flushTrc s.err } else s

/-- Log an error of a code and severity (R402, R403), with its event record, its FAULT trace record (R406) and the freeze
of the trace it may trigger (R407): the entries of one EC in the order that R402 gives. Severity 0 gives the event record
alone. -/
def logErr (code sev : Nat) (cause : Cause) (detail : List Nat) (s : State) : State :=
  if sev = 0 then pushEvent code 0 cause.ctx cause.tag 0 0 detail s
  else
    let x : LogEntry := ⟨0, 0, code, sev, cause, 0, s.ec, wallUs s, padTo 0 4 detail⟩
    let e := openNews s.ec s.err
    let old := placeNews e
    let p := placeNews (addNews (x, Config.freeChoice s.free) e)
    let e := { p.1 with counts := SMap.mod 0 p.1.counts sev (fun n => (n + 1) % 2 ^ 32) }
    syncEvents (newsEvents e.ringMinSev p.2)
      { s with err := syncTrace s.ec (newsTrace old.2) (newsTrace p.2) e, free := s.free + 1 }

/-- The code numbers of R405. -/
def cFORMAT : Nat := 0x010
def cABSENT : Nat := 0x011
def cLOOP_RANGE : Nat := 0x012
def cLOOP_DEPTH : Nat := 0x013
def cSCHED : Nat := 0x014
def cIMAGE : Nat := 0x015
def cGRADE : Nat := 0x016
def cSLOTMAP : Nat := 0x017
def cHOST_STOP : Nat := 0x018
def cSLIP : Nat := 0x019
def cSLOT_NONE : Nat := 0x01A
def cPARITY : Nat := 0x01B
def cOPERAND : Nat := 0x020
def cFTQ : Nat := 0x021
def cPOS : Nat := 0x022
def cFENCED : Nat := 0x023
def cSTASH_FULL : Nat := 0x024
def cSTASH_STATE : Nat := 0x025
def cSTASH_SPILL : Nat := 0x026
def cPARTIAL : Nat := 0x027
def cADDR : Nat := 0x030
def cDARK : Nat := 0x031
def cUNCORR : Nat := 0x032
def cSCRUB : Nat := 0x033
def cTO_DARK : Nat := 0x034
def cUNMAPPED : Nat := 0x035
def cCOMB_UE : Nat := 0x036
def cRETIRED : Nat := 0x040
def cBLOCK_CRC : Nat := 0x041
def cMEM_THERMAL : Nat := 0x042
def cDIR_UE : Nat := 0x043
def cLINK_RETRY : Nat := 0x044
def cTRAIN : Nat := 0x045
def cREMAP : Nat := 0x046
def cRETIRE : Nat := 0x047
def cMAPPED_OUT : Nat := 0x048
def cXMU_CONFIG : Nat := 0x049
def cTHERM_STEP : Nat := 0x04A
def cLINK_DOWN : Nat := 0x050
def cLINK_CRC : Nat := 0x051
def cLINK_TIMEOUT : Nat := 0x052
def cLINK_REJECT : Nat := 0x053
def cLINK_UNKNOWN : Nat := 0x054
def cSNAP_UNEXP : Nat := 0x055
def cSYNC_TIMEOUT : Nat := 0x060
def cOVERRUN : Nat := 0x061
def cNOT_MEMBER : Nat := 0x062
def cHOIST_TIMEOUT : Nat := 0x063
def cABORTED : Nat := 0x064
def cSAT : Nat := 0x065
def cHAL_CRC : Nat := 0x066
def cHAL_UNKNOWN : Nat := 0x067
def cWAIT_RELEASED : Nat := 0x068
def cHOIST_RELEASED : Nat := 0x069
def cSEQ_GAP : Nat := 0x070
def cFETCH : Nat := 0x071
def cEV_OVERFLOW : Nat := 0x072
def cADVISED : Nat := 0x080
def cSNAP_QUIESCE : Nat := 0x081
def cSNAP_STREAM : Nat := 0x082
def cFILL_ABORTED : Nat := 0x083
def cFILL_DONE : Nat := 0x084
def cPERS_DROOP : Nat := 0x090
def cDROOP_REC : Nat := 0x091
def cDIE_THERMAL : Nat := 0x092
def cPOWER_LIMIT : Nat := 0x093
def cDIE_TRIP : Nat := 0x094
def cPLL : Nat := 0x095
def cNVS_COPY : Nat := 0x0A0
def cNVS_LOST : Nat := 0x0A1
def cNVS_FAIL : Nat := 0x0A2
def cNVS_WEAR : Nat := 0x0A3
def cBOARD_BAD : Nat := 0x0A4
def cBIST : Nat := 0x0A5

/-! ### Stopping a context (R198, R400) -/

/-- Place an evaluation among those that are due. -/
def insertEval (x : Nat × Nat) : List (Nat × Nat) → List (Nat × Nat)
  | [] => [x]
  | y :: l => if x = y then y :: l else if x.1 < y.1 ∨ (x.1 = y.1 ∧ x.2 < y.2) then x :: y :: l else y :: insertEval x l

/-- The pennant wait of a context is withdrawn in AC k: it stays for evaluations that are due for an earlier AC, and the waits
behind it are evaluated in this one (R247, R248). -/
def withdrawWait (c : Ctx) (k : Nat) (y : SynSt) : SynSt :=
  let mine (w : PWait) : Bool := decide (w.who = .ctx c)
  let early (w : PWait) : Bool := y.evals.any (fun x => decide (x.2 = w.pennant) && decide (x.1 < k))
  { y with
    waits := (y.waits.filter (fun w => !mine w || early w)).map (fun w => if mine w then { w with gone := some k } else w)
    evals := (y.waits.filter (fun w => mine w && y.waits.any (fun x => decide (x.pennant = w.pennant) && !mine x))).foldl
      (fun l w => insertEval (k, w.pennant) l) y.evals }

/-- What a stopping context waits for is withdrawn: its pennant and hoist waits, also that of a SYN.HOIST on its way (R198,
R248). -/
def withdrawWaits (c : Ctx) (k : Nat) (y : SynSt) : SynSt :=
  { withdrawWait c k y with
    ents := y.ents.map (fun n => if n.ctx = c then { n with gone := true } else n)
    hoists := y.hoists.map (fun p => (p.1, { p.2 with waiters := p.2.waiters.filter (fun w => decide (w.ctx ≠ c)) })) }

/-- Change the synchronisation block. -/
def modSyn (f : SynSt → SynSt) (s : State) : State := { s with syn := f s.syn }

/-- A context begins to stop: it issues nothing more and withdraws its pennant and hoist waits (R198, R248). A fault on a
context that already stops or has stopped is kept only if it is more severe (R400). -/
def stopCtx (c : Ctx) (code sev tag : Nat) (s : State) : State :=
  let x := ctx s c
  if x.stopping || decide (x.cstate = .stopped) then
    modCtx s c (fun x =>
      let x := if sev = 4 then { x with imageValid := false } else x
      if x.faultSev < sev then { x with faultCode := code, faultTag := tag, faultSev := sev } else x)
  else
    modSyn (withdrawWaits c (ac s)) (modCtx s c (fun x =>
      { x with stopping := true, faultCode := code, faultTag := tag, faultSev := sev
               imageValid := x.imageValid && decide (sev ≠ 4) }))

/-- A stream or context fault of context c: logged and the context stops (R399, R400). -/
def faultCtx (c : Ctx) (code sev tag : Nat) (detail : List Nat) (s : State) : State :=
  stopCtx c code sev tag (logErr code sev { ctx := some c, tag := tag } detail s)

/-- A stream fault of a command of context c. -/
def streamFault (c : Ctx) (code tag : Nat) (detail : List Nat) (s : State) : State := faultCtx c code 3 tag detail s

/-- An advisory. -/
def advise (code : Nat) (cause : Cause) (detail : List Nat) (s : State) : State := logErr code 1 cause detail s

/-- The 32 words of an affine record, relative to a context's base (R201, R216): the records are numbered from 1.
DEDUCED: log 30. -/
def affRec (s : State) (x : CtxSt) (n : Nat) : List Nat := SMap.get [] s.aff (x.affBase + n - 1)

/-- Σ over the open depths of index × the field that `f` takes from the depth's five words (R216).
DEDUCED: log 30. -/
def affSum (x : CtxSt) (r : List Nat) (f : List Nat → Int) : Int :=
  ((List.range x.loops.length).map (fun d =>
    ((SMap.get (0 : Nat) x.lcIdx ((x.loops.getD d ⟨0, 0⟩).ctr) : Nat) : Int) * f (slice (5 * d) 5 r))).foldl (· + ·) 0

/-- The loop offset of address slot j, an integer; 0 for a command with no affine record (R216). -/
def loopOff (s : State) (x : CtxSt) (aff j : Nat) : Int :=
  if aff = 0 then 0 else affSum x (affRec s x aff) (fun w => sext 32 (w.getD j 0))

/-- The issued tag: tag + Σ index × t, modulo 65,536 (R218). -/
def issuedTag (s : State) (x : CtxSt) (sl : Slot) : Nat :=
  let aff := bits sl.irec.toNat 35 25
  let base := sl.w0.toNat / 65536
  if aff = 0 then base
  else wrap 16 (base + affSum x (affRec s x aff) (fun w => (w.getD 4 0 % 65536 : Nat)))

/-- The slot at a context's issue position (R201, R207).
DESIGN CHOICE: log 6. -/
def slotAt (s : State) (x : CtxSt) (pos : Nat) : Slot := SMap.get default s.code (x.codeBase + pos)

/-- The tag of the next command a context is due to issue (R199). -/
def nextTag (s : State) (c : Ctx) : Nat := issuedTag s (ctx s c) (slotAt s (ctx s c) (ctx s c).pos)

/-- A host stop of a context (R199, R197): nothing happens to one that has stopped.
DEDUCED: log 29. -/
def hostStop (c : Ctx) (s : State) : State :=
  if (ctx s c).cstate = .stopped then s
  else if (ctx s c).stopping then s
  else streamFault c cHOST_STOP (nextTag s c) [(ctx s c).pos] s

/-- A port is DOWN: the credits of the core, and those of the fabric, are gone (R415). -/
def PortSt.down (q : PortSt) : PortSt := { q with up := false, cr := ⟨0, 0, 0⟩, gReq := {}, gRsp := {}, gSnp := {} }

/-- The core leaves its surroundings (R368, R412): links and halyard fall silent, and both ports, no longer offered, are
DOWN (R415). -/
def goSilent (s : State) : State :=
  { s with isolated := true
           lnk := { s.lnk with ports := SMap.mod {} (SMap.mod {} s.lnk.ports 0 PortSt.down) 1 PortSt.down } }

/-- Isolation (R368): every context stops as under a host stop. -/
def isolate (s : State) : State := goSilent ((List.finRange 8).foldl (fun s c => hostStop c s) s)

/-- A core or fatal fault (R399, R400): logged, every context takes its code with tag 0, and the core isolates. -/
def coreFault (code sev : Nat) (detail : List Nat) (s : State) : State :=
  let s := logErr code sev {} detail s
  goSilent ((List.finRange 8).foldl (fun s c => stopCtx c code sev 0 s) s)

/-! ### The context summary (R119) -/

/-- OR a command's summary into its context's, with the tag of the first command that contributed. -/
def addSummary (c : Ctx) (f : Flags) (tag : Nat) (s : State) : State :=
  if f = 0#16 then s
  else modCtx s c (fun x =>
    { x with summary := x.summary ||| f, firstTag := if x.summary = 0#16 then tag else x.firstTag })

/-! ### Tap totals (R385, R389) -/

/-- Add to the core's own tap total of a counter, modulo 2^32 (R389). -/
def addTot (i n : Nat) (s : State) : State :=
  if n = 0 then s else { s with tap := { s.tap with tot := SMap.mod 0 s.tap.tot i (fun x => (x + n) % 2 ^ 32) } }

/-- The numbers of the tap totals after mac_units_0 to mac_units_10 (R385, R389). -/
def tVXE : Nat := 11
def tSTEPS : Nat := 12
def tATOMS : Nat := 13
def tCOMB : Nat := 14
def tXRD : Nat := 15
def tXWR : Nat := 16
def tLTX : Nat := 17
def tLRX : Nat := 18

end Sys2Proof.Machine
end

