-- ==== Sys2Proof/Machine/Due.lean ====
section
/-!
DEFINITION. What comes about as time passes: the pennant unit (R243–R250), the hoists (R256–R263), and the passing of time itself.
-/
namespace Sys2Proof.Machine

/-! ### Positions and aliases (R320, R321) -/

/-- The first valid alias entry that matches a position. -/
def aliasOf (s : State) (p : Nat) : Option (Nat × Nat) :=
  (s.alias_.map Prod.snd).find? (fun e => decide (bits e.1 21 0 = p) && decide (bits e.1 23 22 = 1 ∨ bits e.1 23 22 = 2))

/-- Whether the core takes traffic addressed to a position as its own. -/
def acceptsPos (s : State) (p : Nat) : Bool :=
  decide (p = s.pos) || (match aliasOf s p with | some e => decide (bits e.1 23 22 = 1) | none => false)

/-- Where outbound traffic to a position goes. -/
def redirect (s : State) (p : Nat) : Nat :=
  match aliasOf s p with
  | some e => if bits e.1 23 22 = 2 then bits e.2 21 0 else p
  | none => p

/-! ### Halyard messages (R264–R266) -/

/-- The CRC of a message, its crc field taken as zero (R265). -/
def halCrc (m : HalMsg) : Nat :=
  crc16 (bytesOfWords [m.w0.toNat, m.w1.toNat, m.w2.toNat % 2 ^ 16, m.w3.toNat])

/-- A message to a position from this core (R264, R321). -/
def mkMsg (s : State) (kind dst srcHoist : Nat) (parity : Bool) (index op value : Nat) : HalMsg :=
  let m : HalMsg := ⟨BitVec.ofNat 32 (kind + redirect s dst * 2 ^ 4),
    BitVec.ofNat 32 (s.pos + srcHoist * 2 ^ 22 + b2n parity * 2 ^ 30),
    BitVec.ofNat 32 (index + op * 2 ^ 12), BitVec.ofNat 32 value⟩
  { m with w2 := BitVec.ofNat 32 (m.w2.toNat + halCrc m * 2 ^ 16) }

/-- Place a message in the outbound buffer, which it enters in AC t (R252). -/
def post (owner : Option Ctx) (host : Option HostRef) (t : Nat) (m : HalMsg) (s : State) : State :=
  { s with syn := { s.syn with out := s.syn.out ++ [⟨owner, host, m, t⟩] } }

/-! ### The pennant unit (R243–R250) -/

/-- The count of a pennant. -/
def pennant (s : State) (p : Nat) : Nat := SMap.get 0 s.syn.count p

/-- Set the count of a pennant. -/
def setPennant (p v : Nat) (s : State) : State := { s with syn := { s.syn with count := SMap.set 0 s.syn.count p v } }

/-- Add a number to a list without repeats. -/
def insertNew (n : Nat) (l : List Nat) : List Nat := if n ∈ l then l else n :: l

/-- An update of a count (R244): 0 ADD, 1 SUB, 2 SET; with the direction in which it saturates, 0 up and 1 down. -/
def updCount (n op v : Nat) : Nat × Option Nat :=
  match op with
  | 0 => if 2 ^ 32 ≤ n + v then (2 ^ 32 - 1, some 0) else (n + v, none)
  | 1 => if n < v then (0, some 1) else (n - v, none)
  | _ => (v, none)

/-- The place of an update in the order of its AC: by kind, those of the escapement in context order (R245). -/
def updKey (u : PUpd) : Nat := u.cls * 8 + (if u.cls = 3 then (u.cause.ctx.map Fin.val).getD 0 else 0)

/-- Place an update among those of its AC. -/
def insertUpd (u : PUpd) : List PUpd → List PUpd
  | [] => [u]
  | x :: l => if updKey u < updKey x then u :: x :: l else x :: insertUpd u l

/-- The updates one after the other: the count they lead to, and those that saturate, each with its direction (R244, R245). -/
def runUpds (n : Nat) : List PUpd → Nat × List (PUpd × Nat)
  | [] => (n, [])
  | u :: l =>
    let r := updCount n u.op u.v
    let t := runUpds r.1 l
    (t.1, match r.2 with | some d => (u, d) :: t.2 | none => t.2)

/-- The updates that have reached the unit in this AC. -/
def acUpds (s : State) : List PUpd := if s.syn.updAc = ac s then s.syn.upds else []

/-- The updates of pennant p among those of an AC that saturate. -/
def saturations (p : Nat) (us : List PUpd) : List (PUpd × Nat) :=
  let us := us.filter (fun u => decide (u.p = p))
  match us with
  | [] => []
  | x :: _ => (runUpds x.base us).2

/-- A saturation sets its sticky flag and is logged, at the end of its AC, in whose order the updates stand (R244, R245). -/
def saturate (s : State) (x : PUpd × Nat) : State :=
  advise cSAT x.1.cause [x.1.p, x.2] { s with syn :=
    if x.2 = 0 then { s.syn with ovf := insertNew x.1.p s.syn.ovf } else { s.syn with unf := insertNew x.1.p s.syn.unf } }

/-- An update of a pennant takes its place among those of its AC, and the count is what they lead to in that order (R244,
R245).
DEDUCED: log 65. -/
def updatePennant (cls p op v : Nat) (cause : Cause) (s : State) : State :=
  let old := (acUpds s).filter (fun u => decide (u.p = p))
  let b := match old with | [] => pennant s p | x :: _ => x.base
  let u : PUpd := ⟨cls, p, op, v, cause, b⟩
  setPennant p (runUpds b (insertUpd u old)).1 { s with syn := { s.syn with updAc := ac s, upds := insertUpd u (acUpds s) } }

/-- Descriptor r of a ring is no longer started and incomplete (R352). -/
def ringDone (r : HostRef) (s : State) : State :=
  { s with hst := { s.hst with rings := SMap.mod {} s.hst.rings r.ring (fun q =>
      { q with busy := q.busy.erase r }) } }

/-- A wait releases in AC k: an escapement context takes its predicate and becomes due for release two EC after the AC (R248,
R250); a host wait reports on the event ring (R349). -/
def releaseWait (k : Nat) (w : PWait) (s : State) : State :=
  match w.who with
  | .ctx c =>
    let s := modCtx s c (fun x => { (if w.act then setPred x w.pred true else x) with point := .releasing k })
    trace { kind := 5, ctx := some c, opcode := 0x29, tag := w.tag, time := Nat.max s.ec (2 * k), argB := w.pennant } s
  | .host ring seq hostTag _ =>
    let s := ringDone ⟨5, ring, seq, hostTag, false⟩ s
    pushEvent cWAIT_RELEASED 0 none 0 hostTag seq [w.pennant, pennant s w.pennant] s

/-- Remove a wait from the unit. -/
def dropWait (w : PWait) (s : State) : State := { s with syn := { s.syn with waits := s.syn.waits.erase w } }

/-- Whether a wait stands at the unit in AC k: it has arrived and is not withdrawn (R247, R248). -/
def PWait.standsAt (w : PWait) (k : Nat) : Bool :=
  decide (w.at_ / 2 ≤ k) && (match w.gone with | some g => decide (k < g) | none => true)

/-- Release, of the waits given, the threshold waits on p whose value the count has reached and the waits of value 0 (R246,
R247 step 1). -/
def releaseThresholds (p k : Nat) (ws : List PWait) (s : State) : State :=
  ws.foldl (fun s w =>
    if w.pennant = p ∧ w.standsAt k = true ∧ (w.take = false ∨ w.value = 0) ∧ w.value ≤ pennant s p
    then releaseWait k w (dropWait w s) else s) s

/-- Release the take waits on p in order of arrival while the oldest is covered, each taking its value (R247 step 3). -/
def releaseTakes (p k : Nat) (ws : List PWait) (s : State) : State :=
  match ws with
  | [] => s
  | w :: ws =>
    if w.pennant = p ∧ w.standsAt k = true ∧ w.take = true ∧ w.value ≠ 0 then
      if w.value ≤ pennant s p then
        releaseTakes p k ws (releaseWait k w (setPennant p (pennant s p - w.value) (dropWait w s)))
      else s
    else releaseTakes p k ws s

/-- FTQ entry n. -/
def ftq (s : State) (n : Nat) : Ftq := SMap.get {} s.mxe.ftq n

/-- The state of entry n in AC t: a CONSUMING entry is FREE from the end AC of its reader (R76). -/
def ftqStateAt (s : State) (t n : Nat) : FtqState :=
  let x := ftq s n
  if x.st = .consuming ∧ x.freeAt ≤ t then .free else x.st

/-- The first AC at or after t in which the array level is 0: now if it is, else the end of the fall; none while it rises
(R34). -/
def levelZeroAt (m : MxeSt) (t : Nat) : Option Nat :=
  if m.lvlUp then none else some (Nat.max t (m.lvlAc + 8 * m.lvl))

/-- The gate samples the count of its pennant: a count of 256 or more meets its condition for good (R79). -/
def gateSample (p : Nat) (s : State) : State :=
  match s.mxe.gate with
  | some g =>
    if g.pennant = p ∧ 256 ≤ pennant s p then { s with mxe := { s.mxe with gate := some { g with met := true } } } else s
  | none => s

/-- Whether the gate takes from pennant p in AC k: its take comes before every take wait of the AC (R79, R247 step 2), which
GATE_RELEASE evaluates after it. -/
def gateDue (p k : Nat) (s : State) : Bool :=
  match s.mxe.gate with
  | some g =>
    decide (g.pennant = p) && (g.expired || g.met)
      && decide (levelZeroAt s.mxe (Nat.max k s.mxe.entryFree) = some k)
      && g.opens.all (fun n => decide (ftqStateAt s k n = .free))
  | none => false

/-- The wall time of an EC near the present one. -/
def wallAt (s : State) (e : Nat) : Nat := s.wall + (e - s.ec) * ecTicks s.factor - (s.ec - e) * ecTicks s.factor

/-- When a timeout of `us` microseconds that begins in EC e expires; 0 is none (R250). -/
def dueAt (s : State) (e us : Nat) : Option Nat := if us = 0 then none else some (wallAt s e + us * usTicks)

/-! ### Hoists (R256–R263) -/

/-- Hoist h. -/
def hoist (s : State) (h : Nat) : Hoist := SMap.get {} s.syn.hoists h
/-- Change hoist h. -/
def modHoist (h : Nat) (f : Hoist → Hoist) (s : State) : State :=
  { s with syn := { s.syn with hoists := SMap.mod {} s.syn.hoists h f } }

/-- The number of bits set. -/
def popcount (n w : Nat) : Nat := ((List.range n).filter (bit w)).length

/-- parties: local participants and children (R256). -/
def parties (x : Hoist) : Nat := popcount 9 x.mask + x.childCount

/-- The child-table words of a hoist, in order. -/
def childWords (s : State) (x : Hoist) : List Nat :=
  (List.range x.childCount).map (fun k => SMap.get 0 s.syn.child (x.childBase + k))

/-- A hoist message of AC t to the node that a parent or child word names. -/
def hoistMsg (kind h : Nat) (parity : Bool) (value t word : Nat) (s : State) : State :=
  post none none t (mkMsg s kind (bits word 21 0) h parity (bits word 29 22) 0 value) s

/-- A hoist message of AC t to several nodes. -/
def hoistMsgs (kind h : Nat) (parity : Bool) (value t : Nat) (words : List Nat) (s : State) : State :=
  words.foldl (fun s w => hoistMsg kind h parity value t w s) s

/-- A waiter of an epoch that closes in AC t is released (R248, R258). -/
def releaseHWait (h t : Nat) (s : State) (w : HWait) : State :=
  let s := modCtx s w.ctx (fun x => { (if w.act then setPred x w.pred true else x) with point := .releasing t })
  trace { kind := 5, ctx := some w.ctx, opcode := 0x2A, tag := w.tag, time := Nat.max s.ec (2 * t), argB := h } s

/-- Epoch n closes at its node in AC t (R258): the waiters, the messages, the epoch after it. -/
def closeEpoch (h t : Nat) (s : State) : State :=
  let x := hoist s h
  let s := (x.waiters.filter (fun w => !w.next)).foldl (releaseHWait h t) s
  let s := if x.notify && bit x.marksN 8
    then pushEvent cHOIST_RELEASED 0 none 0 0 0 [h + b2n x.parity * 2 ^ 8] s else s
  let s := hoistMsgs 3 h x.parity 0 t (childWords s x) s
  modHoist h (fun y => { y with
    marksN := x.marksN1, marksN1 := 0, childN := x.childN1, childN1 := []
    waiters := (x.waiters.filter (fun w => w.next)).map (fun w => { w with next := false })
    parity := !x.parity, st := .open_, closed := (x.closed + 1) % 2 ^ 16 }) s

/-- What comes about at the end of AC k. -/
def dueAtEnd (k n : Nat) (s : State) : State := { s with syn := { s.syn with evals := insertEval (k, n) s.syn.evals } }

/-- Whether epoch n of a hoist that waits for its completion is complete. -/
def epochComplete (x : Hoist) : Bool :=
  decide (x.st = .open_) && decide (popcount 9 x.marksN + x.childN.length = parties x) && decide (0 < parties x)

/-- Epoch n closes in AC t; one after it that is already complete acts in the next AC (R258). -/
def closeNext (h t : Nat) (s : State) : State :=
  let s := closeEpoch h t s
  if epochComplete (hoist s h) then dueAtEnd (t + 1) (4096 + h) s else s

/-- If epoch n is complete in AC t: the root closes it, and any other node sends ARRIVE to its parent (R258). -/
def checkHoist (h t : Nat) (s : State) : State :=
  let x := hoist s h
  if epochComplete x = false then s
  else if x.root then closeNext h t s
  else hoistMsg 2 h x.parity 0 t x.parent (modHoist h (fun y => { y with st := .sent }) s)

/-- The outcome of an entry (R257, R262). -/
inductive HEntry where
  | refused (code : Nat) (detail : List Nat)
  | marked (next : Bool)
deriving DecidableEq, Repr

/-- What an entry by local participant q would do.
DEDUCED: log 71. -/
def entryOf (s : State) (h q : Nat) : HEntry :=
  let x := hoist s h
  if !x.enable || !bit x.mask q then .refused cNOT_MEMBER [h]
  else if x.st = .aborted then .refused cABORTED [h, x.cause]
  else if !bit x.marksN q then .marked false
  else if !bit x.marksN1 q then .marked true
  else .refused cOVERRUN [h, b2n x.parity]

/-- Record an entry. -/
def markEntry (h q : Nat) (next : Bool) (s : State) : State :=
  modHoist h (fun x => { x with
    marksN := if next then x.marksN else x.marksN ||| 2 ^ q
    marksN1 := if next then x.marksN1 ||| 2 ^ q else x.marksN1
    entered := x.entered ||| 2 ^ q }) s

/-! ### A SYN.HOIST reaches the hoist unit (R257, R259) -/

/-- The context of an entry waits for an epoch; its timer starts as the wait reaches the hoist unit (R28, R260), unless the context
has stopped on the way.
DEDUCED: log 95. -/
def hoistWait (n : HEnt) (next : Bool) (s : State) : State :=
  let e := 2 * n.ac
  let w : HWait := ⟨n.ctx, next, dueAt s e (hoist s n.hoist).timeoutUs, wallAt s e, n.act, n.pred, n.tag⟩
  if n.gone then s else modHoist n.hoist (fun x => { x with waiters := x.waiters ++ [w] }) s

/-- The release of a context by its SYN.HOIST, in the AC in which the command reaches its unit, with the predicate that
timeout_act names (R250, R259, R406). -/
def hoistPass (n : HEnt) (s : State) : State :=
  if n.gone then s
  else
    trace { kind := 5, ctx := some n.ctx, opcode := 0x2A, tag := n.tag, time := Nat.max s.ec (2 * n.ac), argB := n.hoist }
      (modCtx s n.ctx (fun x => { (if n.act then setPred x n.pred true else x) with point := .releasing n.ac }))


/-- The context enters the hoist, and waits if `wait` (R257, R259).
DEDUCED: log 71. -/
def hoistEnter (wait : Bool) (n : HEnt) (s : State) : State :=
  match entryOf s n.hoist n.ctx.val with
  | .refused code d => streamFault n.ctx code n.tag d s
  | .marked next =>
    let s := markEntry n.hoist n.ctx.val next s
    checkHoist n.hoist n.ac (if wait then hoistWait n next s else hoistPass n s)

/-- WAIT: for the epoch of the context's last recorded entry; one that has closed releases at once; with no entry it acts as
ARRIVE_WAIT (R259). An ABORTED hoist keeps no participant waiting (R262).
DEDUCED: log 95. -/
def hoistWaitOnly (n : HEnt) (s : State) : State :=
  let x := hoist s n.hoist
  let c := n.ctx.val
  if !bit x.entered c then hoistEnter true n s
  else if (bit x.marksN1 c || bit x.marksN c) && decide (x.st = .aborted) then streamFault n.ctx cABORTED n.tag [n.hoist, x.cause] s
  else if bit x.marksN1 c then hoistWait n true s
  else if bit x.marksN c then hoistWait n false s
  else hoistPass n s

/-- The SYN.HOIST of context c that arrives in AC k reaches its hoist: an entry that is refused stops the context (R257, R259). -/
def hoistArrives (c k : Nat) (s : State) : State :=
  match s.syn.ents.find? (fun n => decide (n.ctx.val = c) && decide (n.ac = k)) with
  | none => s
  | some n =>
    let s := { s with syn := { s.syn with ents := s.syn.ents.erase n } }
    match n.mode with
    | 0 => hoistEnter true n s
    | 1 => hoistEnter false n s
    | _ => hoistWaitOnly n s

/-! ### What is due, and time -/

/-- An evaluation begins: it is due no more, and the waits withdrawn by then are gone. -/
def openEval (p k : Nat) (y : SynSt) : SynSt :=
  { y with
    evals := y.evals.filter (fun x => decide (x ≠ (k, p)))
    upds := y.upds.filter (fun u => decide (u.p ≠ p))
    waits := y.waits.filter (fun w => !(decide (w.pennant = p) && (match w.gone with | some g => decide (g ≤ k) | none => false))) }

/-- The evaluation of pennant p in AC k, on the count that the updates of the AC lead to, before any take: those that saturate are
judged, the gate samples, and the threshold waits release (R79, R245, R247 step 1). -/
def evalTops (p k : Nat) (s : State) : State :=
  let s := (if s.syn.updAc = k then saturations p s.syn.upds else []).foldl saturate s
  let s := gateSample p { s with syn := openEval p k s.syn }
  releaseThresholds p k s.syn.waits s

/-- The evaluation of pennant p in AC k (R247): the threshold waits; then, unless the gate's take comes between them, the take
waits. -/
def evalAt (p k : Nat) (s : State) : State :=
  let s := evalTops p k s
  if gateDue p k s then s else releaseTakes p k s.syn.waits s

/-- The record of a SYN.SIGNAL that starts in AC a (R406). -/
def signalStarts (a : Nat) (s : State) : State :=
  (s.runs.filter (fun r => decide (r.opcode = 0x28) && decide (r.startAc = a))).foldl (fun s r =>
    trace { kind := 3, ctx := some r.ctx, opcode := 0x28, tag := r.tag, time := 2 * a } s) s

/-- The number under which the starts of SYN.SIGNALs are due. -/
def dueSignal : Nat := 4360

/-- What comes about at the end of AC k. -/
def comeDue (n k : Nat) (s : State) : State :=
  if n < 4096 then evalAt n k s
  else
    let s := { s with syn := { s.syn with evals := s.syn.evals.erase (k, n) } }
    if n < 4352 then checkHoist (n - 4096) k s
    else if n < dueSignal then hoistArrives (n - 4352) k s
    else signalStarts (k + 1) s

/-- The evaluations on pennant p that are due before AC k. -/
def evalUpTo (p k : Nat) (s : State) : State :=
  (s.syn.evals.filter (fun x => decide (x.2 = p) && decide (x.1 < k))).foldl (fun s x => evalAt p x.1 s) s

/-- What is due before AC k comes about, each in the last EC of its AC. -/
def settleDue : (fuel k : Nat) → State → State
  | 0, _, s => s
  | n + 1, k, s =>
    match s.syn.evals with
    | [] => s
    | x :: _ => if x.1 < k then settleDue n k (comeDue x.2 x.1 (pass (2 * x.1 + 1) s)) else s

/-- Everything that is due before AC k has come about (R247, R258, R259).
DEDUCED: log 17. -/
def evalBefore (k : Nat) (s : State) : State := settleDue 8192 k s

/-- Every evaluation that is due by the present AC. -/
def evalNow (s : State) : State := evalBefore (ac s + 1) s

/-- Time passes up to EC e, and what is due before its AC comes about; an EC already past changes nothing.
DEDUCED: log 4. -/
def advance (e : Nat) (s : State) : State := if s.ec < e then pass e (evalBefore (e / 2) s) else s

/-- Pennant p is evaluated in AC k. -/
def dueEval (p k : Nat) (s : State) : State := dueAtEnd k p s

/-- Whether pennant p has a wait, or a STREAM at the gate names it (R247). -/
def watched (p : Nat) (s : State) : Bool :=
  s.syn.waits.any (fun w => decide (w.pennant = p)) || (match s.mxe.gate with | some g => decide (g.pennant = p) | none => false)

/-- An update of a pennant by kind (R245): 1 SET by the escapement, 2 SET by a host register write, 3 ADD and SUB by the
escapement, 4 arrivals and completions, 5 SIGNAL messages, 6 host SIGNAL descriptors. Its waits are evaluated at the end of
the AC. -/
def raise (cls p op v : Nat) (cause : Cause) (s : State) : State :=
  let s := updatePennant cls p op v cause s
  let s := trace { kind := 6, ctx := cause.ctx, tag := cause.tag, time := s.ec, argA := p, argB := pennant s p } s
  if watched p s || decide (saturations p (acUpds s) ≠ []) then dueEval p (ac s) s else s

/-- Time passes up to a wall time, in whole EC.
DEDUCED: log 4. -/
def advanceWall (w : Nat) (s : State) : State :=
  if s.wall < w then advance (s.ec + ceilDiv (w - s.wall) (ecTicks s.factor)) s else s

/-- What a step does when no command waits: one EC passes (R18). -/
def tick (s : State) : State := advance (s.ec + 1) s

/-- The next slot that an owner has for granule g: a free slot of its bank, or a free EC of the service port of its buffer window
(R20, R21, R177). The granule moves in it. -/
def takeSlot (owner : Nat) (s : State) (g : Nat) : Nat × State :=
  let inBank := decide (g < bankBytes s)
  let k := if inBank then bankOf s.grade g * 8 + owner else if vxeBufBase ≤ g then 129 * 8 else 128 * 8
  let e := Nat.max s.ec (SMap.get 0 s.cm.slotFree k)
  let e := if inBank then nextSlot s owner (bankOf s.grade g) e else e
  (e, { s with cm := { s.cm with slotFree := SMap.set 0 s.cm.slotFree k (e + 1) } })

/-- Time passes until every granule of a list has moved in a slot of its own. -/
def takeSlots (owner : Nat) (gs : List Nat) (s : State) : State :=
  let r := gs.foldl (fun (p : Nat × State) g => let x := takeSlot owner p.2 g; (Nat.max p.1 x.1, x.2)) (s.ec, s)
  advance r.1 r.2

end Sys2Proof.Machine
end

