-- ==== Sys2Proof/Machine/Operands.lean ====
section
/-!
DEFINITION. The operand forms of native commands: the slot's header and issue record (R207), the opcodes and their queues
(R208), the address slots to which loop offsets are added (R216, R217), and the zero fields of R445.
-/
namespace Sys2Proof.Machine

/-- The words 0 to 7 of a slot. -/
def slotWords (sl : Slot) : List Nat :=
  [sl.w0.toNat, sl.w1.toNat, sl.w2.toNat, sl.w3.toNat, sl.w4.toNat, sl.w5.toNat, sl.w6.toNat, sl.w7.toNat]

/-- The opcode of a slot (R207). -/
def opcodeOf (sl : Slot) : Nat := bits sl.w0.toNat 7 0
/-- The issue gap: 0 acts as 1 (R207). -/
def gapOf (sl : Slot) : Nat := Nat.max 1 (bits sl.irec.toNat 19 0)
/-- The predicate bit. -/
def predOf (sl : Slot) : Nat := bits sl.irec.toNat 23 20
/-- Whether the command issues when the bit is 0. -/
def predInv (sl : Slot) : Bool := bit sl.irec.toNat 24
/-- The affine record; 0 for none. -/
def affOf (sl : Slot) : Nat := bits sl.irec.toNat 35 25
/-- The reserved bits of the header and of the issue record, which must be zero (R207, R445). -/
def slotRsv (sl : Slot) : Nat := bits sl.w0.toNat 15 11 + bits sl.irec.toNat 63 36

/-- The queue of an opcode; none for scalar, SYN and reserved opcodes (R208). -/
def queueOf : Nat → Option QName
  | 0x10 => some .mxe | 0x11 => some .mxe | 0x12 => some .mxe | 0x13 => some .mxe | 0x14 => some .mxe
  | 0x15 => some .mxe | 0x16 => some .mxe | 0x18 => some .txb | 0x20 => some .vxe | 0x24 => some .pin
  | 0x25 => some .pin | 0x30 => some .xdma | 0x31 => some .xdma | 0x32 => some .xdma | 0x33 => some .xdma
  | 0x34 => some .xdma | 0x35 => some .xdma | 0x36 => some .xdma | 0x37 => some .xdma | 0x38 => some .lnk
  | 0x39 => some .lnk | _ => none

/-- Whether the opcode table lists an opcode (R208). -/
def opcodeListed (o : Nat) : Bool := decide (o ≤ 9) || (queueOf o).isSome || decide (0x28 ≤ o ∧ o ≤ 0x2A)

/-- A word of a command. -/
def wd (ws : List Nat) (i : Nat) : Nat := ws.getD i 0

/-- A word with an offset added modulo 2^32. -/
def plus32 (ws : List Nat) (i : Nat) (off : Int) : List Nat := ws.set i (wrap 32 (wd ws i + off))

/-- The command's words with the loop offsets in its address slots (R217). Word 8 of the answer holds an address wider or
narrower than a word: the 34-bit external or link offset, the 48-bit shared-memory address, the buffer offset of TXB.LOAD. -/
def withOffsets (op : Nat) (ws : List Nat) (off : Nat → Int) : List Nat :=
  match op with
  | 0x10 | 0x11 => plus32 (plus32 ws 1 (off 0)) 2 (off 1)
  | 0x13 => plus32 (plus32 ws 1 (off 0)) 2 (off 1)
  | 0x14 => plus32 (plus32 (plus32 ws 1 (off 0)) 2 (off 1)) 7 (off 2)
  | 0x18 => plus32 ws 1 (off 0) ++ [wrap 32 (bits (wd ws 3) 18 0 + off 1)]
  | 0x20 => plus32 (plus32 (plus32 ws 1 (off 0)) 2 (off 1)) 3 (off 2)
  | 0x25 => plus32 ws 1 (off 0)
  | 0x33 | 0x34 => plus32 ws 1 (off 0) ++ [wrap 48 (wd ws 2 + bits (wd ws 3) 15 0 * 2 ^ 32 + sext 32 (wrap 32 (off 1)))]
  | 0x30 | 0x31 => plus32 ws 1 (off 0) ++ [wrap 34 (wd ws 2 + bits (wd ws 3) 1 0 * 2 ^ 32 + sext 32 (wrap 32 (off 1)))]
  | 0x32 => plus32 (plus32 ws 1 (off 0)) 5 (off 2) ++ [wrap 34 (wd ws 2 + bits (wd ws 3) 1 0 * 2 ^ 32 + sext 32 (wrap 32 (off 1)))]
  | 0x38 | 0x39 => plus32 ws 1 (off 0) ++ [wrap 34 (wd ws 2 + bits (wd ws 3) 1 0 * 2 ^ 32 + sext 32 (wrap 32 (off 1)))]
  | _ => ws

/-- The banks a PIN.RUN names (R145, R146). -/
def pinBanks (ws : List Nat) : List Nat :=
  (List.range (bits (wd ws 2) 14 7)).map (fun i => bits (wd ws 2) 6 0 + i * (1 + bits (wd ws 2) 15 15))

/-- The banks whose pinion a PIN command needs: those it names below the number of banks, or the bank of an atomic's word
when it lies in the banks. -/
def pinNeeds (s : State) (op : Nat) (ws : List Nat) : List Nat :=
  if op = 0x24 then (pinBanks ws).filter (fun b => decide (b < s.grade.banks))
  else if op = 0x25 ∧ wd ws 1 < bankBytes s then [bankOf s.grade (wd ws 1)] else []

/-- A command to a fused-off unit (R223, R91, R106, R135). -/
def absentUnit (s : State) (op : Nat) (ws : List Nat) : Bool :=
  match op with
  | 0x11 => decide (s.grade ≠ .max)
  | 0x13 => (decide (s.grade ≠ .max) && decide (wd ws 7 ≠ 0)) || (decide (s.grade = .lean) && bit (wd ws 5) 22)
  | 0x10 => decide (s.grade = .lean) && bit (wd ws 5) 16
  | 0x18 => decide (s.grade = .lean) && bit (wd ws 3) 19
  | 0x24 | 0x25 => decide (s.grade = .lean) || (pinNeeds s op ws).any (fun b => !s.grade.hasPinion b)
  | _ => false

/-- The pinion number of the pinion in bank b (R13): bank ÷ pinion_stride. -/
def pinionOf (g : Grade) (b : Nat) : Nat := if g = .standard then b / 2 else b

/-- The first fenced pinion a PIN command would need (R153). -/
def fencedPinion (s : State) (op : Nat) (ws : List Nat) : Option Nat :=
  ((pinNeeds s op ws).map (pinionOf s.grade)).find? (fun p => SMap.get false s.pin.fenced p)

end Sys2Proof.Machine
end

