-- ==== Sys2Proof/Machine/Esc.lean ====
section
/-!
DEFINITION. Issue (R209) and the scalar commands of the escapement (R211–R215). A row of an engine or scalar command is the
issue of that command for the dispatched context; the row of a reserved opcode is its issue and fault (R208).
-/
namespace Sys2Proof.Machine

/-- A command at issue: its opcode, words with offsets added, issued tag, position, issue EC and gap. -/
structure Cmd where
  op : Nat
  words : List Nat
  rsv : Nat
  tag : Nat
  pos : Nat
  ec : Nat
  gap : Nat

/-- Word i of a command at issue. -/
def Cmd.w (m : Cmd) (i : Nat) : Nat := wd m.words i

/-- The context whose command `sl` is due: the dispatched context, running, inside a section, with that slot at its issue
position. -/
def issuing (s : State) (sl : Slot) : Option Ctx :=
  match s.dispatched with
  | none => none
  | some c =>
    let x := ctx s c
    if x.cstate = .running ∧ x.stopping = false ∧ x.point = .inSection ∧ s.switching = false ∧ slotAt s x x.pos = sl
    then some c else none

/-- The EC in which a context is due to issue (R26): its gap after the command before it, or after the origin; a first
command that waited for room issues when it can (R31). -/
def dueEc (s : State) (x : CtxSt) (sl : Slot) : Nat :=
  let e := x.lastIssue + gapOf sl
  if x.slipping then Nat.max e s.ec else e

/-- Whether every completion whose result a command issued in EC e may see has happened (R210). -/
def settled (s : State) (e : Nat) : Bool := (liveRuns s).all (fun r => decide (e < 2 * r.doneAc + 2))

/-- Compare two 64-bit values under a condition (R211): 0 EQ, 1 NE, 2 LT, 3 LE, 4 GT, 5 GE. -/
def condHolds (cond : Nat) (sgn : Bool) (a b : W64) : Bool :=
  let lt := if sgn then a.slt b else a.ult b
  let le := if sgn then a.sle b else a.ule b
  match cond with
  | 0 => decide (a = b)
  | 1 => decide (a ≠ b)
  | 2 => lt
  | 3 => le
  | 4 => !le
  | _ => !lt

/-- The value a comparator watches: an address register, or a loop counter's index (R211). -/
def cmpSource (x : CtxSt) (k : Cmp) : W64 :=
  if k.kind then BitVec.ofNat 64 (SMap.get 0 x.lcIdx k.src) else getAreg x k.src

/-- A 32-bit immediate sign-extended to 64 bits. -/
def immSext (v : Nat) : W64 := BitVec.ofNat 64 (wrap 64 (sext 32 v))

/-- What an armed comparator writes. -/
def cmpResult (x : CtxSt) (k : Cmp) : Bool := condHolds k.cond k.sgn (cmpSource x k) (immSext k.imm)

/-- Update every armed comparator, lowest number first, so the higher-numbered result remains (R212). -/
def updateCmps (x : CtxSt) : CtxSt :=
  iter (fun i y => let k := SMap.get {} x.cmps i; if k.armed then setPred y k.pdst (cmpResult x k) else y) 8 x

/-- The context as a command that issues in EC e finds it: what has landed, then the comparators (R209, R210). -/
def atIssue (e : Nat) (x : CtxSt) : CtxSt := updateCmps (seeLate e x)

/-- The command has issued: the position moves on, the next gap counts from here (R26). -/
def passed (c : Ctx) (m : Cmd) (s : State) : State :=
  let s := modCtx s c (fun x =>
    { x with pos := m.pos + 1, lastIssue := m.ec, fresh := false, slipping := false, issued := (x.issued + 1) % 2 ^ 32 })
  trace { kind := 1, ctx := some c, opcode := m.op, tag := m.tag, time := m.ec, argA := m.pos, argB := m.gap } s

/-- A command skipped by its predicate uses its issue EC and gap and does nothing else (R27). -/
def skipped (c : Ctx) (m : Cmd) (s : State) : State :=
  let s := modCtx s c (fun x => { x with pos := m.pos + 1, lastIssue := m.ec, fresh := false, slipping := false })
  trace { kind := 2, ctx := some c, opcode := m.op, tag := m.tag, time := m.ec } s

/-- The command at the issue position, with its offsets and tag (R216, R218). -/
def cmdOf (s : State) (x : CtxSt) (sl : Slot) : Cmd :=
  { op := opcodeOf sl
    words := withOffsets (opcodeOf sl) (slotWords sl) (loopOff s x (affOf sl))
    rsv := slotRsv sl
    tag := issuedTag s x sl
    pos := x.pos
    ec := dueEc s x sl
    gap := gapOf sl }

/-- The issue of a slot for the dispatched context, in the order of R209: comparators, predicate, then the command. A step
whose slot is not the one due, or that comes before the completions it depends on, does not occur.
DEDUCED: log 1. -/
def doIssue (always : Bool) (act : Ctx → Cmd → State → State) (sl : Slot) (s : State) : State :=
  match issuing s sl with
  | none => s
  | some c =>
    let e := dueEc s (ctx s c) sl
    if settled s e = false then s
    else
      let m := cmdOf s (ctx s c) sl
      let s := modCtx (advance e s) c (atIssue e)
      if !always && (getPred (ctx s c) (predOf sl) == predInv sl) then skipped c m s
      else act c m s

/-- A command that breaks its layout (R445): a stream fault FORMAT_INVALID. -/
def formatFault (c : Ctx) (m : Cmd) (s : State) : State := streamFault c cFORMAT m.tag [m.op, m.pos] s

/-- The units that a command for a queue clocks are ungated in its issue EC (R380). -/
def ungate (q : QName) (op : Nat) (ws : List Nat) (s : State) : State :=
  match q with
  | .mxe | .txb => { s with pwr := { s.pwr with mxeGated := false } }
  | .vxe => { s with pwr := { s.pwr with vxeGated := false } }
  | .pin =>
    let ps := (pinNeeds s op ws).map (pinionOf s.grade)
    { s with pwr := { s.pwr with
        pinsGated := s.pwr.pinsGated.filter (fun p => !ps.contains p)
        wakeAt := ps.foldl (fun m p => SMap.set 0 m p (ac s)) s.pwr.wakeAt } }
  | _ => s

/-- Place a command in its queue (R209, R223, R31).
DEDUCED: log 26. -/
def enqueue (q : QName) (c : Ctx) (m : Cmd) (s : State) : State :=
  if absentUnit s m.op m.words then streamFault c cABSENT m.tag [m.op, m.pos] s
  else
    match fencedPinion s m.op m.words with
    | some p => streamFault c cFENCED m.tag [p] s
    | none =>
      if queueDepth s.grade q ≤ (queue s q).length then
        if (ctx s c).fresh then
          if (ctx s c).slipping then s
          else
            let s := modCtx { s with slips := (s.slips + 1) % 2 ^ 32 } c (fun x => { x with slipping := true })
            advise cSLIP { ctx := some c, tag := m.tag } [qIdx q, m.ec % 2 ^ 32] s
        else faultCtx c cSCHED 4 m.tag [qIdx q, m.pos] s
      else
        let ent : QEnt :=
          { ctx := c, tag := m.tag, pos := m.pos, words := m.words, rsv := m.rsv, areg := (ctx s c).areg
            off3 := wrap 32 (loopOff s (ctx s c) (affOf (slotAt s (ctx s c) m.pos)) 3), arrive := m.ec / 2 + 2 }
        passed c m (setQueue (ungate q m.op m.words s) q (queue s q ++ [ent]))

/-- A scalar command: its format conditions, then its effect and the next position (R211, R445). -/
def scalar (ok : Cmd → Bool) (eff : Cmd → CtxSt → CtxSt) (c : Ctx) (m : Cmd) (s : State) : State :=
  if m.rsv ≠ 0 ∨ ok m = false then formatFault c m s else modCtx (passed c m s) c (eff m)

/-- Whether words i to 7 are zero. -/
def zeroFrom (m : Cmd) (i : Nat) : Bool := (slice i (8 - i) m.words).all (fun w => decide (w = 0))

/-- The issue of a row whose slot must hold the opcode `op`.
DEDUCED: log 1, log 26.
DESIGN CHOICE: log 2. -/
def issueRow (op : Nat) (always : Bool) (act : Ctx → Cmd → State → State) (sl : Slot) (s : State) : Out :=
  if opcodeOf sl = op then .next (doIssue always act sl s) else .fault .notThisRow

/-! ### Scalar commands (R211) -/

/-- ESC.NOP. -/
def nopOk (m : Cmd) : Bool := zeroFrom m 1
/-- ESC.SET. -/
def setOk (m : Cmd) : Bool := decide (m.w 1 < 16) && zeroFrom m 4
/-- The 64-bit value of ESC.SET. -/
def setEff (m : Cmd) (x : CtxSt) : CtxSt := writeAreg m.ec x (m.w 1 % 16) (BitVec.ofNat 64 (m.w 2 + m.w 3 * 2 ^ 32))
/-- ESC.LDP. -/
def ldpOk (m : Cmd) : Bool := decide (m.w 1 < 2 ^ 10) && zeroFrom m 2
def ldpEff (m : Cmd) (x : CtxSt) : CtxSt := writeAreg m.ec x (bits (m.w 1) 3 0) (getPar x (bits (m.w 1) 9 4))

/-- An ALU operation modulo 2^64 (R211). -/
def alu (op : Nat) (a b : W64) : W64 :=
  match op with
  | 0 => a + b
  | 1 => a - b
  | 2 => a * b
  | 3 => a <<< (b.toNat % 64)
  | 4 => a >>> (b.toNat % 64)
  | 5 => a.sshiftRight (b.toNat % 64)
  | 6 => a &&& b
  | 7 => a ||| b
  | 8 => a ^^^ b
  | 9 => if a.ult b then a else b
  | _ => if a.ult b then b else a

/-- Operand b of ESC.ALU and ESC.CMP: an address register or the immediate (R211). -/
def srcB (m : Cmd) (x : CtxSt) : W64 :=
  if bit (m.w 1) 12 then immSext (m.w 2) else getAreg x (bits (m.w 1) 11 8)

/-- ESC.ALU: aluop 11 to 15 are reserved. -/
def aluOk (m : Cmd) : Bool := decide (m.w 1 < 2 ^ 17) && decide (bits (m.w 1) 16 13 ≤ 10) && zeroFrom m 3
def aluEff (m : Cmd) (x : CtxSt) : CtxSt :=
  writeAreg m.ec x (bits (m.w 1) 3 0) (alu (bits (m.w 1) 16 13) (getAreg x (bits (m.w 1) 7 4)) (srcB m x))

/-- ESC.CMP: cond 6 and 7 are reserved. -/
def cmpOk (m : Cmd) : Bool := decide (m.w 1 < 2 ^ 17) && decide (bits (m.w 1) 15 13 ≤ 5) && zeroFrom m 3
def cmpEff (m : Cmd) (x : CtxSt) : CtxSt :=
  setPred x (bits (m.w 1) 3 0)
    (condHolds (bits (m.w 1) 15 13) (bit (m.w 1) 16) (getAreg x (bits (m.w 1) 7 4)) (srcB m x))

/-- ESC.PLOG. -/
def plogOk (m : Cmd) : Bool := decide (m.w 1 < 2 ^ 14) && zeroFrom m 2
/-- The logic of ESC.PLOG: 0 AND, 1 OR, 2 XOR, 3 pa AND NOT pb. -/
def plogOp (op : Nat) (a b : Bool) : Bool :=
  match op with
  | 0 => a && b
  | 1 => a || b
  | 2 => a ^^ b
  | _ => a && !b
def plogEff (m : Cmd) (x : CtxSt) : CtxSt :=
  setPred x (bits (m.w 1) 3 0)
    (plogOp (bits (m.w 1) 13 12) (getPred x (bits (m.w 1) 7 4)) (getPred x (bits (m.w 1) 11 8)))

/-- ESC.CMPARM: a reserved cond faults, and so does a loop-counter number above 7. -/
def cmparmOk (m : Cmd) : Bool :=
  decide (m.w 1 < 2 ^ 17) && decide (bits (m.w 1) 15 13 ≤ 5) && zeroFrom m 3
    && (!bit (m.w 1) 12 || decide (bits (m.w 1) 11 8 < 8))
/-- The comparator an ESC.CMPARM describes. -/
def cmparmOf (m : Cmd) : Cmp :=
  { armed := bit (m.w 1) 3, pdst := bits (m.w 1) 7 4, src := bits (m.w 1) 11 8, kind := bit (m.w 1) 12
    cond := bits (m.w 1) 15 13, sgn := bit (m.w 1) 16, imm := m.w 2 }
/-- Arming writes pdst in the same EC; disarming leaves it (R212). -/
def cmparmEff (m : Cmd) (x : CtxSt) : CtxSt :=
  let k := cmparmOf m
  let y := { x with cmps := SMap.set {} x.cmps (bits (m.w 1) 2 0) k }
  if k.armed then setPred y k.pdst (cmpResult x k) else y

/-- ESC.LOOP's fields: count_src 3 is reserved, and an address-register number above 15 names none. -/
def loopOk (m : Cmd) : Bool :=
  decide (m.w 1 < 2 ^ 11) && decide (m.w 2 < 2 ^ 16) && zeroFrom m 5
    && decide (bits (m.w 1) 4 3 ≠ 3) && !(decide (bits (m.w 1) 4 3 = 1) && decide (15 < bits (m.w 1) 10 5))

/-- The count ESC.LOOP latches: the immediate, or the low 32 bits of a register (R211, R213). -/
def loopCount (m : Cmd) (x : CtxSt) : Nat :=
  match bits (m.w 1) 4 3 with
  | 0 => m.w 3
  | 1 => (getAreg x (bits (m.w 1) 10 5)).toNat % 2 ^ 32
  | _ => (getPar x (bits (m.w 1) 10 5)).toNat % 2 ^ 32

/-- ESC.LOOP (R213, R215).
DEDUCED: log 27. -/
def issueLoop (c : Ctx) (m : Cmd) (s : State) : State :=
  let x := ctx s c
  let k := bits (m.w 1) 2 0
  let close := slotAt s x (m.pos + m.w 2)
  let n := loopCount m x
  if m.rsv ≠ 0 ∨ loopOk m = false then formatFault c m s
  else if opcodeOf close ≠ 0x08 ∨ bits close.w1.toNat 2 0 ≠ k ∨ x.loops.any (fun l => decide (l.ctr = k)) then
    faultCtx c cIMAGE 4 m.tag [6, m.pos] s
  else
    let s := modCtx s c (fun x => { x with lcCnt := SMap.set 0 x.lcCnt k n })
    if n = 0 then modCtx (passed c m s) c (fun x => { x with pos := m.pos + m.w 2 + 1 })
    else if m.w 4 < n then streamFault c cLOOP_RANGE m.tag [n, m.w 4] s
    else if 6 ≤ x.loops.length then streamFault c cLOOP_DEPTH m.tag [m.pos] s
    else modCtx (passed c m s) c (fun x =>
      { x with loops := x.loops ++ [⟨k, m.pos + 1⟩], lcIdx := SMap.set 0 x.lcIdx k 0 })

/-- ESC.ENDLOOP (R214, R215): it must name the innermost open loop.
DEDUCED: log 27. -/
def issueEndLoop (c : Ctx) (m : Cmd) (s : State) : State :=
  let x := ctx s c
  let k := bits (m.w 1) 2 0
  if m.rsv ≠ 0 ∨ 8 ≤ m.w 1 ∨ zeroFrom m 2 = false then formatFault c m s
  else
    match x.loops.getLast? with
    | none => faultCtx c cIMAGE 4 m.tag [6, m.pos] s
    | some l =>
      if l.ctr ≠ k then faultCtx c cIMAGE 4 m.tag [6, m.pos] s
      else if SMap.get 0 x.lcIdx k + 1 < SMap.get 0 x.lcCnt k then
        modCtx (passed c m s) c (fun x =>
          { x with pos := l.body, lcIdx := SMap.set 0 x.lcIdx k (SMap.get 0 x.lcIdx k + 1) })
      else modCtx (passed c m s) c (fun x => { x with loops := x.loops.dropLast })

/-- An untimed point of the context: a pending quiesce request takes effect there and the command does not issue (R199);
otherwise it does.
DEDUCED: log 16, log 28. -/
def atPoint (act : Ctx → Cmd → State → State) (c : Ctx) (m : Cmd) (s : State) : State :=
  if (ctx s c).quiesceReq then modCtx s c (fun x => { x with point := .pausing, quiesceReq := false })
  else act c m s

/-- ESC.END (R206): the context issues nothing more.
DEDUCED: log 28. -/
def issueEnd (c : Ctx) (m : Cmd) (s : State) : State :=
  if m.rsv ≠ 0 ∨ zeroFrom m 1 = false then formatFault c m s
  else modCtx (passed c m s) c (fun x => { x with point := .ending })

/-- A reserved opcode faults as FORMAT_INVALID and enters no queue (R208).
DEDUCED: log 54. -/
def issueReserved (c : Ctx) (m : Cmd) (s : State) : State := formatFault c m s

/-- ESC_NOP (R211). -/
def execEscNop (sl : Slot) (s : State) : Out := issueRow 0x00 false (scalar nopOk (fun _ x => x)) sl s
/-- ESC_SET (R211). -/
def execEscSet (sl : Slot) (s : State) : Out := issueRow 0x01 false (scalar setOk setEff) sl s
/-- ESC_LDP (R211). -/
def execEscLdp (sl : Slot) (s : State) : Out := issueRow 0x02 false (scalar ldpOk ldpEff) sl s
/-- ESC_ALU (R211). -/
def execEscAlu (sl : Slot) (s : State) : Out := issueRow 0x03 false (scalar aluOk aluEff) sl s
/-- ESC_CMP (R211). -/
def execEscCmp (sl : Slot) (s : State) : Out := issueRow 0x04 false (scalar cmpOk cmpEff) sl s
/-- ESC_PLOG (R211). -/
def execEscPlog (sl : Slot) (s : State) : Out := issueRow 0x05 false (scalar plogOk plogEff) sl s
/-- ESC_CMPARM (R211, R212). -/
def execEscCmparm (sl : Slot) (s : State) : Out := issueRow 0x06 false (scalar cmparmOk cmparmEff) sl s
/-- ESC_LOOP (R213, R215). -/
def execEscLoop (sl : Slot) (s : State) : Out := issueRow 0x07 true issueLoop sl s
/-- ESC_ENDLOOP (R214, R215). -/
def execEscEndloop (sl : Slot) (s : State) : Out := issueRow 0x08 true issueEndLoop sl s
/-- ESC_END (R206). -/
def execEscEnd (sl : Slot) (s : State) : Out := issueRow 0x09 true (atPoint issueEnd) sl s
end Sys2Proof.Machine
end

