-- ==== Sys2Proof/Machine/Sched.lean ====
section
/-!
DEFINITION. What every engine shares at the start of a queued command (R28, R33): the access checks of R169, R241, R186 and
R190, the occupancy under the slot bound of R23, and the running command it leaves.
-/
namespace Sys2Proof.Machine

/-- An address range: first byte and length. -/
abbrev Range := Nat × Nat

/-- The granules of several ranges, without repeats. -/
def granules (rs : List Range) : List Nat := (rs.flatMap (fun r => granulesOf r.1 r.2)).dedup

/-- Those of them that lie in the banks. -/
def bankGranules (s : State) (gs : List Nat) : List Nat := gs.filter (fun g => decide (g < bankBytes s))

/-- The first granule that a command of context c may not name: unmapped, outside its regions, or in a buffer window its
engine may not use (R169, R177). -/
def badGranule (s : State) (c : Ctx) (okBuf : Region → Bool) (gs : List Nat) : Option Nat :=
  gs.find? (fun g =>
    match regionOf s g with
    | none => true
    | some r => (decide (r ≠ .bank) && !okBuf r) || !mayUse s c g)

/-- The fault that a command's operands raise in its start AC, and its detail: ADDR_RANGE (R169), SLOT_NONE (R241),
BANK_DARK (R186), CMEM_UNCORRECTABLE for what it reads (R190). -/
def accessFault (s : State) (owner : Nat) (c : Ctx) (okBuf : Region → Bool) (reads writes : List Nat) :
    Option (Nat × List Nat) :=
  let all := reads ++ writes
  match badGranule s c okBuf all with
  | some g => some (cADDR, [g, 0])
  | none =>
    match noSlotBank s owner (bankGranules s all) with
    | some b => some (cSLOT_NONE, [b, owner])
    | none =>
      match (bankGranules s all).find? (fun g => !bankOpen s (bankOf s.grade g)) with
      | some g => some (cDARK, [bankOf s.grade g])
      | none =>
        match reads.find? (granUncorrectable s) with
        | some g => some (cUNCORR, [bankOf s.grade g, granOf s.grade g])
        | none => none

/-- The occupancy: the larger of the class's figure and the slot bound over the bank granules moved (R23). -/
def occupancy (s : State) (owner figure : Nat) (reads writes : List Nat) : Nat :=
  Nat.max figure (slotBound s owner (bankGranules s (reads ++ writes)))

/-- The AC from which a command may be the head of its queue. -/
def setHeadAt (q : QName) (a : Nat) (s : State) : State := { s with headAt := SMap.set 0 s.headAt (qIdx q) a }

/-- The first AC in which the head of a queue can start but for its resources: it has arrived, and every command before it has
started (R28).
DEDUCED: log 12. -/
def readyAc (s : State) (q : QName) (e : QEnt) : Nat := Nat.max e.arrive (SMap.get 0 s.headAt (qIdx q))

/-- Take the head of a queue away.
DEDUCED: log 12. -/
def popQueue (q : QName) (s : State) : State :=
  setHeadAt q (ac s) (setQueue s q (queue s q).tail)

/-- The command at the head of a queue faults in its start AC: it leaves the queue, nothing it names changes, and its
context stops. -/
def startFault (q : QName) (e : QEnt) (code : Nat) (detail : List Nat) (s : State) : State :=
  streamFault e.ctx code e.tag detail (popQueue q s)

/-- The fault of an operand in the start AC: no granule moves but where the fault is that of a read, whose granules have been
read (R169, R186, R190, R241). -/
def accessStop (q : QName) (e : QEnt) (f : Nat × List Nat) (reads : List Nat) (s : State) : State :=
  startFault q e f.1 f.2 (if f.1 = cUNCORR then noteReads s reads else s)

/-- FORMAT_INVALID at the start: opcode and issue position (R445, R405). -/
def startFormat (q : QName) (e : QEnt) (s : State) : State :=
  startFault q e cFORMAT [wd e.words 0 % 256, e.pos] s

/-- The generators a command draws from have advanced when the next command draws (R52).
DEDUCED: log 94. -/
def drawGens (effs : List Eff) (s : State) : State :=
  { s with gens := effs.foldl (fun g e => match e with | .gen q st => SMap.put g q st | _ => g) s.gens }

/-- A command starts: it leaves its queue and runs until its done AC (R33). -/
def launch (q : QName) (e : QEnt) (start occ depth seat : Nat) (effs : List Eff) (s : State) : State :=
  let s := drawGens effs (setHeadAt q start (popQueue q s))
  let s := { s with
    runs := s.runs ++ [⟨e.ctx, e.tag, wd e.words 0 % 256, start, start + occ, start + occ + depth, effs, e, seat⟩] }
  trace { kind := 3, ctx := some e.ctx, opcode := wd e.words 0 % 256, tag := e.tag, time := 2 * start } s

/-- The start of a command that touches no granule. -/
def begin_ (q : QName) (e : QEnt) (start occ depth : Nat) (effs : List Eff) (s : State) : State :=
  launch q e start occ depth 0 effs s

/-- The owner whose slots the commands of a queue take (R21). -/
def ownerOf : QName → Nat
  | .vxe => ownVxe
  | .pin => ownPin
  | _ => ownMxe

/-- What a command takes from the engines as it starts. -/
def viewOf (s : State) (c : Ctx) (id : Nat) : View :=
  { mxe := { s.mxe with txb := [] }, sct := s.sct, ctx := ctx s c, seed := s.seed, gens := s.gens, id := id }

/-- The sub-unit of the MXE that a command's granules move through, by priority (R24): a STREAM's, a fill's, a TXB.LOAD's, a
converter's. -/
def unitOf : Nat → Nat
  | 0x13 => 0
  | 0x10 | 0x11 => 1
  | 0x18 => 2
  | _ => 3

/-- The start of a command that reads and writes granules in slots of its span (R29); `id` is the first of its free numbers.
`before` gives the AC before which it reads each granule, if it has an order for them, but it has a wheel turn for the first ones;
`writes` the order of its writes.
DESIGN CHOICE: log 13. -/
def beginSpan (q : QName) (e : QEnt) (start occ depth : Nat) (reads : List Nat) (id : Nat) (effs : List Eff) (s : State)
    (before : List Nat := []) (writes : List Nat := []) : State :=
  let seat := s.free + 1
  let x : Span :=
    { owner := ownerOf q, startEc := 2 * start, endEc := 2 * (start + occ), doneEc := 2 * (start + occ + depth)
      unit := unitOf (wd e.words 0 % 256), reads := reads, by_ := before.map (fun a => Nat.max (2 * a) (2 * start + 16))
      writes := writes, atom := decide (wd e.words 0 % 256 = 0x25), view := viewOf s e.ctx id }
  launch q e start occ depth seat effs { s with free := s.free + 1, spans := SMap.put s.spans seat x }

/-- Whether every completion due by an AC has happened: a start in that AC sees all of them (R33).
DEDUCED: log 14. -/
def settledAc (s : State) (a : Nat) : Bool := (liveRuns s).all (fun r => decide (a < r.doneAc))

/-- The start of the head of a queue at AC `a`: it waits for the completions due by then.
DEDUCED: log 14. -/
def startAt (a : Nat) (f : State → State) (s : State) : State :=
  if settledAc s a then f (advance (2 * a) s) else s

/-- Element i of w bits in a byte string packed from bit 0 (R46). -/
def elemAt (bs : List W8) (w i : Nat) : Nat :=
  ofLE (slice (w * i / 8) ((w * i % 8 + w + 7) / 8) bs) / 2 ^ (w * i % 8) % 2 ^ w

/-- Pack elements of w bits into bytes, element 0 lowest (R46). -/
def packBits (w : Nat) (l : List Nat) : List W8 :=
  leBytes ((w * l.length + 7) / 8) (l.foldr (fun x acc => x % 2 ^ w + acc * 2 ^ w) 0)

/-- The bytes n elements of w bits take. -/
def elemBytes (w n : Nat) : Nat := (w * n + 7) / 8

/-- Decode n elements of a line: its bytes, its scale bytes (MX) or its factors (INT8) (R43, R45, R66).
DEDUCED: log 102. -/
def decodeLine (f : Fmt) (kind : Bool) (bs : List W8) (aux : List Nat) (n : Nat) : List Val :=
  (List.range n).map (fun i =>
    let w := elemAt bs f.width i
    if f.isMx then decodeMx f kind (aux.getD (i / 32) 0) w
    else if f = .int8 then ((decodeElem f kind w).mul (f32 (aux.getD i 0))).1
    else decodeElem f kind w)

/-- n bytes of core memory as numbers. -/
def readNats (s : State) (a n : Nat) : List Nat := (readBytes s a n).map BitVec.toNat
/-- n little-endian 32-bit words of core memory. -/
def readWords (s : State) (a n : Nat) : List Nat := (List.range n).map (fun i => readLE s (a + 4 * i) 4)

end Sys2Proof.Machine
end

