-- ==== Sys2Proof/Machine/Sct.lean ====
section
/-!
DEFINITION. The conversion control word (R55), the scale trackers (R59–R63) and their commands SCT.SET and SCT.READ (R221), the
stochastic rounding generators (R52), and the conversion of a run of elements (R54–R58).
-/
namespace Sys2Proof.Machine

/-! ### Conversion control (R55) -/

/-- Whether a conversion control word holds no reserved or forbidden value (R55). -/
def cvtOk (w : Nat) : Bool :=
  decide (bits w 3 0 ≤ 10) && decide (bits w 6 5 ≠ 3)
    && (!bit w 4 || decide (bits w 3 0 = 5))
    && (!bit w 8 || (decide (5 ≤ bits w 3 0) && decide (bits w 3 0 ≤ 9)))
    && decide (bits w 15 11 = 0) && decide (bits w 31 24 = 0)

/-- The destination format of a valid control word. -/
def cvtFmt (w : Nat) : Fmt := (Fmt.ofCode (bits w 3 0)).getD .fp32

/-! ### Scale tracker slots (R59–R62) -/

/-- Slot n. -/
def sctSlot (s : State) (n : Nat) : Sct := SMap.get {} s.sct n
/-- Change slot n. -/
def modSct (n : Nat) (f : Sct → Sct) (s : State) : State := { s with sct := SMap.mod {} s.sct n f }

/-- The SCT_CFG word of a slot. -/
def sctCfgWord (k : Sct) : Nat :=
  k.policy + b2n k.pow2 * 2 ^ 2 + k.fmt * 2 ^ 4 + b2n k.kind * 2 ^ 8 + k.margin * 2 ^ 12 + k.histLen * 2 ^ 17

/-- Set the fields of SCT_CFG from a word; reserved bits read 0. -/
def sctSetCfg (w : Nat) (k : Sct) : Sct :=
  { k with
    policy := bits w 1 0
    pow2 := bit w 2
    fmt := bits w 7 4
    kind := bit w 8
    margin := bits w 16 12
    histLen := bits w 20 17 }

/-- Set scale, and scale_inv = 1 ÷ scale in FP32, RNE (R59). -/
def sctSetScale (w : Nat) (k : Sct) : Sct := { k with scale := w % 2 ^ 32, scaleInv := (divF32 .one (f32 (w % 2 ^ 32))).1 }

/-- The status word at offset +0x0C. -/
def sctStatus (k : Sct) : Nat := b2n k.nonfinite + 2 * b2n k.zeroAmax + 4 * b2n k.clamped

/-- History entry i. -/
def sctHist (k : Sct) (i : Nat) : Nat := SMap.get 0 k.hist i

/-- Compute a slot's scale from an FP32 amax (R62). -/
def computeScale (k : Sct) (amax : Nat) : ScaleOut :=
  match Fmt.ofCode k.fmt with
  | none => .noFormat
  | some f =>
    match f32 amax, fmtMax f k.kind with
    | .fin _ m e, .fin _ n g =>
      if m = 0 then .zero
      else
        let mg := sext 5 k.margin
        let lg := floorLog2 n m (g - e)
        let (w, big, small) : Nat × Bool × Bool :=
          if k.pow2 then
            ((layFP32.encodeRat .rne false false 1 1 (lg - mg)).1, decide (126 < lg - mg), decide (lg - mg < -126))
          else
            let w := (layFP32.encodeRat .rne false false n m (g - e - mg)).1
            (w, decide (0x7E800000 < w), decide (w < 0x00800000))
        if big then .scale 0x7E800000 true
        else if small then .scale 0x00800000 true
        else .scale w false
    | _, _ => .zero

/-- A slot takes the outcome of a scale computation: the scale, or zero_amax (R62). -/
def installScale (o : ScaleOut) (k : Sct) : Sct :=
  match o with
  | .noFormat => k
  | .zero => { k with zeroAmax := true }
  | .scale w c => { sctSetScale w k with clamped := k.clamped || c }

/-- A slot computes a scale from an amax and takes it (R62). -/
def takeScale (k : Sct) (amax : Nat) : Sct := installScale (computeScale k amax) k

/-- The larger of two finite FP32 magnitudes. -/
def maxMag (a b : Nat) : Nat := if Val.lt (f32 a) (f32 b) then b else a

/-- The closed entries a delayed scale uses: hist_1 to hist_(h+1), h at most 14 (R62). -/
def delayedAmax (k : Sct) : Nat :=
  (List.range (Nat.min k.histLen 14 + 1)).foldl (fun m i => maxMag m (sctHist k (i + 1))) 0

/-- ROLL: every entry moves up by one, the open entry becomes 0, and a delayed slot computes its scale (R61, R62). -/
def sctRoll (k : Sct) : Sct :=
  let h := iter (fun i m => SMap.set 0 m (i + 1) (sctHist k i)) 15 []
  let k := { k with hist := h }
  if k.policy = 1 then takeScale k (delayedAmax k) else k

/-- SCT.SET's four operations (R61, R221): 0 WRITE_CFG, 1 WRITE_SCALE, 2 CLEAR, 3 ROLL. -/
def sctOp (op value : Nat) (k : Sct) : Sct :=
  match op with
  | 0 => sctSetCfg value k
  | 1 => sctSetScale value k
  | 2 => { k with hist := [] }
  | _ => sctRoll k

/-- Fold an amax into the open entry, unless the policy is off (R60, R62). -/
def sctFold (amax : Nat) (nonfinite : Bool) (k : Sct) : Sct :=
  if k.policy = 0 then k
  else { k with hist := SMap.set 0 k.hist 0 (maxMag (sctHist k 0) amax), nonfinite := k.nonfinite || nonfinite }

/-- The word SCT.READ delivers (R221): cfg, scale, scale_inv, status, then the history entries. -/
def sctRead (k : Sct) (sel : Nat) : Nat :=
  match sel with
  | 0 => sctCfgWord k
  | 1 => k.scale
  | 2 => k.scaleInv
  | 3 => sctStatus k
  | n => sctHist k (n - 4)

/-- An amax rounded to FP32 with RNE; a magnitude beyond the largest finite FP32 folds as that (R60). -/
def amaxBits (v : Val) : Nat := (layFP32.encode .rne true v).1

/-! ### Generators (R52) -/

/-- The word of the seed. -/
def seedWord : Seed → Nat
  | .entropy k => (Config.entropy k).toNat
  | .written w => w.toNat

/-- The state of the generator at position q. -/
def genState (s : State) (q : Nat) : Nat := SMap.get (lfsrInit (seedWord s.seed) q) s.gens q

/-- What a conversion has drawn so far: the state of each generator it advanced, and the number of its draws. -/
abbrev Draws := SMap (Nat × Nat)

/-- The seeds that generator q gets in the course of a command: after how many draws, and the state it then has (R444).
DESIGN CHOICE: log 94. -/
def seedsAt (q : Nat) : (n : Nat) → List Reseed → List (Nat × Nat)
  | _, [] => []
  | n, r :: l =>
    let n := n + Config.freeNat (r.id + q)
    (n, SMap.get (lfsrInit r.word q) r.gens q) :: seedsAt q n l

/-- The state that generator q has for the draw after n draws, which left it in state `st`: that of a seed that comes between. -/
def drawState (s : State) (q n st : Nat) : Nat :=
  (((seedsAt q 0 s.reseeds).filter (fun p => decide (p.1 = n))).getLast?.map Prod.snd).getD st

/-- The state in which a command of n draws leaves generator q: that of a seed that comes after them. -/
def leftState (s : State) (q n st : Nat) : Nat :=
  (((seedsAt q 0 s.reseeds).filter (fun p => decide (n ≤ p.1))).getLast?.map Prod.snd).getD st

/-- The rounding of one element under a round field (R50, R51): in SR mode the element draws from the generator at q.
DEDUCED: log 52. -/
def rndDraw (s : State) (round q : Nat) (d : Draws) : Rnd × Draws :=
  match round with
  | 0 => (.rne, d)
  | 1 => (.rtz, d)
  | _ =>
    let p := SMap.get (genState s q, 0) d q
    let r := lfsrDraw (drawState s q p.2 p.1)
    (.sr r.1, SMap.put d q (r.2, p.2 + 1))

/-- The states in which a command leaves the generators that it advanced. -/
def drawEffs (s : State) (d : Draws) : List Eff := d.map (fun p => .gen p.1 (leftState s p.1 p.2.2 p.2.1))

/-! ### Converting a line of elements (R54–R57) -/

/-- One element to convert: its value with every scale applied, the generator position it draws from, whether it is active. -/
structure CvtElem where
  v : Val
  q : Nat
  on : Bool

/-- The encoding of one block or element run. -/
structure CvtOut where
  /-- each element's bits (none where masked) and flags -/
  elems : List (Option Nat × Flags)
  /-- the scale byte of each MX block (none where no lane is active) -/
  scales : List (Option Nat)
  draws : Draws

/-- Choose each active element's rounding, drawing in element order (R51).
DEDUCED: log 94. -/
def rndAll (s : State) (round : Nat) : List CvtElem → Draws → List (CvtElem × Rnd) × Draws
  | [], d => ([], d)
  | x :: xs, d =>
    if x.on then
      let r := rndDraw s round x.q d
      let t := rndAll s round xs r.2
      ((x, r.1) :: t.1, t.2)
    else
      let t := rndAll s round xs d
      ((x, .rne) :: t.1, t.2)

/-- Encode one MX block: masked elements do not enter its amax and are not written; a block flag goes to every active
element (R48, R126). -/
def cvtBlock (f : Fmt) (kind : Bool) (xs : List (CvtElem × Rnd)) : List (Option Nat × Flags) × Option Nat :=
  let act := (xs.filter (fun p => p.1.on)).map (fun p => p.1.v)
  if act = [] then (xs.map (fun _ => (none, fNone)), none)
  else
    let b := encodeMxBlock f kind (xs.map (fun p => (if p.1.on then p.1.v else .zero, p.2)))
    let X := mxScale f kind act
    match X with
    | none => (xs.map (fun p => if p.1.on then (some 0, fNonfiniteBlock) else (none, fNone)), some 255)
    | some X =>
      ((List.zip xs b.2.1).map (fun p => if p.1.1.on then (some p.2.1, p.2.2) else (none, fNone)), some X)

/-- Convert a line of elements into a format (R56): code 10 multiplies element i by its factor from `mult`. -/
def cvtLine (s : State) (ctl : Nat) (mult : List Nat) (xs : List CvtElem) (d : Draws) : CvtOut :=
  let f := cvtFmt ctl
  let r := rndAll s (bits ctl 6 5) xs d
  if f.isMx then
    let bs := (chunks 32 r.1).map (cvtBlock f (bit ctl 4))
    ⟨bs.flatMap Prod.fst, bs.map Prod.snd, r.2⟩
  else
    ⟨(List.range r.1.length).map (fun i =>
        match r.1[i]? with
        | some (x, rnd) =>
          if x.on then
            let v := if f = .int8 then (x.v.mul (f32 (mult.getD i 0))).1 else x.v
            let e := encodePlain f rnd (bit ctl 7) v
            (some e.1, e.2)
          else (none, fNone)
        | none => (none, fNone)), [], r.2⟩

/-! ### SCT.SET and SCT.READ (R221) -/

/-- The field conditions of SCT.SET. -/
def sctSetOk (ws : List Nat) : Bool :=
  decide (bits (wd ws 1) 31 10 = 0) && (decide (bits (wd ws 1) 9 8 ≤ 1) || decide (wd ws 2 = 0))
    && (slice 3 5 ws).all (fun w => decide (w = 0))

/-- The field conditions of SCT.READ: sel 20 to 31 are reserved, op and value are 0. -/
def sctReadOk (ws : List Nat) : Bool :=
  decide (bits (wd ws 1) 9 8 = 0) && decide (bits (wd ws 1) 14 10 ≤ 19) && decide (bits (wd ws 1) 31 19 = 0)
    && (slice 2 6 ws).all (fun w => decide (w = 0))

/-- The AC in which a SCT command at the head of the MXE queue starts. -/
def sctStart (e : QEnt) (s : State) : Nat := Nat.max (readyAc s .mxe e) s.mxe.sctFree

/-- SCT.SET and SCT.READ start: the tracker port for 1 AC, depth 4 (R33). -/
def startSct (e : QEnt) (s : State) : State :=
  let a := sctStart e s
  let rd := decide (wd e.words 0 % 256 = 0x16)
  startAt a (fun s =>
    if e.rsv ≠ 0 ∨ (if rd then sctReadOk e.words else sctSetOk e.words) = false then startFormat .mxe e s
    else
      let w := wd e.words 1
      let eff : Eff := if rd then .sctRead (bits w 7 0) (bits w 14 10) (bits w 18 15)
        else .sctSet (bits w 7 0) (bits w 9 8) (wd e.words 2)
      begin_ .mxe e a 1 4 [eff] { s with mxe := { s.mxe with sctFree := a + 1 } }) s

/-- The operation of a SCT.SET slot. -/
def sctOpOf (sl : Slot) : Nat := bits sl.w1.toNat 9 8

/-- The issue of a SCT.SET of one operation. -/
def issueSct (op : Nat) (sl : Slot) (s : State) : Out :=
  if sctOpOf sl = op then issueRow 0x15 false (enqueue .mxe) sl s else .fault .notThisRow

/-- SCT_WRITE_CFG (R61, R221). -/
def execSctWriteCfg (sl : Slot) (s : State) : Out := issueSct 0 sl s
/-- SCT_WRITE_SCALE (R61, R221). -/
def execSctWriteScale (sl : Slot) (s : State) : Out := issueSct 1 sl s
/-- SCT_CLEAR (R61, R221). -/
def execSctClear (sl : Slot) (s : State) : Out := issueSct 2 sl s
/-- SCT_ROLL (R61, R221). -/
def execSctRoll (sl : Slot) (s : State) : Out := issueSct 3 sl s
/-- SCT_READ (R221). -/
def execSctRead (sl : Slot) (s : State) : Out := issueRow 0x16 false (enqueue .mxe) sl s


/-- The words of a scale tracker slot as a host write leaves them (R59). -/
def sctPut (n r v : Nat) (s : State) : State :=
  match r with
  | 0x00 => modSct n (sctSetCfg v) s
  | 0x04 => modSct n (sctSetScale v) s
  | 0x0C => modSct n (fun k => { k with
      nonfinite := k.nonfinite && !bit v 0, zeroAmax := k.zeroAmax && !bit v 1, clamped := k.clamped && !bit v 2 }) s
  | _ => s

end Sys2Proof.Machine
end

