-- ==== Sys2Proof/Machine/Mxe.lean ====
section
/-!
DEFINITION. The matrix engine (chapters 04 and 05): fills, swaps, streams, the finished-tile queue, the output converter, the
fill gate, the activity ramp and the transposing buffers.
-/
namespace Sys2Proof.Machine

/-- Change the MXE block. -/
def modMxe (f : MxeSt → MxeSt) (s : State) : State := { s with mxe := f s.mxe }

/-! ### The activity ramp (R34, R71) -/

/-- The activity level in AC t (R34): it rises one step per 8 AC from a STREAM's start, and falls one step per 8 AC from the
done AC of the last one. -/
def levelAt (m : MxeSt) (t : Nat) : Nat :=
  if m.lvlUp then Nat.min 8 (m.lvl + 1 + (t - m.lvlAc) / 8) else m.lvl - (t - m.lvlAc) / 8

/-- The occupancy of a STREAM of n beats that starts at level L (R71). -/
def streamOcc (L n : Nat) : Nat :=
  if 7 ≤ L then n else Nat.max (8 * (7 - L)) (n + (7 - L) * (8 - L) / 2)

/-- The AC, counted from a STREAM's start, of its n-th advance (from 0) when it starts at level L: step j of the ramp
advances in its first L + 1 + j AC (R34). -/
def advanceAc (L : Nat) : (fuel : Nat) → (base n : Nat) → Nat
  | 0, base, n => base + n
  | k + 1, base, n => if L + 1 ≤ n ∧ L < 7 then advanceAc (L + 1) k (base + 8) (n - (L + 1)) else base + n

/-- The last AC of row m of M where the slot bound lengthens a STREAM to `occ` AC, counted from its start: its rows enter evenly
over its occupancy; 0 where the slot bound does not lengthen it.
DESIGN CHOICE: log 101. -/
def rowSlot (L trow occ M m : Nat) : Nat := if streamOcc L (M * trow) < occ then (m + 1) * occ / M - 1 else 0

/-- The AC in which the last beat of row m of a STREAM of M rows enters (R70). -/
def rowEnters (start L trow occ M m : Nat) : Nat :=
  start + Nat.max (advanceAc L 8 0 ((m + 1) * trow - 1)) (rowSlot L trow occ M m)

/-- The AC in which output row m of a STREAM of M rows becomes visible (R70): 273 advances after its last beat enters; where the
slot bound lengthens the STREAM, 273 AC after its last slot at the earliest.
DESIGN CHOICE: log 101. -/
def rowVisible (start L trow occ M m : Nat) : Nat :=
  start + Nat.max (advanceAc L 8 0 ((m + 1) * trow - 1 + 273)) (if rowSlot L trow occ M m = 0 then 0 else rowSlot L trow occ M m + 273)

/-! ### Operand pairs (R65) -/

/-- The 8-bit class of R65. -/
def is8 : Fmt → Bool
  | .e4m3 | .e5m2 | .mxfp8 | .e3m2 | .e2m3 | .int8 | .mxint8 => true
  | _ => false
/-- BF16 and FP16. -/
def is16 : Fmt → Bool
  | .bf16 | .fp16 => true
  | _ => false

/-- t_row of a stationary and moving pair; none is not accepted (R65). -/
def pairRow (st mv : Fmt) : Option Nat :=
  if is8 st && is8 mv then some 1
  else if st = .e2m1 ∧ mv = .e2m1 then some 1
  else if is16 st && (is16 mv || is8 mv) then some 2
  else if is8 st && is16 mv then some 2
  else if st = .fp32 ∧ mv ≠ .e2m1 then some 16
  else if st ≠ .e2m1 ∧ mv = .fp32 then some 16
  else none

/-- The format of a stationary set. -/
def setFmt (k : StatSet) : Fmt := (Fmt.ofCode k.fmt).getD .fp32

/-! ### Reading operands (R66, R72, R82, R87) -/

/-- The fields that a FILL or a STREAM gives its operand: base, pitch, scale base and pitch, format, kind, source, buffer,
K-length and the number of lines or rows. -/
structure Opnd where
  base : Nat
  pitch : Nat
  sbase : Nat
  spitch : Nat
  fmtCode : Nat
  kind : Bool
  txb : Bool
  sel : Nat
  klen : Nat
  lines : Nat

/-- The format of an operand. -/
def Opnd.fmt (o : Opnd) : Fmt := (Fmt.ofCode o.fmtCode).getD .fp32

/-- The bytes of one line or row. -/
def Opnd.lineBytes (o : Opnd) : Nat := elemBytes o.fmt.width o.klen

/-- The conditions of R82, R83, R87, R88 and R445 on an operand. -/
def Opnd.ok (o : Opnd) : Bool :=
  decide (o.fmtCode ≤ 10) && (!o.kind || decide (o.fmtCode = 5))
    && decide (o.base % 64 = 0) && decide (o.pitch % 64 = 0)
    && decide (1 ≤ o.klen) && decide (o.klen ≤ (if o.fmtCode = 8 then 512 else 256))
    && (!o.fmt.isMx || decide (o.klen % 32 = 0))
    && (o.fmt.isMx || o.fmt = .int8 || decide (o.sbase = 0))
    && (!o.txb || (decide (o.fmtCode ≤ 4) && decide (o.sbase = 0)
        && decide (o.base + (o.klen - 1) * o.pitch + o.lines * (o.fmt.width / 8) ≤ 524288)))

/-- The ranges of core memory an operand reads: its lines, its scale bytes, its factor vector. -/
def Opnd.ranges (o : Opnd) : List Range :=
  if o.txb then []
  else
    let ls := List.range o.lines
    ls.map (fun c => (o.base + c * o.pitch, o.lineBytes))
      ++ (if o.fmt.isMx then ls.map (fun c => (o.sbase + c * o.spitch, o.klen / 32)) else [])
      ++ (if o.fmt = .int8 then [(o.sbase, 4 * o.klen)] else [])

/-- Line c of an operand, decoded exactly (R66); from a transposing buffer it is stored column c of the window (R87). -/
def Opnd.line (o : Opnd) (s : State) (c : Nat) : List Val :=
  if o.txb then
    let w := o.fmt.width / 8
    (List.range o.klen).map (fun k =>
      decodeElem o.fmt o.kind (ofLE ((List.range w).map (fun i => txbByte s o.sel (o.base + k * o.pitch + c * w + i)))))
  else
    let aux := if o.fmt.isMx then readNats s (o.sbase + c * o.spitch) (o.klen / 32)
      else if o.fmt = .int8 then readWords s o.sbase o.klen else []
    decodeLine o.fmt o.kind (readBytes s (o.base + c * o.pitch) o.lineBytes) aux o.klen

/-- The mark of a command that reads a transposing buffer. -/
def Opnd.txbRead (o : Opnd) : List Eff := if o.txb then [.readsTxb o.sel] else []

/-- The granules an operand is read from, in core memory or in its buffer, each with the first line that needs it, in the order of
the lines: a factor vector comes before the first element it scales (R67), a line's scale bytes with the line (R66). -/
def Opnd.steps (o : Opnd) : List (Nat × Nat) :=
  let w := o.fmt.width / 8
  let l := if o.txb then
      ((List.range o.klen).flatMap (fun k =>
        let a := o.base + k * o.pitch
        (granulesOf a (o.lines * w)).map (fun g => (txbGran o.sel g, (g - a) / w)))).insertionSort (fun p q => p.2 ≤ q.2)
    else
      (if o.fmt = .int8 then (granulesOf o.sbase (4 * o.klen)).map (fun g => (g, 0)) else []) ++
        (List.range o.lines).flatMap (fun c =>
          (granulesOf (o.base + c * o.pitch) o.lineBytes ++
            (if o.fmt.isMx then granulesOf (o.sbase + c * o.spitch) (o.klen / 32) else [])).map (fun g => (g, c)))
  l.foldl (fun m p => if m.any (fun q => decide (q.1 = p.1)) then m else m ++ [p]) []

/-- The operand of MXE.FILL and MXE.FILL.A (R82, R102). -/
def fillOpnd (ws : List Nat) : Opnd :=
  { base := wd ws 1, pitch := bits (wd ws 3) 23 0, sbase := wd ws 2, spitch := bits (wd ws 4) 15 0
    fmtCode := bits (wd ws 5) 13 10, kind := bit (wd ws 5) 14, txb := bit (wd ws 5) 15, sel := bits (wd ws 5) 16 16
    klen := bits (wd ws 5) 26 17, lines := bits (wd ws 5) 8 0 }

/-- The operand of MXE.STREAM with M rows (R82). -/
def streamOpnd (ws : List Nat) (M : Nat) : Opnd :=
  { base := wd ws 1, pitch := bits (wd ws 3) 23 0, sbase := wd ws 2, spitch := bits (wd ws 4) 15 0
    fmtCode := bits (wd ws 5) 19 16, kind := bit (wd ws 5) 20, txb := bit (wd ws 5) 21, sel := bits (wd ws 5) 22 22
    klen := bits (wd ws 6) 9 0, lines := M }

/-! ### FILL and SWAP (R72–R74, R102) -/

/-- The conditions on a FILL: its operand, its lines, its reserved fields; the strip takes 1 to 64 lines and no MXFP4. -/
def fillOk (strip : Bool) (e : QEnt) : Bool :=
  let o := fillOpnd e.words
  decide (e.rsv = 0) && o.ok && decide (1 ≤ o.lines) && decide (o.lines ≤ (if strip then 64 else 256))
    && !(strip && decide (o.fmtCode = 8))
    && decide (bits (wd e.words 3) 31 24 = 0) && decide (bits (wd e.words 4) 31 16 = 0)
    && decide (bits (wd e.words 5) 9 9 = 0) && decide (bits (wd e.words 5) 31 27 = 0)
    && decide (wd e.words 6 = 0) && decide (wd e.words 7 = 0)

/-- The AC that placing 256 lines takes (R72). -/
def fillAc (f : Fmt) : Nat := if f.width = 32 then 128 else if f.width = 16 then 64 else 32

/-- The AC in which a FILL at the head of the MXE queue starts (R28, R33). -/
def fillGo (e : QEnt) (s : State) : Nat := Nat.max (readyAc s .mxe e) s.mxe.fillFree

/-- The AC before which a FILL of `occ` AC has read line c: bus b places lines b, b + 8 and so on in that order, each in 1, 2 or 4
AC (R72); where the slot bound lengthens the FILL, evenly over its occupancy.
DESIGN CHOICE: log 101. -/
def lineBefore (start occ : Nat) (o : Opnd) (c : Nat) : Nat :=
  start + Nat.max (fillAc o.fmt / 32 * (c / 8 + 1)) (if fillAc o.fmt < occ then (c / 8 + 1) * occ / ceilDiv o.lines 8 else 0)

/-- What a FILL does. -/
def fillEffs (strip : Bool) (e : QEnt) (s : State) : List Eff :=
  let o := fillOpnd e.words
  .fill strip o.fmtCode o.kind (if strip then o.lines else 0) ((List.range o.lines).map (o.line s)) :: o.txbRead

/-- MXE.FILL and MXE.FILL.A start when the fill path is free (R33, R72). -/
def startFill (strip : Bool) (e : QEnt) (s : State) : State :=
  let a := fillGo e s
  startAt a (fun s =>
    if fillOk strip e = false then startFormat .mxe e s
    else
      let o := fillOpnd e.words
      let gs := granules o.ranges
      match accessFault s ownMxe e.ctx (fun _ => false) gs [] with
      | some f => accessStop .mxe e f gs s
      | none =>
        let occ := occupancy s ownMxe (fillAc o.fmt) gs []
        beginSpan .mxe e a occ 0 (o.steps.map Prod.fst) 0 (fillEffs strip e s)
          (modMxe (fun m => { m with fillFree := a + occ }) (noteReads s gs)) (o.steps.map (fun p => lineBefore a occ o p.2))) s

/-- The AC in which a SWAP at the head of the MXE queue starts. -/
def swapStart (e : QEnt) (s : State) : Nat := Nat.max (readyAc s .mxe e) (Nat.max s.mxe.fillFree s.mxe.entryFree)

/-- MXE.SWAP starts when the preceding FILL has ended and the array entry is free (R33, R73). -/
def startSwap (e : QEnt) (s : State) : State :=
  let a := swapStart e s
  startAt a (fun s =>
    if e.rsv ≠ 0 ∨ (slice 1 7 e.words).any (fun w => decide (w ≠ 0)) then startFormat .mxe e s
    else begin_ .mxe e a 1 0 [.swap] (modMxe (fun m => { m with fillFree := a + 1, entryFree := a + 1 }) s)) s

/-- The shadow set after a fill. -/
def applyFill (strip : Bool) (k : StatSet) (s : State) : State :=
  modMxe (fun m => if strip then { m with stripShadow := k } else { m with shadow := k }) s

/-- SWAP exchanges the active and shadow sets, main and strip, with their formats and ranks (R74, R102). -/
def applySwap (s : State) : State :=
  modMxe (fun m => { m with active := m.shadow, shadow := m.active
                            stripActive := m.stripShadow, stripShadow := m.stripActive }) s

/-! ### The finished-tile queue (R75–R77) -/

/-- Set FTQ entry n. -/
def setFtq (n : Nat) (x : Ftq) (s : State) : State := modMxe (fun m => { m with ftq := SMap.set {} m.ftq n x }) s

/-- Element (m, c) of a list of rows; unlisted elements are +0. -/
def tileElem (d : List (List W32)) (m c : Nat) : W32 := (d.getD m []).getD c 0#32

/-- A landing row: it replaces the row, or is added element by element with RNE (R68). The flags are those of R69. -/
def landRow (acc : Bool) (old new : List W32) : List W32 × Flags :=
  if acc then
    let n := Nat.max old.length new.length
    let r := (List.range n).map (fun c => addF32 (f32 (old.getD c 0#32).toNat) (f32 (new.getD c 0#32).toNat))
    let w := (List.range n).map (fun c =>
      let x := (f32 (old.getD c 0#32).toNat).add (f32 (new.getD c 0#32).toNat)
      BitVec.ofNat 32 (toF32 x.1).1)
    (w, (fOr (r.map Prod.snd)) &&& (fOverflow ||| fInvalid))
  else (new, fNone)

/-- Land the rows given into a tile. -/
def landRows (acc : Bool) (rows : List (Nat × Nat × List W32)) (d : List (List W32)) : List (List W32) × Flags :=
  rows.foldl (fun p r =>
    let d := padTo [] (Nat.max p.1.length (r.2.1 + 1)) p.1
    let l := landRow acc (d.getD r.2.1 []) r.2.2
    (d.set r.2.1 l.1, p.2 ||| l.2)) (d, fNone)

/-- Sums of STREAM r land in entry n, whatever its state; late ones, in an entry that is FREE, CONSUMING or claimed since,
set ftq_late_write (R77). The entry takes the STREAM's tag, and its count of rows is one more than the highest landed (R75).
DEDUCED: log 101. -/
def landIn (r : Run) (n stamp : Nat) (acc : Bool) (rows : List (Nat × Nat × List W32)) (s : State) : State × Flags :=
  if rows = [] then (s, fNone)
  else
    let x := ftq s n
    let l := landRows acc rows x.data
    let late := decide (x.stamp ≠ stamp ∨ x.st = .free ∨ x.st = .consuming)
    let s := setFtq n { x with data := l.1, rows := rows.foldl (fun m w => Nat.max m (w.2.1 + 1)) x.rows, tag := r.tag } s
    (modMxe (fun m => { m with lateWrite := m.lateWrite || late }) s, l.2)

/-- Of one change of a running STREAM, the rows that are visible by AC t land; the others, and the flags of the additions,
stay with the command. -/
def landEff (t : Nat) (r : Run) (p : State × List Eff) (e : Eff) : State × List Eff :=
  match e with
  | .sums n stamp acc rows =>
    let l := landIn r n stamp acc (rows.filter (fun w => decide (w.1 ≤ t))) p.1
    (l.1, p.2 ++ [.sums n stamp acc (rows.filter (fun w => decide (t < w.1)))] ++ (if l.2 = fNone then [] else [.accFlags l.2]))
  | _ => (p.1, p.2 ++ [e])

/-- Every row of a running STREAM that is visible by AC t has landed (R70, R77): older STREAMs first. -/
def landSums (t : Nat) (s : State) : State :=
  let p := s.runs.foldl (fun (p : State × List Run) r =>
    let l := r.effs.foldl (landEff t r) (p.1, [])
    (l.1, p.2 ++ [{ r with effs := l.2 }])) (s, [])
  { p.1 with runs := p.2, spans := p.1.spans.map (fun x => (x.1, { x.2 with rowsTo := Nat.max x.2.rowsTo t })) }

/-- What entry n holds in AC t (R77): its tile with the rows of running STREAMs that are visible by then. -/
def ftqData (s : State) (t n : Nat) : List (List W32) :=
  (s.runs.flatMap Run.effs).foldl (fun d e =>
    match e with
    | .sums k _ acc rows => if k = n then (landRows acc (rows.filter (fun r => decide (r.1 ≤ t))) d).1 else d
    | _ => d) (ftq s n).data

/-- The values of a tile: 256 rows of 256 columns. -/
def tileVals (d : List (List W32)) : List Val := d.flatMap (fun r => r.map (fun w => f32 w.toNat))

/-- The amax of a tile's finite elements, FP32 (R75, R85). -/
def tileAmax (d : List (List W32)) : Nat := amaxBits (amaxVal (tileVals d))

/-- A STREAM's last sums reach the FTQ at its done AC, and the entry becomes HELD at the done AC of the STREAM that last
wrote it (R76). -/
def applySums (r : Run) (n stamp : Nat) (acc : Bool) (rows : List (Nat × Nat × List W32)) (s : State) :
    State × Flags :=
  let l := landIn r n stamp acc rows s
  let x := ftq l.1 n
  let s := setFtq n { x with st := if x.st = .open_ ∧ x.writer = r.startAc then .held else x.st } l.1
  (modMxe (fun m => { m with
      accOverflow := m.accOverflow || l.2.getLsbD 0
      accInvalid := m.accInvalid || l.2.getLsbD 3 }) s, l.2)

/-! ### STREAM (R65–R71, R76, R82, R103–R105) -/

/-- Element k of line c of a stationary set: +0 where nothing is filled (R72). -/
def statElem (k : StatSet) (c i : Nat) : Val := (k.lines.getD c []).getD i .zero

/-- The exact sum of a group's products (R68, R69). -/
def groupSum (ps : List (Val × Flags)) : Val × Flags :=
  ps.foldl (fun a p => let r := a.1.add p.1; (r.1, a.2 ||| p.2 ||| r.2)) (.zero, fNone)

/-- One output element: eight groups of 32 array rows, each summed exactly, rounded, and added in order with RNE. An element
beyond the K-length of either operand adds nothing, whatever stands against it (R68). -/
def columnSum (per : Nat) (x w : List Val) : W32 × Flags :=
  let r := (List.range 8).foldl (fun (a : Val × Flags) g =>
    let G := groupSum ((List.range per).filterMap (fun i =>
      match x[g * per + i]?, w[g * per + i]? with
      | some u, some v => some (u.mul v)
      | _, _ => none))
    let Gr := roundF32 G.1
    let S := addF32 a.1 Gr.1
    (S.1, a.2 ||| G.2 ||| Gr.2 ||| S.2)) (.zero, fNone)
  (BitVec.ofNat 32 (toF32 r.1).1, r.2 &&& (fOverflow ||| fInvalid))

/-- One output row against the first `cols` lines of a set; a column that no line fills holds zeros (R72). -/
def outRow (k : StatSet) (per cols : Nat) (x : List Val) : List W32 × Flags :=
  let l := (List.range cols).map (fun c => columnSum per x (k.lines.getD c (List.replicate x.length .zero)))
  (l.map Prod.fst, fOr (l.map Prod.snd))

/-- What a STREAM of M rows opens or adds into from a base entry: ⌈M ÷ 256⌉ entries (R76). -/
def entriesOf (base M : Nat) : List Nat := (List.range (ceilDiv M 256)).map (fun i => (base + i) % 8)

/-- The fields of a STREAM: adapter enable, its base entry and its accumulate bit (R103). -/
def adpEn (ws : List Nat) : Bool := bit (wd ws 7) 0
def adpBase (ws : List Nat) : Nat := bits (wd ws 7) 3 1
def adpAcc (ws : List Nat) : Bool := bit (wd ws 7) 4

/-- The layout conditions of a STREAM (R82, R83, R88, R104, R445). -/
def streamOk (gated : Bool) (e : QEnt) : Bool :=
  let M := if gated then 256 else bits (wd e.words 5) 11 0
  let o := streamOpnd e.words M
  decide (e.rsv = 0) && o.ok && (gated || (decide (1 ≤ M) && decide (M ≤ 2048)))
    && decide (bits (wd e.words 3) 31 24 = 0) && decide (bits (wd e.words 5) 31 24 = 0)
    && decide (bits (wd e.words 6) 31 26 = 0) && decide (bits (wd e.words 7) 31 5 = 0)
    && (!adpEn e.words ||
      (decide ((entriesOf (bits (wd e.words 5) 14 12) M).length * 2 ≤ 8)
        && (entriesOf (adpBase e.words) M).all (fun n => decide (n ∉ entriesOf (bits (wd e.words 5) 14 12) M))))

/-- t_row of a STREAM against the active sets; none faults as OPERAND_MISMATCH (R65, R105). -/
def streamRow (s : State) (ws : List Nat) : Option Nat :=
  let mv := (streamOpnd ws 1).fmt
  match pairRow (setFmt s.mxe.active) mv with
  | none => none
  | some t =>
    if adpEn ws then
      if mv = .e2m1 then none
      else match pairRow (setFmt s.mxe.stripActive) mv with
        | none => none
        | some u => some (Nat.max t u)
    else some t

/-- The detail of OPERAND_MISMATCH: stationary and moving format (R405); where the strip's pair fails, the stationary format is the
main active set's.
DESIGN CHOICE: log 106. -/
def mismatchDetail (s : State) (ws : List Nat) : List Nat := [s.mxe.active.fmt, (streamOpnd ws 1).fmtCode]

/-- The first of the entries to be added into that is not OPEN or HELD or not the context's (R76). -/
def badAcc (s : State) (t : Nat) (c : Ctx) (ns : List Nat) : Option Nat :=
  ns.find? (fun n => !(decide (ftqStateAt s t n = .open_ ∨ ftqStateAt s t n = .held) && decide ((ftq s n).owner = c.val)))

/-- The number an FTQ state reads as (R85). -/
def ftqCode : FtqState → Nat
  | .free => 0 | .open_ => 1 | .held => 2 | .consuming => 3

/-- Claim an entry: zeroed, owned, OPEN (R76); or take it again for an accumulating STREAM. -/
def claim (acc : Bool) (c : Ctx) (start n : Nat) (s : State) : State :=
  let x := ftq s n
  setFtq n (if acc then { x with st := .open_, writer := start }
    else { st := .open_, owner := c.val, data := [], tag := x.tag, rows := 0, stamp := x.stamp + 1, writer := start, freeAt := 0 }) s

/-- The rows of a STREAM as they land in one entry, each with the AC in which it is visible. -/
def landList (start L trow occ i : Nat) (rows : List (List W32)) : List (Nat × Nat × List W32) :=
  (List.range (Nat.min 256 (rows.length - 256 * i))).map (fun m =>
    (rowVisible start L trow occ rows.length (256 * i + m), m, rows.getD (256 * i + m) []))

/-- The array units that a STREAM of M rows counts, and the format code they count under: that of the wider operand, on a
tie of the moving one (R386). -/
def macUnits (s : State) (ws : List Nat) (M : Nat) : Nat × Nat :=
  let o := streamOpnd ws M
  (if o.fmt.width < (setFmt s.mxe.active).width then s.mxe.active.fmt else o.fmtCode,
   M * ((if o.fmt = .e2m1 then 8 else 4) + b2n (adpEn ws)))

/-- What a STREAM of M rows and `occ` AC that entered at level L adds to the entries it has claimed: the rows of each, with the AC
in which they become visible, and the flags of its sums (R68, R70, R101). -/
def streamEffs (e : QEnt) (a occ M trow L : Nat) (accMain accStrip : Bool) (s : State) : List Eff :=
  let ws := e.words
  let o := streamOpnd ws M
  let per := if o.fmt = .e2m1 then 64 else 32
  let xs := (List.range M).map (o.line s)
  let main := xs.map (outRow s.mxe.active per 256)
  let strip := if adpEn ws then xs.map (outRow s.mxe.stripActive per 64) else []
  let mk (ns : List Nat) (acc : Bool) (rows : List (List W32)) : List Eff :=
    (List.range ns.length).map (fun i =>
      let n := ns.getD i 0
      .sums n (ftq s n).stamp acc (landList a L trow occ i rows))
  mk (entriesOf (bits (wd ws 5) 14 12) M) accMain (main.map Prod.fst)
    ++ mk (if adpEn ws then entriesOf (adpBase ws) M else []) accStrip (strip.map Prod.fst)
    ++ .accFlags (fOr (main.map Prod.snd) ||| fOr (strip.map Prod.snd)) :: o.txbRead

/-- A STREAM of M rows enters the array in AC `a`: it claims its entries, computes its sums and holds the array entry (R68,
R71, R76, R101). The stamps are those of the entries after the claim.
DEDUCED: log 46. -/
def enterStream (e : QEnt) (a M trow : Nat) (accMain accStrip : Bool) (s : State) : State :=
  let ws := e.words
  let o := streamOpnd ws M
  let L := levelAt s.mxe a
  let em := entriesOf (bits (wd ws 5) 14 12) M
  let es := if adpEn ws then entriesOf (adpBase ws) M else []
  let gs := granules o.ranges
  let occ := Nat.max (streamOcc L (M * trow)) (slotBound s ownMxe (bankGranules s gs))
  let u := macUnits s ws M
  let s := em.foldl (fun s n => claim accMain e.ctx a n s) (landSums a (addTot u.1 u.2 (noteReads s gs)))
  let s := es.foldl (fun s n => claim accStrip e.ctx a n s) s
  beginSpan .mxe e a occ 272 (o.steps.map Prod.fst) 0 (streamEffs e a occ M trow L accMain accStrip s)
    (modMxe (fun m => { m with entryFree := a + occ, lvl := L, lvlAc := a, lvlUp := true }) s)
    (o.steps.map (fun p => rowEnters a L trow occ M p.2 + 1))

/-- The entries that an ungated STREAM opens, and those that it adds into (R76, R103). -/
def streamOpens (ws : List Nat) : List Nat :=
  let M := bits (wd ws 5) 11 0
  (if bit (wd ws 5) 15 then [] else entriesOf (bits (wd ws 5) 14 12) M)
    ++ (if adpEn ws && !adpAcc ws then entriesOf (adpBase ws) M else [])
def streamAdds (ws : List Nat) : List Nat :=
  let M := bits (wd ws 5) 11 0
  (if bit (wd ws 5) 15 then entriesOf (bits (wd ws 5) 14 12) M else [])
    ++ (if adpEn ws && adpAcc ws then entriesOf (adpBase ws) M else [])

/-- An AC no earlier than t in which those of some entries that are being consumed have been freed. -/
def afterConsumers (s : State) (ns : List Nat) (t : Nat) : Nat :=
  ns.foldl (fun t n => if (ftq s n).st = .consuming then Nat.max t (ftq s n).freeAt else t) t

/-- The AC in which an ungated STREAM at the head of the MXE queue starts; none while an entry it opens stays claimed. -/
def streamStart (e : QEnt) (s : State) : Option Nat :=
  let a := afterConsumers s (streamOpens e.words) (Nat.max (readyAc s .mxe e) s.mxe.entryFree)
  if streamOk false e && (streamOpens e.words).any (fun n => decide (ftqStateAt s a n ≠ .free)) then none else some a

/-- An ungated STREAM starts when the array entry is free and every entry it opens is FREE (R28, R76). -/
def startStream (e : QEnt) (s : State) : State :=
  let ws := e.words
  let M := bits (wd ws 5) 11 0
  match streamStart e s with
  | none => s
  | some a =>
    startAt a (fun s =>
      if streamOk false e = false then startFormat .mxe e s else
      match streamRow s ws with
      | none => startFault .mxe e cOPERAND (mismatchDetail s ws) s
      | some t =>
        match badAcc s a e.ctx (streamAdds ws) with
        | some n => startFault .mxe e cFTQ [n, ftqCode (ftqStateAt s a n)] s
        | none =>
          let gs := granules (streamOpnd ws M).ranges
          match accessFault s ownMxe e.ctx (fun r => decide (r = .mxeBuf)) gs [] with
          | some f => accessStop .mxe e f gs s
          | none => enterStream e a M t (bit (wd ws 5) 15) (adpAcc ws) s) s

/-- The last running STREAM is done: the level falls from here (R34). -/
def streamDone (r : Run) (s : State) : State :=
  if s.runs.any (fun x => decide (x.opcode = 0x13)) then s
  else modMxe (fun m => { m with lvl := levelAt m r.doneAc, lvlAc := r.doneAc, lvlUp := false }) s

/-- ARRAY_LEVEL_FALL: 8 AC with no STREAM running, and the level falls by one (R34). -/
def execArrayLevelFall (s : State) : Out :=
  let m := s.mxe
  if m.lvlUp || decide (m.lvl = 0) then .next s
  else .next (modMxe (fun m => { m with lvl := m.lvl - 1, lvlAc := m.lvlAc + 8 }) (advance (2 * (m.lvlAc + 8)) s))

/-! ### The transposing buffers after an untimed point (R90) -/

/-- The buffers' contents become undefined to a context after its untimed point, also those of its loads that have still to land
(R90).
DEDUCED: log 45. -/
def forgetTxb (c : Ctx) (s : State) : State :=
  let s := setQueue s .txb ((queue s .txb).map (fun e => if e.ctx = c then { e with stale := true } else e))
  let s := modMxe (fun m => { m with txb := [], txbGen := s.free }) { s with free := s.free + 1 }
  { s with
    spans := s.spans.map (fun p =>
      if s.runs.any (fun r => decide (r.seat = p.1) && decide (r.opcode = 0x18) && decide (r.ctx = c)) then
        (p.1, { p.2 with dirty := true }) else p)
    runs := s.runs.map (fun r =>
      if r.opcode = 0x18 ∧ r.ctx = c then { r with ent := { r.ent with stale := true } } else r) }

/-! ### The fill gate (R79–R81) -/

/-- The gated STREAM at the head of the MXE queue. -/
def gatedHead (s : State) : Option QEnt :=
  match queue s .mxe with
  | e :: _ => if decide (wd e.words 0 % 256 = 0x13) && bit (wd e.words 5) 23 then some e else none
  | [] => none

/-- The sets that the rows of a STREAM will meet when it enters behind every SWAP that has started (R35, R73). -/
def behindSwaps (s : State) : State := if s.runs.any (fun r => decide (r.opcode = 0x12)) then applySwap s else s

/-- The entries that a gated STREAM opens at its release: its base entry, and the strip's unless that is added into (R79,
R104). -/
def gateOpens (ws : List Nat) : List Nat :=
  bits (wd ws 5) 14 12 :: (if adpEn ws && !adpAcc ws then [adpBase ws] else [])

/-- GATE_ARRIVAL: the gated STREAM at the head of the queue reaches the gate and is checked there, then it samples the count
(R79). The buffer window of a STREAM with src = 1 is checked for 256 columns, the most that a release can take.
DEDUCED: log 103. -/
def execGateArrival (s : State) : Out :=
  match gatedHead s with
  | none => .next s
  | some e =>
    if s.mxe.gate.isSome then .next s
    else if s.pwr.tripped then .next s
    else .next (startAt (readyAc s .mxe e) (fun s =>
      if streamOk true e = false then startFormat .mxe e s
      else match streamRow (behindSwaps s) e.words with
        | none => startFault .mxe e cOPERAND (mismatchDetail (behindSwaps s) e.words) s
        | some _ =>
          let p := bits (wd e.words 6) 21 10
          let g : Gate := ⟨readyAc s .mxe e, false, false, p, gateOpens e.words⟩
          dueEval p (ac s) (modMxe (fun m => { m with gate := some g }) s)) s)

/-- GATE_DEADLINE_EXPIRY: gate_deadline × 16 AC from the arrival at the gate (R79). -/
def execGateDeadlineExpiry (s : State) : Out :=
  match gatedHead s, s.mxe.gate with
  | some e, some g =>
    if g.expired then .next s
    else
      let s := advance (2 * (g.reached + bits (wd e.words 4) 31 16 * 16)) s
      .next (dueEval g.pennant (ac s) (modMxe (fun m => { m with gate := m.gate.map (fun g => { g with expired := true }) }) s))
  | _, _ => .next s

/-- What a gated STREAM of M rows faults with at its release: FTQ_STATE on a strip entry it adds into (R104), or an operand
it may not read. -/
def gateFault (s : State) (a M : Nat) (e : QEnt) : Option (Nat × List Nat) :=
  if M = 0 then none
  else
    match (if adpEn e.words && adpAcc e.words then badAcc s a e.ctx [adpBase e.words] else none) with
    | some n => some (cFTQ, [n, ftqCode (ftqStateAt s a n)])
    | none => accessFault s ownMxe e.ctx (fun r => decide (r = .mxeBuf)) (granules (streamOpnd e.words M).ranges) []

/-- GATE_RELEASE: with the condition met, in the first AC in which the level is 0, array entry free and ftq_base FREE, the
gate takes M = min(count, 256) from the pennant before the take waits, writes gate_reg and releases the STREAM (R79, R80,
R247). A release that meets a fault takes nothing.
DEDUCED: log 46, log 103. -/
def execGateRelease (s : State) : Out :=
  match gatedHead s, s.mxe.gate with
  | some e, some g =>
    let ws := e.words
    let p := bits (wd ws 6) 21 10
    let opens := gateOpens ws
    let strip := adpEn ws && adpAcc ws
    if s.pwr.tripped || !(g.expired || g.met || decide (256 ≤ pennant s p)) then .next s
    else
      match levelZeroAt s.mxe (Nat.max (ac s) s.mxe.entryFree) with
      | none => .next s
      | some a0 =>
        let a := afterConsumers s opens a0
        if opens.any (fun n => decide (ftqStateAt s a n ≠ .free)) then .next s
        else .next (startAt a (fun s =>
          let n := pennant s p
          let M := Nat.min n 256
          let fault (f : Nat × List Nat) : State :=
            dueEval p a (accessStop .mxe e f (granules (streamOpnd ws M).ranges) (modMxe (fun m => { m with gate := none }) s))
          match streamRow s ws, gateFault s a M e with
          | none, _ => fault (cOPERAND, mismatchDetail s ws)
          | _, some f => fault f
          | some t, none =>
            let s := setPennant p (n - M) (evalTops p a s)
            let s := releaseTakes p a s.syn.waits s
            let s := modCtx s e.ctx (fun x =>
              { landAreg a 5 (bits (wd ws 6) 25 22) (BitVec.ofNat 64 M) x with
                point := if x.point = .gated then .releasing a else x.point })
            let s := modMxe (fun m =>
              { m with gate := none, lastM := M, lastByDeadline := decide (n < 256), releases := (m.releases + 1) % 2 ^ 32 }) s
            let s := trace { kind := 5, ctx := some e.ctx, opcode := 0x13, tag := e.tag, time := s.ec, argB := p } s
            let s := if s.dispatched = some e.ctx then forgetTxb e.ctx s else s
            if M = 0 then begin_ .mxe e a 0 0 [] s
            else enterStream e a M t false strip s) s)
  | _, _ => .next s

/-- The issue of MXE.STREAM: a gated one is an untimed point (R25, R79). -/
def issueStream (c : Ctx) (m : Cmd) (s : State) : State :=
  if bit (m.w 5) 23 then
    atPoint (fun c m s =>
      let s' := enqueue .mxe c m s
      if (ctx s' c).pos = m.pos + 1 ∧ (queue s' .mxe).length = (queue s .mxe).length + 1
      then modCtx s' c (fun x => { x with point := .gated }) else s') c m s
  else enqueue .mxe c m s

/-! ### FTQ.CVT (R78, R82) -/

/-- The conditions on an FTQ.CVT. -/
def ftqCvtOk (e : QEnt) : Bool :=
  let ws := e.words
  let ctl := wd ws 3
  let rows := bits (wd ws 6) 12 4
  let cols := bits (wd ws 6) 21 13
  let tr := bit (wd ws 6) 3
  let lineLen := if bit ctl 8 == tr then cols else rows
  decide (e.rsv = 0) && cvtOk ctl
    && decide (wd ws 1 % 64 = 0) && decide (bits (wd ws 4) 23 0 % 64 = 0) && decide (wd ws 7 % 64 = 0)
    && decide (bits (wd ws 4) 31 24 = 0) && decide (bits (wd ws 5) 31 16 = 0) && decide (bits (wd ws 6) 31 22 = 0)
    && decide (1 ≤ rows) && decide (rows ≤ 256) && decide (1 ≤ cols) && decide (cols ≤ 256)
    && (!(cvtFmt ctl).isMx || decide (lineLen % 32 = 0))

/-- The stored lines of the converted rectangle (R78): rows of T under mx_axis 0, columns of T under 1, T transposed or
not. -/
def storedLines (d : List (List W32)) (rows cols : Nat) (tr axis : Bool) : List (List W32) :=
  if tr == axis then (List.range rows).map (fun m => (List.range cols).map (fun c => tileElem d m c))
  else (List.range cols).map (fun c => (List.range rows).map (fun m => tileElem d m c))

/-- Encode the stored lines one after the other; element j of each draws from the converter's generator 256 + j (R52). -/
def cvtLines (s : State) (ctl : Nat) (scale : Val) (mult : List Nat) : List (List W32) → Draws → List CvtOut × Draws
  | [], d => ([], d)
  | l :: ls, d =>
    let r := cvtLine s ctl mult ((List.range l.length).map (fun j =>
      ⟨((f32 (l.getD j 0#32).toNat).mul scale).1, 256 + j, true⟩)) d
    let t := cvtLines s ctl scale mult ls r.draws
    (r :: t.1, t.2)

/-- A command that passed its state check consumes entry n until its end AC (R76). -/
def consume (n till : Nat) (s : State) : State := setFtq n { ftq s n with st := .consuming, freeAt := till } s

/-- The lines of the converted rectangle: how many, and the elements of each (R78). -/
def cvtShape (ws : List Nat) : Nat × Nat :=
  let rows := bits (wd ws 6) 12 4
  let cols := bits (wd ws 6) 21 13
  if bit (wd ws 6) 3 == bit (wd ws 3) 8 then (rows, cols) else (cols, rows)

/-- The bytes a stored line takes. -/
def cvtBytes (ws : List Nat) : Nat := 64 * ceilDiv (elemBytes (cvtFmt (wd ws 3)).width (cvtShape ws).2) 64

/-- Whether the conversion computes a just-in-time scale (R62). -/
def cvtJit (ws : List Nat) (s : State) : Bool :=
  decide ((sctSlot s (bits (wd ws 3) 23 16)).policy = 2) && bit (wd ws 3) 10

/-- What an FTQ.CVT does with the tile its entry holds (R60, R62, R78). -/
def cvtEffs (e : QEnt) (s : State) : List Eff :=
  let ws := e.words
  let ctl := wd ws 3
  let f := cvtFmt ctl
  let k := sctSlot s (bits ctl 23 16)
  let d := (ftq s (bits (wd ws 6) 2 0)).data
  let lines := storedLines d (bits (wd ws 6) 12 4) (bits (wd ws 6) 21 13) (bit (wd ws 6) 3) (bit ctl 8)
  let len := (cvtShape ws).2
  let jit := cvtJit ws s
  let out := computeScale k (tileAmax d)
  let sbits := if jit then (match out with | .scale w _ => w | _ => k.scale) else k.scale
  let scale := if bit ctl 10 then f32 sbits else .one
  let mult := if f = .int8 then readWords s (wd ws 2) len else []
  let cv := cvtLines s ctl scale mult lines []
  let memEffs := (List.range lines.length).flatMap (fun j =>
    match cv.1[j]? with
    | none => []
    | some o =>
      [Eff.mem (wd ws 1 + j * bits (wd ws 4) 23 0)
        (padTo 0#8 (cvtBytes ws) (packBits f.width (o.elems.map (fun p => p.1.getD 0))))]
      ++ (if f.isMx then [Eff.mem (wd ws 2 + j * bits (wd ws 5) 15 0)
        (o.scales.map (fun x => BitVec.ofNat 8 (x.getD 0)))] else []))
  let vals := lines.flatMap (fun l => l.map (fun w => f32 w.toNat))
  memEffs
    ++ (if jit then [Eff.mem (wd ws 7) (padTo 0#8 64 (leBytes 4 sbits))] else [])
    ++ (if bit ctl 9 then [Eff.fold (bits ctl 23 16) (amaxBits (amaxVal vals)) (vals.any (fun v => !v.isFin))] else [])
    ++ (if jit then [Eff.jit (bits ctl 23 16) out] else [])
    ++ drawEffs s cv.2
    ++ [Eff.summary (fOr (cv.1.flatMap (fun o => o.elems.map Prod.snd)))]

/-- The granules an FTQ.CVT reads and writes. -/
def cvtReads (ws : List Nat) : List Nat :=
  if cvtFmt (wd ws 3) = .int8 then granules [(wd ws 2, 4 * (cvtShape ws).2)] else []
def cvtWrites (ws : List Nat) (s : State) : List Nat :=
  let idx := List.range (cvtShape ws).1
  granules (idx.map (fun j => (wd ws 1 + j * bits (wd ws 4) 23 0, cvtBytes ws))
    ++ (if (cvtFmt (wd ws 3)).isMx then idx.map (fun j => (wd ws 2 + j * bits (wd ws 5) 15 0, (cvtShape ws).2 / 32)) else [])
    ++ (if cvtJit ws s then [(wd ws 7, 64)] else []))

/-- The AC in which an FTQ.CVT at the head of the MXE queue starts. -/
def cvtStart (e : QEnt) (s : State) : Nat :=
  afterConsumers s [bits (wd e.words 6) 2 0] (Nat.max (readyAc s .mxe e) s.mxe.cvtFree)

/-- FTQ.CVT starts when the converter and the entry are free (R33, R76, R78). -/
def startFtqCvt (e : QEnt) (s : State) : State :=
  let ws := e.words
  let a := cvtStart e s
  startAt a (fun s =>
    if ftqCvtOk e = false then startFormat .mxe e s
    else
      match badAcc s a e.ctx [bits (wd ws 6) 2 0] with
      | some n => startFault .mxe e cFTQ [n, ftqCode (ftqStateAt s a n)] s
      | none =>
        let reads := cvtReads ws
        let writes := cvtWrites ws s
        match (match badGranule s e.ctx (fun _ => false) reads with
          | some g => some (cADDR, [g, 0])
          | none => accessFault s ownMxe e.ctx (fun r => decide (r = .mxeBuf)) reads writes) with
        | some g => accessStop .mxe e g reads s
        | none =>
          let n := (cvtShape ws).1
          let B := n * cvtBytes ws + (if (cvtFmt (wd ws 3)).isMx then n * ((cvtShape ws).2 / 32) else 0)
          let occ := occupancy s ownMxe (ceilDiv B 1024) reads writes
          let s := landSums a (noteReads s reads)
          beginSpan .mxe e a occ 16 reads 0 (cvtEffs e s)
            (modMxe (fun m => { m with cvtFree := a + occ }) (consume (bits (wd ws 6) 2 0) (a + occ) s)) [] writes) s

/-! ### TXB.LOAD (R86, R88) -/

/-- The conditions on a TXB.LOAD; its window must end at or below byte 524,287. -/
def txbOk (e : QEnt) : Bool :=
  let ws := e.words
  let rows := bits (wd ws 5) 9 0
  let rb := bits (wd ws 5) 22 10
  let off := wd ws 8
  decide (e.rsv = 0) && decide (wd ws 1 % 64 = 0) && decide (bits (wd ws 2) 23 0 % 64 = 0) && decide (off % 64 = 0)
    && decide (bits (wd ws 4) 18 0 % 64 = 0) && decide (bits (wd ws 2) 31 24 = 0) && decide (bits (wd ws 3) 31 20 = 0)
    && decide (bits (wd ws 4) 31 19 = 0) && decide (bits (wd ws 5) 31 23 = 0) && decide (wd ws 6 = 0) && decide (wd ws 7 = 0)
    && decide (1 ≤ rows) && decide (rows ≤ 512) && decide (64 ≤ rb) && decide (rb ≤ 4096) && decide (rb % 64 = 0)
    && decide (off + (rows - 1) * bits (wd ws 4) 18 0 + rb ≤ 524288)

/-- The buffer, the rows and the bytes of a row of a TXB.LOAD, and the address of row i. -/
def txbSel (ws : List Nat) : Nat := bits (wd ws 3) 19 19
def txbRows (ws : List Nat) : Nat := bits (wd ws 5) 9 0
def txbRow (ws : List Nat) (i : Nat) : Range := (wd ws 1 + i * bits (wd ws 2) 23 0, bits (wd ws 5) 22 10)

/-- What a TXB.LOAD does; `id` is the first of its free numbers: the bytes of one issued before an untimed point that has come are
undefined (R90). -/
def txbEffs (e : QEnt) (id : Nat) (s : State) : List Eff :=
  let ws := e.words
  (List.range (txbRows ws)).map (fun i =>
    .txb (txbSel ws) (wd ws 8 + i * bits (wd ws 4) 18 0)
      (if e.stale then (List.range (txbRow ws i).2).map (fun j => Config.freeByte (id + i * 4096 + j))
      else readBytes s (txbRow ws i).1 (txbRow ws i).2))

/-- The AC in which a TXB.LOAD at the head of its queue starts. -/
def txbStart (e : QEnt) (s : State) : Nat := Nat.max (readyAc s .txb e) (SMap.get 0 s.mxe.txbFree (txbSel e.words))

/-- TXB.LOAD starts when the write port of its buffer is free (R33, R86, R89). -/
def startTxb (e : QEnt) (s : State) : State :=
  let ws := e.words
  let a := txbStart e s
  startAt a (fun s =>
    if txbOk e = false then startFormat .txb e s
    else
      let gs := granules ((List.range (txbRows ws)).map (txbRow ws))
      match accessFault s ownMxe e.ctx (fun _ => false) gs [] with
      | some f => accessStop .txb e f gs s
      | none =>
        let occ := occupancy s ownMxe (ceilDiv (txbRows ws * (txbRow ws 0).2) 2048) gs []
        beginSpan .txb e a occ 4 gs s.free (txbEffs e s.free s)
          (modMxe (fun m => { m with txbFree := SMap.set 0 m.txbFree (txbSel ws) (a + occ) })
            (noteReads { s with free := s.free + 2 ^ 21 } gs))) s

/-- Bytes into a transposing buffer. -/
def putTxb (m : SMap W8) (a : Nat) : List W8 → SMap W8
  | [] => m
  | b :: bs => putTxb (SMap.put m a b) (a + 1) bs


/-! ### Rows -/

/-- MXE_FILL (R72). -/
def execMxeFill (sl : Slot) (s : State) : Out := issueRow 0x10 false (enqueue .mxe) sl s
/-- MXE_FILL_A (R102). -/
def execMxeFillA (sl : Slot) (s : State) : Out := issueRow 0x11 false (enqueue .mxe) sl s
/-- MXE_SWAP (R73). -/
def execMxeSwap (sl : Slot) (s : State) : Out := issueRow 0x12 false (enqueue .mxe) sl s
/-- MXE_STREAM (R76, R79). -/
def execMxeStream (sl : Slot) (s : State) : Out := issueRow 0x13 false issueStream sl s
/-- FTQ_CVT (R78). -/
def execFtqCvt (sl : Slot) (s : State) : Out := issueRow 0x14 false (enqueue .mxe) sl s
/-- TXB_LOAD (R86). -/
def execTxbLoad (sl : Slot) (s : State) : Out := issueRow 0x18 false (enqueue .txb) sl s

end Sys2Proof.Machine
end

