-- ==== Sys2Proof/Machine/Vxe.lean ====
section
/-!
DEFINITION. The vector engine (chapter 06): command words, masks, lane flags, and every operation of R120 to R132.
-/
namespace Sys2Proof.Machine

/-! ### Fields (R114, R115) -/

/-- The fields of a VXE command. -/
def vlenOf (ws : List Nat) : Nat := if bits (wd ws 4) 20 0 = 0 then 2 ^ 21 else bits (wd ws 4) 20 0
def rowsOf (ws : List Nat) : Nat := if bits (wd ws 5) 11 0 = 0 then 4096 else bits (wd ws 5) 11 0
def vopOf (ws : List Nat) : Nat := bits (wd ws 4) 26 21
def maskSrc (ws : List Nat) : Nat := bits (wd ws 4) 28 27
def auxReg (ws : List Nat) : Nat := bits (wd ws 4) 31 29
def maskReg (ws : List Nat) : Nat := bits (wd ws 5) 30 27
def aFmtCode (ws : List Nat) : Nat := bits (wd ws 5) 15 12
def bFmtCode (ws : List Nat) : Nat := bits (wd ws 5) 20 17
def dFmtCode (ws : List Nat) : Nat := bits (wd ws 5) 25 22
def aKind (ws : List Nat) : Bool := bit (wd ws 5) 16
def bKind (ws : List Nat) : Bool := bit (wd ws 5) 21
def dKind (ws : List Nat) : Bool := bit (wd ws 5) 26
/-- The format of a code field; a code that names none is refused before it is used. -/
def fmtOf (c : Nat) : Fmt := (Fmt.ofCode c).getD .fp32
def aFmt (ws : List Nat) : Fmt := fmtOf (aFmtCode ws)
def bFmt (ws : List Nat) : Fmt := fmtOf (bFmtCode ws)
def dFmt (ws : List Nat) : Fmt := fmtOf (dFmtCode ws)

/-- The operation families of R115 and R33. -/
inductive VFam where
  | ew | cmp | cvt | flags | move | sred | tred | smx | merge | final | none
deriving DecidableEq, Repr

/-- The family of an operation code; the codes R120 reserves have none. -/
def vFam (v : Nat) : VFam :=
  if v ≤ 7 ∨ v = 0x0C ∨ (0x10 ≤ v ∧ v ≤ 0x1E) then .ew
  else if 8 ≤ v ∧ v ≤ 0x0B then .cmp
  else if v = 0x0D then .cvt
  else if v = 0x0E ∨ v = 0x0F then .flags
  else if 0x30 ≤ v ∧ v ≤ 0x36 then .move
  else if 0x20 ≤ v ∧ v ≤ 0x24 then .sred
  else if 0x28 ≤ v ∧ v ≤ 0x2D then .tred
  else if v = 0x38 ∨ v = 0x3B then .smx
  else if v = 0x39 then .merge
  else if v = 0x3A then .final
  else .none

/-- The operations that read b as a second source. -/
def hasB (v : Nat) : Bool :=
  decide (v ≤ 5) || decide (8 ≤ v ∧ v ≤ 0x0C) || v == 0x15 || v == 0x30 || v == 0x32 || v == 0x33

/-- Whether words 6 and 7 are those of the element-wise family. -/
def ewWords (f : VFam) : Bool :=
  match f with
  | .ew | .cmp | .move => true
  | _ => false

/-- The pitches of a, b and d in granules, and b_mode. -/
def aPitch (ws : List Nat) : Nat := bits (wd ws 6) 15 0
def bPitch (ws : List Nat) : Nat := bits (wd ws 6) 31 16
def dPitch (ws : List Nat) : Nat :=
  match vFam (vopOf ws) with
  | .cvt | .smx => bits (wd ws 6) 31 16
  | .ew | .cmp | .move => bits (wd ws 7) 15 0
  | _ => 0
def bMode (ws : List Nat) : Nat := if ewWords (vFam (vopOf ws)) then bits (wd ws 7) 17 16 else 0
/-- gen_reg, in the two families that have it. -/
def genReg (ws : List Nat) : Nat := bits (wd ws 7) 3 0
def corrReg (ws : List Nat) : Nat := bits (wd ws 7) 7 4
def pOut (ws : List Nat) : Bool := bit (wd ws 7) 8
def cOut (ws : List Nat) : Bool := bit (wd ws 7) 9
/-- The tile fields: entry, axis and rows. -/
def tileEntry (ws : List Nat) : Nat := bits (wd ws 6) 2 0
def tileAxis (ws : List Nat) : Bool := bit (wd ws 6) 3
def tileRows (ws : List Nat) : Nat := bits (wd ws 6) 12 4

/-- The address an escapement register gives: bits [31:0] as taken at issue, with the loop offset of slot 3 (R115, R217). -/
def regAddr (e : QEnt) (r : Nat) : Nat := ((SMap.get 0#64 e.areg r).toNat + e.off3) % 2 ^ 32
/-- The auxiliary, mask-plane and correction addresses. -/
def auxAddr (e : QEnt) : Nat := regAddr e (auxReg e.words)
def maskAddr (e : QEnt) : Nat := regAddr e (maskReg e.words)
def corrAddr (e : QEnt) : Nat := regAddr e (corrReg e.words)

/-! ### Masks (R116, R130) -/

/-- The fields of a generator word (R130). -/
structure Gen where
  q0 : Nat
  k0 : Nat
  window : Nat
  qStep : Nat

/-- The generator word of a command. -/
def genOf (e : QEnt) : Gen :=
  let g := (SMap.get 0#64 e.areg (genReg e.words)).toNat
  ⟨bits g 20 0, bits g 41 21, bits g 62 42, bits g 63 63⟩

/-- Whether element (r, j) lies in the generated mask. -/
def genActive (g : Gen) (r j : Nat) : Bool :=
  let q := g.q0 + r * g.qStep
  let k := g.k0 + j
  decide (k ≤ q) && (decide (g.window = 0) || decide (q - k < g.window))

/-- The first row of which a position counter leaves its 21 bits (R130). -/
def posRange (g : Gen) (rows n : Nat) : Option Nat :=
  if 2 ^ 21 < g.k0 + n then some 0
  else if 2 ^ 21 ≤ g.q0 + (rows - 1) * g.qStep then some (2 ^ 21 - g.q0)
  else none

/-- Whether the command reads a bit plane. -/
def usesPlane (ws : List Nat) : Bool :=
  match maskSrc ws with
  | 0 => false
  | 2 => decide (maskReg ws ≠ 0)
  | _ => true

/-- Row r of a bit plane of n elements per row. -/
def planeRow (a n r : Nat) : Nat := a + r * ceilDiv n 512 * 64

/-- The plane rows a command reads. -/
def planeRanges (e : QEnt) (rows n : Nat) : List Range :=
  if usesPlane e.words then (List.range rows).map (fun r => (planeRow (maskAddr e) n r, ceilDiv n 8)) else []

/-- Whether lane (r, j) is active, rows of n elements (R116, R130). -/
def active (s : State) (e : QEnt) (n r j : Nat) : Bool :=
  let p := (readByte s (planeRow (maskAddr e) n r + j / 8)).getLsbD (j % 8)
  match maskSrc e.words with
  | 0 => true
  | 1 => p
  | 3 => !p
  | _ => genActive (genOf e) r j && (decide (maskReg e.words = 0) || p)

/-! ### Elements -/

/-- The byte range of element j of a packed row at `a`. -/
def elemRange (a w j : Nat) : Range := (a + w * j / 8, (w * j % 8 + w + 7) / 8)
/-- Element j of a packed row at `a`. -/
def readElem (s : State) (a w j : Nat) : Nat :=
  let r := elemRange a w j
  readLE s r.1 r.2 / 2 ^ (w * j % 8) % 2 ^ w

/-- Row r of a, and of d. -/
def aRow (ws : List Nat) (r : Nat) : Nat := wd ws 1 + r * aPitch ws * 64
def dRow (ws : List Nat) (r : Nat) : Nat := wd ws 3 + r * dPitch ws * 64

/-- Element (r, j) of a, its range and its value. -/
def aRange (ws : List Nat) (r j : Nat) : Range := elemRange (aRow ws r) (aFmt ws).width j
def aBits (s : State) (ws : List Nat) (r j : Nat) : Nat := readElem s (aRow ws r) (aFmt ws).width j
def aVal (s : State) (ws : List Nat) (r j : Nat) : Val := decodeElem (aFmt ws) (aKind ws) (aBits s ws r j)

/-- Where b's element for (r, j) lies: tensor, one per row, or scalar (R115). -/
def bPlace (ws : List Nat) (w r j : Nat) : Range :=
  match bMode ws with
  | 0 => elemRange (wd ws 2 + r * bPitch ws * 64) w j
  | 1 => elemRange (wd ws 2) w r
  | _ => elemRange (wd ws 2) w 0
def bRange (ws : List Nat) (r j : Nat) : Range := bPlace ws (bFmt ws).width r j
def bBits (s : State) (ws : List Nat) (r j : Nat) : Nat := readLE s (bRange ws r j).1 (bRange ws r j).2
def bVal (s : State) (ws : List Nat) (r j : Nat) : Val := decodeElem (bFmt ws) (bKind ws) (bBits s ws r j)
/-- b as a 32-bit unsigned integer (PERMUTE, ROTATE, R123). -/
def bWord (s : State) (ws : List Nat) (r j : Nat) : Nat := readLE s (bPlace ws 32 r j).1 4

/-- The destination element (r, j) as a write of its bytes, for formats of whole bytes. -/
def dElem (ws : List Nat) (r j v : Nat) : Nat × List W8 :=
  (dRow ws r + j * ((dFmt ws).width / 8), leBytes ((dFmt ws).width / 8) v)

/-! ### What a command does -/

/-- What an operation reads and writes: source reads whose overlap with d R112 leaves open, other reads, destination
elements, other writes, flags by element index, flags of rows, and further changes. -/
structure VOut where
  srcs : List Range := []
  reads : List Range := []
  dst : List (Nat × List W8) := []
  other : List (Nat × List W8) := []
  fl : List (Nat × Flags) := []
  rowFl : Flags := 0#16
  effs : List Eff := []

/-- The two ranges share a byte.
DESIGN CHOICE: log 44. -/
def overlaps (a b : Range) : Bool := decide (a.1 < b.1 + b.2) && decide (b.1 < a.1 + a.2)

/-- Whether d coincides exactly with a source (R112). -/
def coincides (ws : List Nat) (addr pitch width : Nat) : Bool :=
  decide (addr = wd ws 3) && decide (pitch = dPitch ws) && decide (width = (dFmt ws).width)

/-- The operations that may write over a source in place (R112). -/
def mayCoincide (v : Nat) : Bool :=
  match vFam v with
  | .ew | .cvt => true
  | _ => false

/-- The source reads of element (r, j) of a and of b that are not in exact coincidence with d. -/
def aSrc (ws : List Nat) (r j : Nat) : List Range :=
  if mayCoincide (vopOf ws) && coincides ws (wd ws 1) (aPitch ws) (aFmt ws).width then [] else [aRange ws r j]
def bSrc (ws : List Nat) (r j : Nat) : List Range :=
  if mayCoincide (vopOf ws) && decide (bMode ws = 0) && coincides ws (wd ws 2) (bPitch ws) (bFmt ws).width then []
  else [bRange ws r j]

/-- The pairs (r, j) of a command, in element order. -/
def elems (ws : List Nat) : List (Nat × Nat) :=
  (List.range (rowsOf ws)).flatMap (fun r => (List.range (vlenOf ws)).map (fun j => (r, j)))

/-- The active pairs. -/
def actives (s : State) (e : QEnt) : List (Nat × Nat) :=
  (elems e.words).filter (fun p => active s e (vlenOf e.words) p.1 p.2)

/-- The active elements of row r, of n. -/
def activeIn (s : State) (e : QEnt) (n r : Nat) : List Nat := (List.range n).filter (fun j => active s e n r j)

/-- The index of element (r, j). -/
def idxOf (ws : List Nat) (p : Nat × Nat) : Nat := p.1 * vlenOf ws + p.2

/-! ### Element-wise, transcendental, SELECT and the compares (R120–R122, R125) -/

/-- The exact result of ADD to NEG. -/
def arithVal (v : Nat) (a b d : Val) : Val × Flags :=
  match v with
  | 0 => a.add b
  | 1 => a.sub b
  | 2 => a.mul b
  | 3 => a.fma b d
  | 4 => (a.min b, fNone)
  | 5 => (a.max b, fNone)
  | 6 => (a.abs, fNone)
  | _ => (a.neg, fNone)

/-- The transcendentals in the order of their codes, from 0x10 on. -/
def tops : List TOp :=
  [.exp, .exp2, .log, .log2, .rcp, .div, .sqrt, .rsqrt, .tanh, .sigmoid, .silu, .gelu, .erf, .sin, .cos]

/-- The value an element-wise operation encodes into d; `on` is the lane's mask bit, `id` numbers the evaluation.
DEDUCED: log 49. -/
def ewVal (v id : Nat) (on : Bool) (a b d : Val) : Val × Flags :=
  if v ≤ 7 then arithVal v a b d
  else if v = 0x0C then (if on then a else b, fNone)
  else (tops.getD (v - 0x10) .exp).eval id a b

/-- An element-wise operation: one rounding into d (R121, R125).
DEDUCED: log 49. -/
def vEw (s : State) (e : QEnt) (id : Nat) : VOut :=
  let ws := e.words
  let v := vopOf ws
  let ps := if v = 0x0C then elems ws else actives s e
  let one (p : Nat × Nat) : (Nat × List W8) × Nat × Flags :=
    let x := ewVal v (id + idxOf ws p) (active s e (vlenOf ws) p.1 p.2) (aVal s ws p.1 p.2) (bVal s ws p.1 p.2)
      (decodeElem (dFmt ws) (dKind ws) (readElem s (dRow ws p.1) (dFmt ws).width p.2))
    let w := encodeArith (dFmt ws) x.1
    (dElem ws p.1 p.2 w.1, idxOf ws p, x.2 ||| w.2)
  let src (p : Nat × Nat) : List Range :=
    if v = 0x0C then (if active s e (vlenOf ws) p.1 p.2 then aSrc ws p.1 p.2 else bSrc ws p.1 p.2)
    else aSrc ws p.1 p.2 ++ (if hasB v then bSrc ws p.1 p.2 else [])
  let all (p : Nat × Nat) : List Range :=
    (if v = 0x0C then (if active s e (vlenOf ws) p.1 p.2 then [aRange ws p.1 p.2] else [bRange ws p.1 p.2])
     else aRange ws p.1 p.2 :: (if hasB v then [bRange ws p.1 p.2] else []))
    ++ (if v = 3 then [elemRange (dRow ws p.1) (dFmt ws).width p.2] else [])
  { srcs := ps.flatMap src
    reads := ps.flatMap all ++ planeRanges e (rowsOf ws) (vlenOf ws)
    dst := ps.map (fun p => (one p).1)
    fl := ps.map (fun p => (one p).2) }

/-- A compare (R122). -/
def cmpHolds (v : Nat) (a b : Val) : Bool :=
  match v with
  | 0x08 => Val.eqv a b
  | 0x09 => !Val.eqv a b
  | 0x0A => Val.lt a b
  | _ => Val.le a b

/-- Eight bits as a byte, bit 0 first. -/
def byteOf (l : List Bool) : W8 := BitVec.ofNat 8 (l.foldr (fun b n => b2n b + 2 * n) 0)

/-- A compare writes whole bytes of a bit plane; a masked lane writes 0 (R117, R122). -/
def vCmp (s : State) (e : QEnt) : VOut :=
  let ws := e.words
  let n := vlenOf ws
  let ps := actives s e
  { srcs := ps.flatMap (fun p => [aRange ws p.1 p.2, bRange ws p.1 p.2])
    reads := ps.flatMap (fun p => [aRange ws p.1 p.2, bRange ws p.1 p.2]) ++ planeRanges e (rowsOf ws) n
    dst := (List.range (rowsOf ws)).flatMap (fun r => (List.range (ceilDiv n 8)).map (fun k =>
      (planeRow (wd ws 3) n r + k, [byteOf ((List.range 8).map (fun i =>
        decide (8 * k + i < n) && active s e n r (8 * k + i)
          && cmpHolds (vopOf ws) (aVal s ws r (8 * k + i)) (bVal s ws r (8 * k + i))))]))) }

/-! ### CVT (R126) -/

/-- The bytes that a packed row takes when the elements given are written into it and the rest keep their bits; only the
bytes that a written element reaches are answered.
DEDUCED: log 51. -/
def packMasked (s : State) (a w : Nat) (l : List (Option Nat)) : List (Nat × List W8) :=
  (List.range ((w * l.length + 7) / 8)).filterMap (fun k =>
    let old := (readByte s (a + k)).toNat
    let bitsOf := (List.range 8).map (fun i =>
      let p := 8 * k + i
      match l.getD (p / w) none with
      | some v => (true, bit v (p % w))
      | none => (false, bit old i))
    if bitsOf.any Prod.fst then some (a + k, [byteOf (bitsOf.map Prod.snd)]) else none)

/-- The scale byte or factor that the source of element (r, j) takes, and where it lies. -/
def cvtAux (ws : List Nat) (r j : Nat) : List Range :=
  if (aFmt ws).isMx then [(wd ws 2 + r * vlenOf ws / 32 + j / 32, 1)]
  else if aFmt ws = .int8 then [(wd ws 2 + 4 * j, 4)] else []

/-- The exact source value of element (r, j), with the flags of its decode (R43, R45). -/
def cvtSrc (s : State) (ws : List Nat) (r j : Nat) : Val × Flags :=
  let v := aVal s ws r j
  if (aFmt ws).isMx then
    (decodeMx (aFmt ws) (aKind ws) (readByte s (wd ws 2 + r * vlenOf ws / 32 + j / 32)).toNat (aBits s ws r j), fNone)
  else if aFmt ws = .int8 then v.mul (f32 (readLE s (wd ws 2 + 4 * j) 4))
  else (v, fNone)

/-- Row r converted: its writes, its scale bytes and the flags of its elements; every bit of an element that overlaps a source
of another is unspecified (R112).
DEDUCED: log 51. -/
def cvtRow (s : State) (e : QEnt) (id : Nat) (srcs : List Range) (scale : Val) (mult : List Nat) (L r : Nat) (d : Draws) :
    (List (Nat × List W8) × List (Nat × List W8) × List (Nat × Flags)) × Draws :=
  let ws := e.words
  let n := vlenOf ws
  let src := (List.range n).map (fun j => cvtSrc s ws r j)
  let o := cvtLine s (wd ws 7) mult ((List.range n).map (fun j =>
    ⟨((src.getD j (.zero, fNone)).1.mul scale).1, (r * n + j) % L, active s e n r j⟩)) d
  let w := (dFmt ws).width
  let bitsAt (j : Nat) : Option Nat := (o.elems.getD j (none, fNone)).1.map (fun v =>
    if srcs.any (overlaps (elemRange (dRow ws r) w j)) then (Config.freeWord (id + r * n + j)).toNat % 2 ^ w else v)
  (( packMasked s (dRow ws r) w ((List.range n).map bitsAt),
     (List.range o.scales.length).filterMap (fun b =>
       (o.scales.getD b none).map (fun X => (auxAddr e + r * n / 32 + b, [BitVec.ofNat 8 X]))),
     (activeIn s e n r).map (fun j =>
       (r * n + j, (o.elems.getD j (none, fNone)).2 ||| (src.getD j (.zero, fNone)).2)) ), o.draws)

/-- The rows converted in order. -/
def cvtRows (s : State) (e : QEnt) (id : Nat) (srcs : List Range) (scale : Val) (mult : List Nat) (L : Nat) : List Nat → Draws →
    List (List (Nat × List W8) × List (Nat × List W8) × List (Nat × Flags)) × Draws
  | [], d => ([], d)
  | r :: rs, d =>
    let x := cvtRow s e id srcs scale mult L r d
    let t := cvtRows s e id srcs scale mult L rs x.2
    (x.1 :: t.1, t.2)

/-- CVT. -/
def vCvt (s : State) (e : QEnt) (L id : Nat) : VOut :=
  let ws := e.words
  let ctl := wd ws 7
  let n := vlenOf ws
  let slot := bits ctl 23 16
  let scale := if bit ctl 10 then f32 (sctSlot s slot).scale else .one
  let mult := if dFmt ws = .int8 then readWords s (auxAddr e) n else []
  let ps := actives s e
  let srcs := ps.flatMap (fun p => aSrc ws p.1 p.2 ++ cvtAux ws p.1 p.2)
  let rs := cvtRows s e id srcs scale mult L (List.range (rowsOf ws)) []
  let vals := ps.map (fun p => (cvtSrc s ws p.1 p.2).1)
  { reads := ps.flatMap (fun p => aRange ws p.1 p.2 :: cvtAux ws p.1 p.2
        ++ (if dFmt ws = .int8 then [(auxAddr e + 4 * p.2, 4)] else []))
      ++ planeRanges e (rowsOf ws) n
    dst := rs.1.flatMap (fun x => x.1)
    other := rs.1.flatMap (fun x => x.2.1)
    fl := rs.1.flatMap (fun x => x.2.2)
    effs := (if bit ctl 9 then [.fold slot (amaxBits (amaxVal vals)) (vals.any (fun v => !v.isFin))] else [])
      ++ drawEffs s rs.2 }

/-! ### Permute, shuffle, pack and unpack (R123, R124) -/

/-- One moved element: from (r, j) of a to element k of row r of d. -/
def moveA (s : State) (ws : List Nat) (r j k : Nat) : Range × (Nat × List W8) :=
  (aRange ws r j, dElem ws r k (aBits s ws r j))

/-- What row r of a move does: moved elements, further destination elements, further source reads, other writes and flags. -/
def moveRow (s : State) (e : QEnt) (r : Nat) :
    List (Range × (Nat × List W8)) × List (Nat × List W8) × List Range × List (Nat × List W8) × List (Nat × Flags) :=
  let ws := e.words
  let n := vlenOf ws
  let on := activeIn s e n r
  match vopOf ws with
  | 0x30 =>
    (on.filterMap (fun j => if bWord s ws r j < n then some (moveA s ws r (bWord s ws r j) j) else none),
     on.filterMap (fun j => if bWord s ws r j < n then none else some (dElem ws r j 0)),
     on.map (fun j => bPlace ws 32 r j), [],
     on.filterMap (fun j => if bWord s ws r j < n then none else some (r * n + j, fRange)))
  | 0x31 => (on.map (fun j => moveA s ws r (n - 1 - j) j), [], [], [], [])
  | 0x32 =>
    (on.map (fun j => moveA s ws r ((j + bWord s ws r 0) % n) j), [],
     if on = [] then [] else [bPlace ws 32 r 0], [], [])
  | 0x33 =>
    (on.flatMap (fun j => [moveA s ws r j (2 * j), (bRange ws r j, dElem ws r (2 * j + 1) (bBits s ws r j))]),
     [], [], [], [])
  | 0x34 => (on.map (fun j => moveA s ws r (if j < n / 2 then 2 * j else 2 * (j - n / 2) + 1) j), [], [], [], [])
  | 0x35 =>
    ((List.range on.length).map (fun k => moveA s ws r (on.getD k 0) k), [], [],
     [(auxAddr e + 4 * r, leBytes 4 on.length)], [])
  | _ => ((List.range on.length).map (fun k => moveA s ws r k (on.getD k 0)), [], [], [], [])

/-- A move: elements are copied, never converted. -/
def vMove (s : State) (e : QEnt) : VOut :=
  let rs := (List.range (rowsOf e.words)).map (moveRow s e)
  let src := rs.flatMap (fun x => x.1.map Prod.fst ++ x.2.2.1)
  { srcs := src
    reads := src ++ planeRanges e (rowsOf e.words) (vlenOf e.words)
    dst := rs.flatMap (fun x => x.1.map Prod.snd ++ x.2.1)
    other := rs.flatMap (fun x => x.2.2.2.1)
    fl := rs.flatMap (fun x => x.2.2.2.2) }

/-! ### Reductions (R127, R128) -/

/-- Combine the terms of a list two at a time in an order that the core does not fix (R4, R127): `id` numbers the
reduction, `step` its combinations. -/
def freeTree {α : Type} (op : Nat → α → α → α) (d : α) (id : Nat) : (fuel step : Nat) → List α → α
  | 0, _, l => l.headD d
  | fuel + 1, step, l =>
    if l.length ≤ 1 then l.headD d
    else
      let i := Config.sumPick id (2 * step) l.length % l.length
      let x := l.getD i d
      let l := l.eraseIdx i
      let j := Config.sumPick id (2 * step + 1) l.length % l.length
      freeTree op d id fuel (step + 1) (op step x (l.getD j d) :: l.eraseIdx j)

/-- A term of a sum: its value, the element index it carries, and the flags raised so far by index. -/
abbrev SumTerm := Val × Nat × List (Nat × Flags)

/-- The FP32 sum of terms (value, index) in a free order (R127). -/
def freeSum (id : Nat) (l : List (Nat × Val)) : Val × List (Nat × Flags) :=
  let ts : List SumTerm := l.map (fun p => (p.2, p.1, []))
  let ts := if Config.sumFromZero id then ts ++ [(.zero, (l.headD (0, .zero)).1, [])] else ts
  let r := freeTree (fun _ x y =>
    let z := x.1.add y.1
    let w := roundF32 z.1
    (w.1, x.2.1, (x.2.1, z.2 ||| w.2) :: x.2.2 ++ y.2.2)) (.zero, 0, []) id ts.length 0 ts
  let w := roundF32 r.1
  (w.1, (r.2.1, w.2) :: r.2.2)

/-- The square of an element as a term of SUMSQ: exact, or rounded to FP32 before it is added, which R127 does not say. -/
def sqTerm (id : Nat) (v : Val) : Val × Flags :=
  let p := v.mul v
  if Config.freeChoice id % 2 = 0 then p else let r := roundF32 p.1; (r.1, p.2 ||| r.2)

/-- One reduction over (index, value) pairs: 0 SUM, 1 MAX, 2 MIN, 3 AMAX, 4 SUMSQ; with no element +0, −∞, +∞, −∞, +0.
DEDUCED: log 50. -/
def reduce (kind id : Nat) (l : List (Nat × Val)) : Val × List (Nat × Flags) :=
  match kind with
  | 0 => if l = [] then (.zero, []) else freeSum id l
  | 1 => (l.foldl (fun m p => m.max p.2) (.inf true), [])
  | 2 => (l.foldl (fun m p => m.min p.2) (.inf false), [])
  | 3 => (l.foldl (fun m p => m.max p.2.abs) (.inf true), [])
  | _ =>
    if l = [] then (.zero, []) else
    let r := freeSum id (l.map (fun p => (p.1, (sqTerm id p.2).1)))
    (r.1, r.2 ++ l.map (fun p => (p.1, (sqTerm id p.2).2)))

/-- The results of a reduction as a dense vector at d (R127): result k raises its encoding's flags at index k. -/
def redResults (ws : List Nat) (rs : List (Val × List (Nat × Flags))) : List (Nat × List W8) × List (Nat × Flags) :=
  let w := (dFmt ws).width / 8
  let enc := rs.map (fun r => encodeArith (dFmt ws) r.1)
  ((List.range enc.length).map (fun k => (wd ws 3 + k * w, leBytes w (enc.getD k (0, fNone)).1)),
   rs.flatMap Prod.snd ++ (List.range enc.length).map (fun k => (k, (enc.getD k (0, fNone)).2)))

/-- The groups of elements a reduction reduces: rows, or columns. -/
def redGroups (axis : Bool) (rows n : Nat) : List (List (Nat × Nat)) :=
  if axis then (List.range rows).map (fun r => (List.range n).map (fun j => (r, j)))
  else (List.range n).map (fun j => (List.range rows).map (fun r => (r, j)))

/-- A stream reduction.
DEDUCED: log 50. -/
def vSred (s : State) (e : QEnt) (id : Nat) : VOut :=
  let ws := e.words
  let n := vlenOf ws
  let gs := (redGroups (bit (wd ws 6) 16) (rowsOf ws) n).map (fun g => g.filter (fun p => active s e n p.1 p.2))
  let rs := (List.range gs.length).map (fun k =>
    reduce (vopOf ws - 0x20) (id + k) ((gs.getD k []).map (fun p => (idxOf ws p, aVal s ws p.1 p.2))))
  let o := redResults ws rs
  let rd := (actives s e).map (fun p => aRange ws p.1 p.2)
  { srcs := rd, reads := rd ++ planeRanges e (rowsOf ws) n, dst := o.1, fl := o.2 }

/-! ### Softmax states (R129–R131) -/

/-- A softmax row state. -/
structure Smx where
  m : Val
  l : Val
  nInf : Nat
  nan : Bool

/-- The empty state. -/
def Smx.empty : Smx := ⟨.inf true, .zero, 0, false⟩

/-- The state held at an address (R129). -/
def smxRead (s : State) (a : Nat) : Smx :=
  ⟨f32 (readLE s a 4), f32 (readLE s (a + 4) 4), bits (readLE s (a + 8) 4) 21 0, bit (readLE s (a + 8) 4) 22⟩

/-- The sixteen bytes of a state (R129). -/
def smxBytes (x : Smx) : List W8 :=
  leBytes 4 (toF32 x.m).1 ++ leBytes 4 (toF32 x.l).1 ++ leBytes 4 (x.nInf % 2 ^ 22 + b2n x.nan * 2 ^ 22) ++ leBytes 4 0

/-- The correction factor e(a, b) (R131), with the flags of its exponential. -/
def corrE (id : Nat) (a b : Val) : Val × Flags :=
  if Val.eqv a b then (.one, fNone)
  else if a = .inf true ∨ b = .inf false then (.zero, fNone)
  else
    let d := roundF32 (a.sub b).1
    let x := TOp.exp.eval id d.1 .zero
    (x.1, x.2 ||| (d.2 &&& fInexact))

/-- The state of the union of two sets of positions (R131). A count of infinities beyond the 22 bits of its field has no value
in the manual and is free.
DESIGN CHOICE: log 50. -/
def smxMerge (id : Nat) (x y : Smx) : Smx :=
  let t := x.nInf + y.nInf
  let n := if t < 2 ^ 22 then t else Config.freeNat id % 2 ^ 22
  if 0 < t then ⟨.inf false, .fin false n 0, n, x.nan || y.nan⟩
  else
    let m := x.m.max y.m
    if m = .inf true then ⟨m, .zero, 0, x.nan || y.nan⟩
    else
      let p := x.l.mul (corrE id x.m m).1
      let q := y.l.mul (corrE (id + 1) y.m m).1
      ⟨m, (roundF32 (p.1.add q.1).1).1, 0, x.nan || y.nan⟩

/-- The state of one position (R131). -/
def smxOne (v : Val) : Smx :=
  match v with
  | .nan => ⟨.inf true, .zero, 0, true⟩
  | .inf false => ⟨.inf false, .one, 1, false⟩
  | .inf true => .empty
  | v => ⟨v, .one, 0, false⟩

/-- Merge several states in a free order; `id` numbers the first evaluation. -/
def smxAll (id : Nat) (l : List Smx) : Smx :=
  freeTree (fun k x y => smxMerge (id + 2 * k) x y) .empty id l.length 0 l

/-- An FP32 word of the value. -/
def f32Bytes (v : Val) : List W8 := leBytes 4 (toF32 v).1

/-- The value and flags that SMX_STATE with p_out or SMX_NORM gives position (r, j): `on` whether it is active (R132). -/
def smxPos (f : Fmt) (norm on : Bool) (id : Nat) (st : Smx) (x : Val) : Nat × Flags :=
  if st.nan then encodeArith f .nan
  else if norm && decide (st.m = .inf true) then encodeArith f .zero
  else if st.m = .inf false then
    if on && decide (x = .inf false) then
      if norm then (match f.layout false with
        | some L => L.div .one (.fin false st.nInf 0)
        | none => (0, fNone))
      else encodeArith f .one
    else encodeArith f .zero
  else if !on || decide (x = .inf true) then encodeArith f .zero
  else
    let c := corrE id x st.m
    if norm then (match f.layout false with
      | some L => let q := L.div c.1 st.l; (q.1, q.2 ||| c.2)
      | none => (0, fNone))
    else let w := encodeArith f c.1; (w.1, w.2 ||| c.2)

/-- SMX_STATE and SMX_NORM (R132). -/
def vSmx (s : State) (e : QEnt) (id : Nat) : VOut :=
  let ws := e.words
  let n := vlenOf ws
  let norm := decide (vopOf ws = 0x3B)
  let rows := List.range (rowsOf ws)
  let old (r : Nat) : Smx := smxRead s (wd ws 2 + 16 * r)
  let base (r : Nat) : Nat := id + r * (3 * n + 3)
  let new (r : Nat) : Smx := if norm then old r
    else smxAll (base r) (old r :: (activeIn s e n r).map (fun j => smxOne (aVal s ws r j)))
  let out := norm || pOut ws
  let pos (r j : Nat) : Nat × Flags :=
    smxPos (dFmt ws) norm (active s e n r j) (base r + 2 * n + 2 + j) (new r) (aVal s ws r j)
  let rd := (actives s e).map (fun p => aRange ws p.1 p.2)
  let st := rows.map (fun r => (wd ws 2 + 16 * r, 16))
  { srcs := rd ++ (if out then st else [])
    reads := rd ++ st ++ planeRanges e (rowsOf ws) n
    dst := if out then (elems ws).map (fun p => dElem ws p.1 p.2 (pos p.1 p.2).1) else []
    other := if norm then [] else
      rows.map (fun r => (wd ws 2 + 16 * r, smxBytes (new r)))
      ++ (if cOut ws then rows.map (fun r => (corrAddr e + 4 * r,
            f32Bytes (if (new r).nan then .nan else (corrE (base r + 3 * n + 2) (old r).m (new r).m).1))) else [])
    fl := if out then (elems ws).map (fun p => (idxOf ws p, (pos p.1 p.2).2)) else []
    rowFl := fOr (rows.map (fun r =>
      fIf (new r).nan fNanRow ||| fIf (norm && !(new r).nan && decide ((new r).m = .inf true)) fEmptyRow)) }

/-- SMX_MERGE (R132). -/
def vMerge (s : State) (e : QEnt) (id : Nat) : VOut :=
  let ws := e.words
  let n := vlenOf ws
  let rows := List.range (rowsOf ws)
  let src := rows.flatMap (fun r => (wd ws 2 + 16 * r, 16) :: (List.range n).map (fun k => (aRow ws r + 16 * k, 16)))
  { srcs := src, reads := src
    dst := rows.map (fun r => (wd ws 3 + 16 * r, smxBytes (smxAll (id + r * (2 * n + 2))
      (smxRead s (wd ws 2 + 16 * r) :: (List.range n).map (fun k => smxRead s (aRow ws r + 16 * k)))))) }

/-- The factor of SMX_FINAL, the flags of its lane and the flags of its row (R132). -/
def finalRow (id : Nat) (A G : Smx) : Nat × Flags × Flags :=
  if G.nan then (f32Nan, fNone, fNanRow)
  else if G.m = .inf true then (0, fNone, fEmptyRow)
  else if Val.lt G.m A.m then (f32Nan, fInvalid, fNone)
  else
    let c := corrE id A.m G.m
    let q := divF32 c.1 G.l
    (q.1, q.2 ||| c.2, fNone)

/-- SMX_FINAL. -/
def vFinal (s : State) (e : QEnt) (id : Nat) : VOut :=
  let ws := e.words
  let rows := List.range (rowsOf ws)
  let f (r : Nat) := finalRow (id + r) (smxRead s (wd ws 1 + 16 * r)) (smxRead s (wd ws 2 + 16 * r))
  let src := rows.flatMap (fun r => [(wd ws 1 + 16 * r, 16), (wd ws 2 + 16 * r, 16)])
  { srcs := src, reads := src
    dst := rows.map (fun r => (wd ws 3 + 4 * r, leBytes 4 (f r).1))
    fl := rows.map (fun r => (r, (f r).2.1))
    rowFl := fOr (rows.map (fun r => (f r).2.2)) }

/-- Element (m, c) of the tile as the reduction that starts in AC `a` reads it, in AC a + 4m + ⌊c ÷ 64⌋ (R77, R128). -/
def tileRead (s : State) (a n m c : Nat) : Val := f32 (tileElem (ftqData s (a + 4 * m + c / 64) n) m c).toNat

/-- An FTQ-tile reduction or TSTATE (R128); its mask planes have rows of 256 positions. -/
def vTred (s : State) (e : QEnt) (a id : Nat) : VOut :=
  let ws := e.words
  let nr := tileRows ws
  let ent := tileEntry ws
  if vopOf ws = 0x2D then
    let rows := List.range nr
    let new (r : Nat) : Smx := smxAll (id + r * 514)
      (smxRead s (wd ws 2 + 16 * r) :: (activeIn s e 256 r).map (fun c => smxOne (tileRead s a ent r c)))
    { reads := rows.map (fun r => (wd ws 2 + 16 * r, 16)) ++ planeRanges e nr 256
      other := rows.map (fun r => (wd ws 2 + 16 * r, smxBytes (new r))) }
  else
    let gs := (redGroups (tileAxis ws) nr 256).map (fun g => g.filter (fun p => active s e 256 p.1 p.2))
    let rs := (List.range gs.length).map (fun k =>
      reduce (vopOf ws - 0x28) (id + k) ((gs.getD k []).map (fun p => (256 * p.1 + p.2, tileRead s a ent p.1 p.2))))
    let o := redResults ws rs
    { reads := planeRanges e nr 256, dst := o.1, fl := o.2 }

/-- FLAGS_STORE and FLAGS_CLEAR (R119). -/
def vFlags (s : State) (e : QEnt) : VOut :=
  if vopOf e.words = 0x0E then
    { dst := [(wd e.words 3, (List.range 64).flatMap (fun w => leBytes 4 (SMap.get 0#16 (ctx s e.ctx).lane w).toNat))] }
  else { effs := [.laneClear] }

/-! ### Format conditions (R113–R132, R445) -/

/-- The mask fields that go unused: mask_reg without a mask, gen_reg without the generator. -/
def maskUnusedZero (ws : List Nat) (gen : Bool) : Bool :=
  (decide (maskSrc ws ≠ 0) || decide (maskReg ws = 0)) && (!gen || decide (maskSrc ws = 2) || decide (bits (wd ws 7) 3 0 = 0))

/-- The fields that an operation, or its mode, does not use are 0 (R113, R114, R445).
DEDUCED: log 48. -/
def vUnusedZero (ws : List Nat) : Bool :=
  let v := vopOf ws
  let b0 := decide (bFmtCode ws = 0) && !bKind ws
  let d0 := decide (dFmtCode ws = 0) && !dKind ws
  let a0 := decide (aFmtCode ws = 0) && !aKind ws
  let aux0 := decide (auxReg ws = 0)
  let noB := b0 && decide (wd ws 2 = 0)
  maskUnusedZero ws (decide (vFam v = .smx) || decide (v = 0x2D)) &&
  match vFam v with
  | .ew | .cmp | .move =>
    (if hasB v then decide (bMode ws = 0) || decide (bPitch ws = 0)
     else noB && decide (bPitch ws = 0) && decide (bMode ws = 0))
      && (v == 0x35 || aux0) && (!decide (vFam v = .cmp) || decide (dPitch ws = 0))
      && decide (bits (wd ws 7) 31 18 = 0)
  | .cvt =>
    b0 && ((aFmt ws).isMx || decide (aFmt ws = .int8) || decide (wd ws 2 = 0))
      && ((dFmt ws).isMx || decide (dFmt ws = .int8) || aux0)
  | .sred => noB && aux0 && decide (bits (wd ws 6) 31 17 = 0) && decide (wd ws 7 = 0)
  | .tred =>
    a0 && b0 && decide (wd ws 1 = 0) && aux0 && decide (bits (wd ws 6) 31 13 = 0) && decide (bits (wd ws 7) 31 4 = 0)
      && decide (bits (wd ws 4) 20 0 = 0) && decide (bits (wd ws 5) 11 0 = 0)
      && (if v = 0x2D then decide (wd ws 3 = 0) && d0 else decide (wd ws 2 = 0) && decide (wd ws 7 = 0))
  | .smx =>
    b0 && aux0 && decide (bits (wd ws 7) 31 10 = 0) && (v == 0x38 || decide (bits (wd ws 7) 9 4 = 0))
      && (cOut ws || decide (bits (wd ws 7) 7 4 = 0))
      && (v != 0x38 || pOut ws || (d0 && decide (wd ws 3 = 0) && decide (bits (wd ws 6) 31 16 = 0)))
  | .merge | .final =>
    a0 && b0 && d0 && aux0 && decide (maskReg ws = 0) && decide (maskSrc ws = 0) && decide (bits (wd ws 6) 31 16 = 0)
      && decide (wd ws 7 = 0) && (v == 0x39 || (decide (wd ws 6 = 0) && decide (vlenOf ws = 1)))
  | .flags =>
    a0 && b0 && d0 && aux0 && decide (maskReg ws = 0) && decide (maskSrc ws = 0) && decide (wd ws 1 = 0)
      && decide (wd ws 2 = 0) && decide (wd ws 6 = 0) && decide (wd ws 7 = 0) && decide (rowsOf ws = 1)
      && decide (vlenOf ws = 64) && (v == 0x0E || decide (wd ws 3 = 0))
  | .none => false

/-- The element alignment of a format in bytes (R110). -/
def alignOf (f : Fmt) : Nat := Nat.max 1 (f.width / 8)

/-- The alignment of every address the operation uses (R110).
DEDUCED: log 48. -/
def vAligned (e : QEnt) : Bool :=
  let ws := e.words
  let v := vopOf ws
  let a1 := decide (wd ws 1 % alignOf (aFmt ws) = 0)
  let b1 := !hasB v || decide (wd ws 2 % alignOf (bFmt ws) = 0)
  let d1 := decide (wd ws 3 % alignOf (dFmt ws) = 0)
  match vFam v with
  | .ew => a1 && b1 && d1
  | .cmp => a1 && b1
  | .move => a1 && b1 && d1 && (v != 0x35 || decide (auxAddr e % 4 = 0))
  | .cvt => a1 && d1 && (decide (aFmt ws ≠ .int8) || decide (wd ws 2 % 4 = 0))
      && (decide (dFmt ws ≠ .int8) || decide (auxAddr e % 4 = 0))
  | .sred => a1 && d1
  | .tred => if v = 0x2D then decide (wd ws 2 % 16 = 0) else d1
  | .smx => a1 && d1 && decide (wd ws 2 % 16 = 0) && (!cOut ws || decide (corrAddr e % 4 = 0))
  | .merge => decide (wd ws 1 % 16 = 0) && decide (wd ws 2 % 16 = 0) && decide (wd ws 3 % 16 = 0)
  | .final => decide (wd ws 1 % 16 = 0) && decide (wd ws 2 % 16 = 0) && decide (wd ws 3 % 4 = 0)
  | .flags => decide (wd ws 3 % 4 = 0)
  | .none => false

/-- A format field: a listed code, its kind bit only with code 5, and codes 5 to 10 only for CVT (R113, R114). -/
def fmtFieldOk (cvt : Bool) (c : Nat) (k : Bool) : Bool :=
  decide (c ≤ (if cvt then 10 else 4)) && (!k || decide (c = 5))

/-- The layout conditions of a VXE command. -/
def vxeOk (e : QEnt) : Bool :=
  let ws := e.words
  let v := vopOf ws
  let f := vFam v
  let cvt := decide (f = .cvt)
  decide (f ≠ .none) && decide (e.rsv = 0) && !bit (wd ws 5) 31
    && fmtFieldOk cvt (aFmtCode ws) (aKind ws) && fmtFieldOk cvt (bFmtCode ws) (bKind ws)
    && fmtFieldOk cvt (dFmtCode ws) (dKind ws)
    && (decide (maskSrc ws ≠ 2) || decide (f = .smx) || v == 0x2D)
    && (v != 0x0C || maskSrc ws == 1 || maskSrc ws == 3)
    && decide (bMode ws ≠ 3)
    && (decide (f ≠ .cmp) || (decide (dFmtCode ws = 0) && !dKind ws))
    && (decide (f ≠ .move) || (decide (dFmtCode ws = aFmtCode ws) && decide (dKind ws = aKind ws)))
    && (v != 0x33 || (decide (bFmtCode ws = aFmtCode ws) && decide (bKind ws = aKind ws)))
    && ((v != 0x30 && v != 0x32) || (decide (bFmtCode ws = 0) && !bKind ws))
    && (v != 0x32 || decide (bMode ws ≠ 0))
    && (v != 0x34 || decide (vlenOf ws % 2 = 0))
    && (decide (f ≠ .tred) || (decide (1 ≤ tileRows ws) && decide (tileRows ws ≤ 256) && (v != 0x2D || tileAxis ws)))
    && (!cvt || (cvtOk (wd ws 7) && !bit (wd ws 7) 8 && decide (bits (wd ws 7) 3 0 = dFmtCode ws)
        && decide (bit (wd ws 7) 4 = dKind ws)
        && (!((aFmt ws).isMx || (dFmt ws).isMx) || decide (vlenOf ws % 32 = 0))))
    && vUnusedZero ws && vAligned e

/-- L: elements per AC (R111). SMX_STATE without p_out writes no d, and d_fmt does not enter its L.
DEDUCED: log 48. -/
def vLanes (ws : List Nat) : Nat :=
  let v := vopOf ws
  let w := match vFam v with
    | .merge | .final => 0
    | .tred => 32
    | .cmp => Nat.max (aFmt ws).width (bFmt ws).width
    | .smx => if v = 0x38 && !pOut ws then (aFmt ws).width else Nat.max (aFmt ws).width (dFmt ws).width
    | .flags => 32
    | _ => Nat.max (Nat.max (aFmt ws).width (dFmt ws).width)
        (if v = 0x30 ∨ v = 0x32 then 32 else if hasB v then (bFmt ws).width else 0)
  if w = 0 then 16 else if 16 < w then 64 else if 8 < w then 128 else 256

/-- N: the elements of the latency table (R111). -/
def vCount (ws : List Nat) : Nat :=
  match vFam (vopOf ws) with
  | .flags => 64
  | .final => rowsOf ws
  | _ => (if vopOf ws = 0x33 then 2 else 1) * rowsOf ws * vlenOf ws

/-- The occupancy's figure and the depth (R33, R111). -/
def vFigure (ws : List Nat) : Nat :=
  if vFam (vopOf ws) = .tred then 1024 else ceilDiv (vCount ws) (vLanes ws)
def vDepth (ws : List Nat) : Nat :=
  match vFam (vopOf ws) with
  | .sred | .tred => 32
  | .smx | .merge | .final => 40
  | .ew => if 0x10 ≤ vopOf ws then 40 else 24
  | _ => 24

/-! ### Start -/

/-- What an operation does, evaluated in its start AC. -/
def vOut (s : State) (e : QEnt) (a id : Nat) : VOut :=
  match vFam (vopOf e.words) with
  | .ew => vEw s e id
  | .cmp => vCmp s e
  | .cvt => vCvt s e (vLanes e.words) id
  | .move => vMove s e
  | .sred => vSred s e id
  | .tred => vTred s e a id
  | .smx => vSmx s e id
  | .merge => vMerge s e id
  | .final => vFinal s e id
  | .flags => vFlags s e
  | .none => {}

/-- The free numbers a command takes: those of its evaluations and reductions. -/
def vFree (ws : List Nat) : Nat := 4 * (rowsOf ws + 256) * (vlenOf ws + 256)

/-- A destination element: unspecified bytes where it overlaps a source (R112).
DESIGN CHOICE: log 44. -/
def dstEff (id : Nat) (srcs : List Range) (w : Nat × List W8) : Eff :=
  if srcs.any (overlaps (w.1, w.2.length)) then
    .mem w.1 ((List.range w.2.length).map (fun i => Config.freeByte (id + w.1 + i)))
  else .mem w.1 w.2

/-- The lane-flag words of flags by index (R119). -/
def laneEffs (L : Nat) (fl : List (Nat × Flags)) : List Eff :=
  (List.range 64).filterMap (fun w =>
    let f := fOr ((fl.filter (fun p => decide (p.1 % L * 64 / L = w))).map Prod.snd)
    if f = 0#16 then none else some (.lane w f))

/-- The changes of a VXE command at its done AC. -/
def vEffs (L id : Nat) (o : VOut) : List Eff :=
  o.dst.map (dstEff id o.srcs) ++ o.other.map (fun w => .mem w.1 w.2) ++ laneEffs L o.fl ++ o.effs
    ++ [.summary (fOr (o.fl.map Prod.snd) ||| o.rowFl)]

/-- The rows and length over which the mask generator counts (R130). -/
def genShape (ws : List Nat) : Nat × Nat :=
  if vFam (vopOf ws) = .tred then (tileRows ws, 256) else (rowsOf ws, vlenOf ws)

/-- The faults a VXE command raises in its start AC. -/
def vFault (s : State) (e : QEnt) (a : Nat) (o : VOut) : Option (Nat × List Nat) :=
  let ws := e.words
  let pr := if maskSrc ws = 2 then posRange (genOf e) (genShape ws).1 (genShape ws).2 else none
  match pr with
  | some r => some (cPOS, [r])
  | none =>
    match (if vFam (vopOf ws) = .tred then badAcc s a e.ctx [tileEntry ws] else none) with
    | some n => some (cFTQ, [n, ftqCode (ftqStateAt s a n)])
    | none =>
      accessFault s ownVxe e.ctx (fun r => decide (r = .vxeBuf)) (granules o.reads)
        (granules ((o.dst ++ o.other).map (fun w => (w.1, w.2.length))))

/-- The elements that a command processes on active lanes, as the Bezel counts them (R385). -/
def vActive (s : State) (e : QEnt) : Nat :=
  let ws := e.words
  match vFam (vopOf ws) with
  | .flags | .none => 0
  | .tred => tileRows ws * 256
  | .merge | .final => vCount ws
  | _ => if vopOf ws = 0x0C then vCount ws else (if vopOf ws = 0x33 then 2 else 1) * (actives s e).length

/-- What a command reads and writes where no lane is masked: its slot bound, for masks never change the occupancy (R111).
SELECT counts both its sources. -/
def vMoves (s : State) (e : QEnt) (a id : Nat) : List Range × List Range :=
  let ws := e.words
  let o := vOut s { e with words := ws.set 4 (wd ws 4 - maskSrc ws * 2 ^ 27) } a id
  let b := if vopOf ws = 0x0C then (elems ws).map (fun p => bRange ws p.1 p.2) else []
  (o.reads ++ b ++ planeRanges e (genShape ws).1 (genShape ws).2, (o.dst ++ o.other).map (fun w => (w.1, w.2.length)))

/-- Whether a command is a reduction of an FTQ tile. -/
def isTile (ws : List Nat) : Bool := decide (vFam (vopOf ws) = .tred)

/-- The AC in which a VXE command at the head of its queue starts. -/
def vxeStart (e : QEnt) (s : State) : Nat :=
  afterConsumers s (if isTile e.words then [tileEntry e.words] else []) (Nat.max (readyAc s .vxe e) s.vxe.free)

/-- A VXE command starts when the engine, and for a tile reduction the FTQ entry, is free (R33, R112). -/
def startVxe (e : QEnt) (s : State) : State :=
  let ws := e.words
  let a := vxeStart e s
  startAt a (fun s =>
    if vxeOk e = false then startFormat .vxe e s
    else
      let id := s.free
      let o := vOut s e a id
      match vFault s e a o with
      | some f => accessStop .vxe e f (granules o.reads) s
      | none =>
        let m := vMoves s e a id
        let occ := occupancy s ownVxe (vFigure ws) (granules m.1) (granules m.2)
        let s := addTot tVXE (vActive s e) (noteReads { s with free := s.free + vFree ws + 2 ^ 32 } (granules o.reads))
        let s := if isTile ws then consume (tileEntry ws) (a + occ) (landSums a s) else s
        beginSpan .vxe e a occ (vDepth ws) (granules o.reads) id (vEffs (vLanes ws) id o)
          { s with vxe := { s.vxe with ctx := e.ctx.val, vop := vopOf ws, tag := e.tag, free := a + occ } }) s

/-! ### Rows -/

/-- The operation of a VXE slot. -/
def slotVop (sl : Slot) : Nat := bits sl.w4.toNat 26 21

/-- The issue of a VXE command of one operation. -/
def issueVxe (v : Nat) (sl : Slot) (s : State) : Out :=
  if slotVop sl = v then issueRow 0x20 false (enqueue .vxe) sl s else .fault .notThisRow

/-- VXE_ADD (R121). -/
def execVxeAdd (sl : Slot) (s : State) : Out := issueVxe 0x00 sl s
/-- VXE_SUB (R121). -/
def execVxeSub (sl : Slot) (s : State) : Out := issueVxe 0x01 sl s
/-- VXE_MUL (R121). -/
def execVxeMul (sl : Slot) (s : State) : Out := issueVxe 0x02 sl s
/-- VXE_FMA (R121). -/
def execVxeFma (sl : Slot) (s : State) : Out := issueVxe 0x03 sl s
/-- VXE_MIN (R121). -/
def execVxeMin (sl : Slot) (s : State) : Out := issueVxe 0x04 sl s
/-- VXE_MAX (R121). -/
def execVxeMax (sl : Slot) (s : State) : Out := issueVxe 0x05 sl s
/-- VXE_ABS (R121). -/
def execVxeAbs (sl : Slot) (s : State) : Out := issueVxe 0x06 sl s
/-- VXE_NEG (R121). -/
def execVxeNeg (sl : Slot) (s : State) : Out := issueVxe 0x07 sl s
/-- VXE_CMP_EQ (R122). -/
def execVxeCmpEq (sl : Slot) (s : State) : Out := issueVxe 0x08 sl s
/-- VXE_CMP_NE (R122). -/
def execVxeCmpNe (sl : Slot) (s : State) : Out := issueVxe 0x09 sl s
/-- VXE_CMP_LT (R122). -/
def execVxeCmpLt (sl : Slot) (s : State) : Out := issueVxe 0x0A sl s
/-- VXE_CMP_LE (R122). -/
def execVxeCmpLe (sl : Slot) (s : State) : Out := issueVxe 0x0B sl s
/-- VXE_SELECT (R120). -/
def execVxeSelect (sl : Slot) (s : State) : Out := issueVxe 0x0C sl s
/-- VXE_CVT (R126). -/
def execVxeCvt (sl : Slot) (s : State) : Out := issueVxe 0x0D sl s
/-- FLAGS_STORE (R119). -/
def execFlagsStore (sl : Slot) (s : State) : Out := issueVxe 0x0E sl s
/-- FLAGS_CLEAR (R119). -/
def execFlagsClear (sl : Slot) (s : State) : Out := issueVxe 0x0F sl s
/-- VXE_EXP (R125). -/
def execVxeExp (sl : Slot) (s : State) : Out := issueVxe 0x10 sl s
/-- VXE_EXP2 (R125). -/
def execVxeExp2 (sl : Slot) (s : State) : Out := issueVxe 0x11 sl s
/-- VXE_LOG (R125). -/
def execVxeLog (sl : Slot) (s : State) : Out := issueVxe 0x12 sl s
/-- VXE_LOG2 (R125). -/
def execVxeLog2 (sl : Slot) (s : State) : Out := issueVxe 0x13 sl s
/-- VXE_RCP (R125). -/
def execVxeRcp (sl : Slot) (s : State) : Out := issueVxe 0x14 sl s
/-- VXE_DIV (R125). -/
def execVxeDiv (sl : Slot) (s : State) : Out := issueVxe 0x15 sl s
/-- VXE_SQRT (R125). -/
def execVxeSqrt (sl : Slot) (s : State) : Out := issueVxe 0x16 sl s
/-- VXE_RSQRT (R125). -/
def execVxeRsqrt (sl : Slot) (s : State) : Out := issueVxe 0x17 sl s
/-- VXE_TANH (R125). -/
def execVxeTanh (sl : Slot) (s : State) : Out := issueVxe 0x18 sl s
/-- VXE_SIGMOID (R125). -/
def execVxeSigmoid (sl : Slot) (s : State) : Out := issueVxe 0x19 sl s
/-- VXE_SILU (R125). -/
def execVxeSilu (sl : Slot) (s : State) : Out := issueVxe 0x1A sl s
/-- VXE_GELU (R125). -/
def execVxeGelu (sl : Slot) (s : State) : Out := issueVxe 0x1B sl s
/-- VXE_ERF (R125). -/
def execVxeErf (sl : Slot) (s : State) : Out := issueVxe 0x1C sl s
/-- VXE_SIN (R125). -/
def execVxeSin (sl : Slot) (s : State) : Out := issueVxe 0x1D sl s
/-- VXE_COS (R125). -/
def execVxeCos (sl : Slot) (s : State) : Out := issueVxe 0x1E sl s
/-- VXE_PERMUTE (R123). -/
def execVxePermute (sl : Slot) (s : State) : Out := issueVxe 0x30 sl s
/-- VXE_REVERSE (R123). -/
def execVxeReverse (sl : Slot) (s : State) : Out := issueVxe 0x31 sl s
/-- VXE_ROTATE (R123). -/
def execVxeRotate (sl : Slot) (s : State) : Out := issueVxe 0x32 sl s
/-- VXE_INTERLEAVE (R123). -/
def execVxeInterleave (sl : Slot) (s : State) : Out := issueVxe 0x33 sl s
/-- VXE_DEINTERLEAVE (R123). -/
def execVxeDeinterleave (sl : Slot) (s : State) : Out := issueVxe 0x34 sl s
/-- VXE_PACK (R124). -/
def execVxePack (sl : Slot) (s : State) : Out := issueVxe 0x35 sl s
/-- VXE_UNPACK (R124). -/
def execVxeUnpack (sl : Slot) (s : State) : Out := issueVxe 0x36 sl s
/-- VXE_SUM (R127). -/
def execVxeSum (sl : Slot) (s : State) : Out := issueVxe 0x20 sl s
/-- VXE_RED_MAX (R127). -/
def execVxeRedMax (sl : Slot) (s : State) : Out := issueVxe 0x21 sl s
/-- VXE_RED_MIN (R127). -/
def execVxeRedMin (sl : Slot) (s : State) : Out := issueVxe 0x22 sl s
/-- VXE_AMAX (R127). -/
def execVxeAmax (sl : Slot) (s : State) : Out := issueVxe 0x23 sl s
/-- VXE_SUMSQ (R127). -/
def execVxeSumsq (sl : Slot) (s : State) : Out := issueVxe 0x24 sl s
/-- VXE_TILE_SUM (R128). -/
def execVxeTileSum (sl : Slot) (s : State) : Out := issueVxe 0x28 sl s
/-- VXE_TILE_MAX (R128). -/
def execVxeTileMax (sl : Slot) (s : State) : Out := issueVxe 0x29 sl s
/-- VXE_TILE_MIN (R128). -/
def execVxeTileMin (sl : Slot) (s : State) : Out := issueVxe 0x2A sl s
/-- VXE_TILE_AMAX (R128). -/
def execVxeTileAmax (sl : Slot) (s : State) : Out := issueVxe 0x2B sl s
/-- VXE_TILE_SUMSQ (R128). -/
def execVxeTileSumsq (sl : Slot) (s : State) : Out := issueVxe 0x2C sl s
/-- TSTATE (R128). -/
def execTstate (sl : Slot) (s : State) : Out := issueVxe 0x2D sl s
/-- SMX_STATE (R132). -/
def execSmxState (sl : Slot) (s : State) : Out := issueVxe 0x38 sl s
/-- SMX_MERGE (R132). -/
def execSmxMerge (sl : Slot) (s : State) : Out := issueVxe 0x39 sl s
/-- SMX_FINAL (R132). -/
def execSmxFinal (sl : Slot) (s : State) : Out := issueVxe 0x3A sl s
/-- SMX_NORM (R132). -/
def execSmxNorm (sl : Slot) (s : State) : Out := issueVxe 0x3B sl s

end Sys2Proof.Machine
end

