-- ==== Sys2Proof/Machine/Pin.lean ====
section
/-!
DEFINITION. The pinions (chapter 07): microprogram steps, PIN.RUN, PIN.ATOM, fencing and the self-test. The arrival combiner
is in Arrive.lean.
-/
namespace Sys2Proof.Machine

/-! ### Compute types and steps (R137–R142) -/

/-- Element lanes per EC of a compute type (R137). -/
def lanesOf (ct : Nat) : Nat := 128 / (fmtOf ct).width

/-- A value rounded to the compute type with RNE (R137, R138). -/
def roundCt (ct : Nat) (v : Val) : Val × Flags :=
  let r := encodeArith (fmtOf ct) v
  (decodeElem (fmtOf ct) false r.1, r.2)

/-- The fields of a step word (R140). -/
def stOp (w : Nat) : Nat := bits w 4 0
def stDst (w : Nat) : Nat := bits w 7 5
def stA (w : Nat) : Nat := bits w 12 8
def stB (w : Nat) : Nat := bits w 17 13
def stC (w : Nat) : Nat := bits w 22 18

/-- A selector that names a register or a constant slot. -/
def selOk (n : Nat) : Bool := decide (n < 8) || decide (16 ≤ n)

/-- The operations with a third operand. -/
def stThree (op : Nat) : Bool := op == 0x04 || op == 0x0B || op == 0x0D || op == 0x10 || op == 0x11 || op == 0x12

/-- The targets CVTS allows under a compute type (R142). -/
def cvtsTarget (ct t : Nat) : Bool :=
  match ct with
  | 0 => decide (t ≤ 4)
  | 1 => t == 1 || t == 3 || t == 4
  | 2 => decide (2 ≤ t ∧ t ≤ 4)
  | 3 => t == 3
  | _ => t == 4

/-- A step without a reserved or forbidden field (R140, R144). -/
def stepOk (ct w : Nat) : Bool :=
  let op := stOp w
  (decide (1 ≤ op ∧ op ≤ 0x0D) || decide (0x10 ≤ op ∧ op ≤ 0x12))
    && selOk (stA w) && selOk (stB w)
    && (if stThree op then selOk (stC w) else decide (stC w = 0))
    && decide (bits w 31 29 = 0)
    && (if op = 0x0C then decide (bits w 24 23 ≠ 3) && cvtsTarget ct (bits w 28 26) else decide (bits w 28 23 = 0))

/-- √ of m · 2^e below by 400 bits, its exponent, and whether it is exact. -/
def sqrtHi (m : Nat) (e : Int) : Nat × Int × Bool :=
  let k := (e - 800) / 2
  let n := m * 2 ^ (e - 2 * k).toNat
  let r := isqrt n
  (r, k, decide (r * r = n))

/-- A result of a compute type within k units in the last place of num/den · 2^e, by a free error; overflow as R121. -/
def finishCt (ct k id : Nat) (neg : Bool) (num den : Nat) (e : Int) (exact : Bool) : Val × Flags :=
  match (fmtOf ct).layout false with
  | none => (.nan, fNone)
  | some L =>
    let f := L.roundMag .rtz num den e
    let b := ulpPlaces L k num den e
    let p := max b.1 (min b.2 ((f.1 : Int) + Config.ulpError id))
    let w := p.natAbs
    let neg := neg ^^ decide (p < 0)
    if L.maxBits < w then (if L.special = .ieee then .inf neg else .nan, fOverflow ||| fInexact)
    else
      let inex := !(exact && !f.2 && decide (p = f.1))
      (L.decode (L.signed neg w), fIf inex fInexact ||| fIf (inex && decide (w < 2 ^ L.mb)) fUnderflow)

/-- ADAM_DIR: a ÷ (√b + c), at most 2 ulp of the compute type (R141). An infinite a over a denominator of 0 raises no flag.
DESIGN CHOICE: log 107. -/
def adamDir (ct id : Nat) (a b c : Val) : Val × Flags :=
  let root : Val × Bool := match b with
    | .fin s m e => if m = 0 then (b, true) else if s then (.nan, true) else
        let r := sqrtHi m e; (.fin false r.1 r.2.1, r.2.2)
    | .inf true => (.nan, true)
    | v => (v, true)
  if !b.isNan && Val.lt b .zero then (.nan, fInvalid)
  else
    let d := root.1.add c
    match a, d.1 with
    | .nan, _ => (.nan, d.2)
    | _, .nan => (.nan, d.2)
    | .inf _, .inf _ => (.nan, fInvalid)
    | .inf s, .fin t _ _ => (.inf (s ^^ t), fNone)
    | .fin s _ _, .inf t => (.fin (s ^^ t) 0 0, fNone)
    | .fin s m e, .fin t n f =>
      if n = 0 then (if m = 0 then (.nan, fInvalid) else (.inf (s ^^ t), fDivZero))
      else if m = 0 then (.fin (s ^^ t) 0 0, fNone)
      else finishCt ct 2 id (s ^^ t) m n (e - f) root.2

/-- What an element of a RUN holds while its steps run: its eight registers, its flags, and the draws of its bank. -/
structure PElem where
  regs : List Val
  fl : Flags
  draws : Draws

/-- Operand `sel`: a register, or a constant rounded to the compute type, or the constant itself (R139). -/
def pinArg (ct : Nat) (ks : List Nat) (exact : Bool) (x : PElem) (sel : Nat) : Val :=
  if sel < 16 then x.regs.getD sel .zero
  else
    let v := f32 (ks.getD (sel - 16) 0)
    if exact then v else (roundCt ct v).1

/-- 1 or +0. -/
def truth (b : Bool) : Val := if b then .one else .zero

/-- The result of a step other than CVTS and ADAM_DIR, before it is rounded (R141). -/
def stepVal (op : Nat) (a b c : Val) : Val × Flags :=
  match op with
  | 0x01 => a.add b
  | 0x02 => a.sub b
  | 0x03 => a.mul b
  | 0x04 => a.fma b c
  | 0x05 => (a.min b, fNone)
  | 0x06 => (a.max b, fNone)
  | 0x07 => (truth (Val.eqv a b), fNone)
  | 0x08 => (truth (!Val.eqv a b), fNone)
  | 0x09 => (truth (Val.lt a b), fNone)
  | 0x0A => (truth (Val.le a b), fNone)
  | 0x0B => (if Val.eqv c .zero then b else a, fNone)
  | 0x0D => ((a.max b).min c, fNone)
  | 0x10 =>
    let d := b.sub a
    let r := c.fma d.1 a
    (r.1, d.2 ||| r.2)
  | _ =>
    let q := b.mul b
    let d := q.1.sub a
    let r := c.fma d.1 a
    (r.1, q.2 ||| d.2 ||| r.2)

/-- One step on one element (R141, R142); `q` is the position of its lane's generator, `id` numbers the evaluation. -/
def pinStep (s : State) (ct : Nat) (ks : List Nat) (q id w : Nat) (x : PElem) : PElem :=
  let op := stOp w
  let put (v : Val) (f : Flags) (d : Draws) : PElem := ⟨x.regs.set (stDst w) v, x.fl ||| f, d⟩
  if op = 0x0C then
    let p := (pinArg ct ks true x (stA w)).mul (pinArg ct ks true x (stB w))
    let r := rndDraw s (bits w 24 23) q x.draws
    let f := fmtOf (bits w 28 26)
    let e := encodePlain f r.1 (bit w 25) p.1
    put (decodeElem f false e.1) e.2 r.2
  else
    let a := pinArg ct ks false x (stA w)
    let b := pinArg ct ks false x (stB w)
    let c := pinArg ct ks false x (stC w)
    let r := if op = 0x12 then adamDir ct id a b c else stepVal op a b c
    let y := roundCt ct r.1
    put y.1 (r.2 ||| y.2) x.draws

/-! ### PIN.RUN (R143–R152) -/

/-- The fields of a PIN.RUN. Words 8 to 23 hold the sixteen constants taken at issue (R139). -/
def pElems (ws : List Nat) : Nat := bits (wd ws 1) 19 0
def pSteps (ws : List Nat) : Nat := bits (wd ws 1) 24 20
def pProg (ws : List Nat) : Nat := bits (wd ws 1) 28 25
def pType (ws : List Nat) : Nat := bits (wd ws 1) 31 29
def pIn (ws : List Nat) : Nat := bits (wd ws 2) 18 16
def pOutN (ws : List Nat) : Nat := bits (wd ws 2) 21 19
def pConstBase (ws : List Nat) : Nat := bits (wd ws 2) 27 22
def pConstCount (ws : List Nat) : Nat := bits (wd ws 3) 4 0
def pRound (ws : List Nat) : Nat := bits (wd ws 3) 6 5
def pSat (ws : List Nat) : Bool := bit (wd ws 3) 7
def pConsts (ws : List Nat) : List Nat := slice 8 16 ws

/-- Descriptor i: 0 to 3 the inputs, 4 to 7 the outputs. -/
def pDesc (ws : List Nat) (i : Nat) : Nat := bits (wd ws (4 + i / 2)) (16 * (i % 2) + 15) (16 * (i % 2))
/-- Its granule and its format (R145): code 5 is INT8. -/
def dGran (d : Nat) : Nat := bits d 12 0
def dSfmt (d : Nat) : Nat := bits d 15 13
def sFmt (d : Nat) : Fmt := if dSfmt d = 5 then .int8 else fmtOf (dSfmt d)
def sSize (d : Nat) : Nat := (sFmt d).width / 8

/-- The input and output descriptors a RUN uses. -/
def pIns (ws : List Nat) : List Nat := (List.range (pIn ws)).map (pDesc ws)
def pOuts (ws : List Nat) : List Nat := (List.range (pOutN ws)).map (fun i => pDesc ws (4 + i))

/-- The sixteen constants of a RUN, from the parameter registers at issue (R139). -/
def constsOf (x : CtxSt) (ws : List Nat) : List Nat :=
  (List.range 16).map (fun k => if k < pConstCount ws then (getPar x (pConstBase ws + k)).toNat % 2 ^ 32 else 0)

/-- Step word s of entry e of a context's table (R143). -/
def uprogWord (x : CtxSt) (e k : Nat) : Nat := SMap.get 0 x.uprog (16 * e + k)

/-- The steps of a RUN. -/
def pinProg (s : State) (e : QEnt) : List Nat :=
  (List.range (pSteps e.words)).map (uprogWord (ctx s e.ctx) (pProg e.words))

/-- The layout and range rules of a RUN (R144–R146). -/
def pinOk (s : State) (e : QEnt) : Bool :=
  let ws := e.words
  let fits (d : Nat) : Bool := decide (dSfmt d ≤ 5) && decide (dGran d * 64 + pElems ws * sSize d ≤ 524288)
  decide (e.rsv = 0) && decide (1 ≤ pElems ws) && decide (pElems ws ≤ 524288) && decide (1 ≤ pSteps ws)
    && decide (pSteps ws ≤ 16) && decide (pType ws ≤ 4)
    && decide (1 ≤ bits (wd ws 2) 14 7) && decide (bits (wd ws 2) 14 7 ≤ 128) && decide (bits (wd ws 2) 31 28 = 0)
    && decide (pIn ws ≤ 4) && decide (1 ≤ pOutN ws) && decide (pOutN ws ≤ 4)
    && decide (pConstCount ws ≤ 16) && decide (pConstBase ws + pConstCount ws ≤ 64) && decide (pRound ws ≠ 3)
    && decide (bits (wd ws 3) 31 8 = 0)
    && (pinBanks ws).all (fun b => decide (b < s.grade.banks))
    && (pIns ws ++ pOuts ws).all fits
    && (List.range 4).all (fun i => (decide (i < pIn ws) || decide (pDesc ws i = 0))
        && (decide (i < pOutN ws) || decide (pDesc ws (4 + i) = 0)))
    && (pinProg s e).all (stepOk (pType ws))

/-- The address of byte k of bank b. -/
def bankByte (g : Grade) (b k : Nat) : Nat := granAddr g b (k / 64) + k % 64

/-- The raw element e of a stream in bank b. -/
def streamElem (s : State) (b d e : Nat) : Nat := readLE s (bankByte s.grade b (dGran d * 64 + e * sSize d)) (sSize d)

/-- An input element decoded into the compute type (R138, R147); decoding an INT8 element raises no flag.
DEDUCED: log 102. -/
def pinLoad (s : State) (ws : List Nat) (b d e : Nat) : Val × Flags :=
  let v := decodeElem (sFmt d) false (streamElem s b d e)
  roundCt (pType ws) (if dSfmt d = 5 then (v.mul (f32 ((pConsts ws).getD 15 0))).1 else v)

/-- x ÷ k15 encoded as an integer, the quotient exact before it is rounded (R147). -/
def encodeQuot (rnd : Rnd) (x k : Val) : Nat × Flags :=
  match x, k with
  | .fin s m e, .fin t n f =>
    if n = 0 then encodeInt8 rnd (if m = 0 then .nan else .inf (s ^^ t))
    else
      let u := inUnits m n (e - f) 0
      let r := roundUnits rnd u.1 u.2
      let v := Min.min r.1 127
      (wrap 8 (if (s ^^ t) then -(v : Int) else v),
        fIf (r.2 || decide (127 < r.1)) fInexact ||| fIf (decide (127 < r.1)) fOverflow)
  | .inf s, .fin t _ _ => encodeInt8 rnd (.inf (s ^^ t))
  | .fin s _ _, .inf t => encodeInt8 rnd (.fin (s ^^ t) 0 0)
  | _, _ => encodeInt8 rnd .nan

/-- Encode an output element (R147, R148). -/
def pinStore (ws : List Nat) (d : Nat) (rnd : Rnd) (x : Val) : Nat × Flags :=
  if dSfmt d = 5 then encodeQuot rnd x (f32 ((pConsts ws).getD 15 0)) else encodePlain (sFmt d) rnd (pSat ws) x

/-- The bytes of a stream in its bank. -/
def streamRange (ws : List Nat) (d : Nat) : Range := (dGran d * 64, pElems ws * sSize d)

/-- Whether output j's element e overlaps another stream other than in exact coincidence with an input (R149). -/
def pinOpen (ws : List Nat) (j e : Nat) : Bool :=
  let d := (pOuts ws).getD j 0
  let r : Range := (dGran d * 64 + e * sSize d, sSize d)
  (pIns ws).any (fun i => decide (i ≠ d) && overlaps r (streamRange ws i))
    || (List.range (pOutN ws)).any (fun k => decide (k ≠ j) && overlaps r (streamRange ws ((pOuts ws).getD k 0)))

/-- Element e of bank b: the writes of its outputs, with the flags and the draws after it. -/
def pinElem (s : State) (en : QEnt) (id b e : Nat) (d : Draws) : List Eff × Flags × Draws :=
  let ws := en.words
  let ct := pType ws
  let q := 512 + 16 * pinionOf s.grade b + e % lanesOf ct
  let ld := (pIns ws).map (fun i => pinLoad s ws b i e)
  let x0 : PElem := ⟨padTo .zero 8 (ld.map Prod.fst), fOr (ld.map Prod.snd), d⟩
  let ps := pinProg s en
  let x := (List.range ps.length).foldl (fun x k => pinStep s ct (pConsts ws) q (id + 16 * e + k) (ps.getD k 0) x) x0
  (List.range (pOutN ws)).foldl (fun (a : List Eff × Flags × Draws) j =>
    let o := (pOuts ws).getD j 0
    let r := rndDraw s (pRound ws) q a.2.2
    let w := pinStore ws o r.1 (x.regs.getD (7 - j) .zero)
    let at_ := bankByte s.grade b (dGran o * 64 + e * sSize o)
    let bs := if pinOpen ws j e then (List.range (sSize o)).map (fun i => Config.freeByte (id + 2 ^ 28 + at_ + i))
      else leBytes (sSize o) w.1
    (a.1 ++ [.mem at_ bs], a.2.1 ||| w.2, r.2)) ([], x.fl, x.draws)

/-- Every element of every bank named (R146). -/
def pinAll (s : State) (en : QEnt) (id : Nat) : List Eff × Flags × Draws :=
  ((List.range (pinBanks en.words).length).flatMap (fun i => (List.range (pElems en.words)).map (fun e => (i, e)))).foldl
    (fun (a : List Eff × Flags × Draws) p =>
      let r := pinElem s en (id + 2 ^ 24 * p.1) ((pinBanks en.words).getD p.1 0) p.2 a.2.2
      (a.1 ++ r.1, a.2.1 ||| r.2.1, r.2.2)) ([], 0#16, [])

/-- The first AC in which every pinion named is free (R152). -/
def pinFreeAt (s : State) (banks : List Nat) : Nat :=
  banks.foldl (fun t b => Nat.max t (SMap.get 0 s.pin.free (pinionOf s.grade b))) 0

/-- Hold the pinions of some banks until an AC. -/
def holdPinions (s : State) (banks : List Nat) (t : Nat) : State :=
  { s with pin := { s.pin with free := banks.foldl (fun m b => SMap.set 0 m (pinionOf s.grade b) t) s.pin.free } }

/-- The granules that streams of a RUN take in its banks: by bank in ascending order, stream 0 first in each position (R150). -/
def runGrans (s : State) (ws : List Nat) (ds : List Nat) : List Nat :=
  let n (d : Nat) : Nat := ceilDiv (pElems ws * sSize d) 64
  (pinBanks ws).flatMap (fun b =>
    (List.range (ds.foldl (fun m d => Nat.max m (n d)) 0)).flatMap (fun k => ds.filterMap (fun d =>
      if k < n d then some (granAddr s.grade b (dGran d + k)) else none)))

/-- What a RUN does: its outputs, its generators, its flags. -/
def pinEffs (s : State) (e : QEnt) (id : Nat) : List Eff :=
  let r := pinAll s e id
  r.1 ++ drawEffs s r.2.2 ++ [.summary r.2.1]

/-- The AC in which a RUN at the head of the PIN queue starts. -/
def runStart (e : QEnt) (s : State) : Nat := Nat.max (readyAc s .pin e) (pinFreeAt s (pinBanks e.words))

/-- PIN.RUN starts. -/
def startPinRun (e : QEnt) (s : State) : State :=
  let ws := e.words
  let bs := pinBanks ws
  let a := runStart e s
  startAt a (fun s =>
    if pinOk s e = false then startFormat .pin e s
    else
      let rd := runGrans s ws (pIns ws)
      let wr := runGrans s ws (pOuts ws)
      match accessFault s ownPin e.ctx (fun _ => false) rd wr with
      | some f => accessStop .pin e f rd.dedup s
      | none =>
        let id := s.free
        let effs := pinEffs s e id
        let occ := occupancy s ownPin (ceilDiv (pElems ws * pSteps ws) (2 * lanesOf (pType ws))) rd wr
        let s := addTot tSTEPS (pElems ws * pSteps ws * bs.length) s
        let s := holdPinions (noteReads { s with free := s.free + 2 ^ 32 } rd.dedup) bs (a + occ)
        beginSpan .pin e a occ (pSteps ws + 8) rd id effs
          { s with pin := { s.pin with ctx := e.ctx.val, tag := e.tag } } [] wr) s

/-! ### PIN.ATOM (R162–R164) -/

/-- The new word and flags of an atomic (R162). -/
def atomNew (aop old opnd cmp : Nat) : Nat × Flags :=
  let a := BitVec.ofNat 32 old
  let b := BitVec.ofNat 32 opnd
  match aop with
  | 0x1 => (opnd, fNone)
  | 0x2 => (if old = cmp then opnd else old, fNone)
  | 0x3 => ((old + opnd) % 2 ^ 32, fNone)
  | 0x4 => let x := (f32 old).add (f32 opnd); let r := toF32 x.1; (r.1, x.2 ||| r.2)
  | 0x5 => (if a.slt b then opnd else old, fNone)
  | 0x6 => (if a.slt b then old else opnd, fNone)
  | 0x7 => (Nat.max old opnd, fNone)
  | 0x8 => (Nat.min old opnd, fNone)
  | 0x9 => toF32 ((f32 old).max (f32 opnd))
  | 0xA => toF32 ((f32 old).min (f32 opnd))
  | 0xB => (old &&& opnd, fNone)
  | 0xC => (old ||| opnd, fNone)
  | 0xD => (old ^^^ opnd, fNone)
  | 0xE => (if opnd ≤ old then 0 else old + 1, fNone)
  | _ => (old, fNone)

/-- The layout conditions of an atomic. -/
def atomOk (e : QEnt) : Bool :=
  let ws := e.words
  decide (e.rsv = 0) && decide (wd ws 1 % 4 = 0) && decide (bits (wd ws 4) 3 0 ≠ 15)
    && (decide (bits (wd ws 4) 3 0 = 2) || decide (wd ws 3 = 0)) && decide (bits (wd ws 4) 31 14 = 0)
    && (slice 5 3 ws).all (fun w => decide (w = 0))

/-- The bank of an atomic's word. -/
def atomBanks (s : State) (ws : List Nat) : List Nat := if wd ws 1 < bankBytes s then [bankOf s.grade (wd ws 1)] else []

/-- The AC in which an atomic at the head of the PIN queue starts. -/
def atomStart (e : QEnt) (s : State) : Nat := Nat.max (readyAc s .pin e) (pinFreeAt s (atomBanks s e.words))

/-- PIN.ATOM starts when the pinion of its word's bank is free (R152, R163). -/
def startAtom (e : QEnt) (s : State) : State :=
  let ws := e.words
  let addr := wd ws 1
  let bs := atomBanks s ws
  let a := atomStart e s
  startAt a (fun s =>
    if atomOk e = false then startFormat .pin e s
    else
      let gs := granules [(addr, 4)]
      match accessFault s ownPin e.ctx (fun _ => false) gs gs with
      | some f => accessStop .pin e f gs s
      | none =>
        let w4 := wd ws 4
        let opnd := if bit w4 9 then (SMap.get 0#64 e.areg (bits w4 13 10)).toNat % 2 ^ 32 else wd ws 2
        let occ := occupancy s ownPin 8 gs gs
        let s := holdPinions (noteReads s gs) bs (a + occ)
        beginSpan .pin e a occ 8 gs 0
          [.atom addr (bits w4 3 0) opnd (wd ws 3) (if bit w4 8 then bits w4 7 4 else 16)]
          { s with pin := { s.pin with ctx := e.ctx.val, tag := e.tag } } [] gs) s

/-- The operation of an atomic's slot. -/
def slotAop (sl : Slot) : Nat := bits sl.w4.toNat 3 0

/-- The issue of a PIN.ATOM of one operation. -/
def issueAtom (op : Nat) (sl : Slot) (s : State) : Out :=
  if slotAop sl = op then issueRow 0x25 false (enqueue .pin) sl s else .fault .notThisRow

/-- PIN.RUN takes its constants in its issue EC (R139). -/
def issuePinRun (c : Ctx) (m : Cmd) (s : State) : State :=
  enqueue .pin c { m with words := padTo 0 8 m.words ++ constsOf (ctx s c) m.words } s

/-- PIN_RUN (R145). -/
def execPinRun (sl : Slot) (s : State) : Out := issueRow 0x24 false issuePinRun sl s
/-- ATOM_LOAD (R162). -/
def execAtomLoad (sl : Slot) (s : State) : Out := issueAtom 0x0 sl s
/-- ATOM_SWAP (R162). -/
def execAtomSwap (sl : Slot) (s : State) : Out := issueAtom 0x1 sl s
/-- ATOM_CAS (R162). -/
def execAtomCas (sl : Slot) (s : State) : Out := issueAtom 0x2 sl s
/-- ATOM_ADD_I32 (R162). -/
def execAtomAddI32 (sl : Slot) (s : State) : Out := issueAtom 0x3 sl s
/-- ATOM_ADD_F32 (R162). -/
def execAtomAddF32 (sl : Slot) (s : State) : Out := issueAtom 0x4 sl s
/-- ATOM_MAX_I32 (R162). -/
def execAtomMaxI32 (sl : Slot) (s : State) : Out := issueAtom 0x5 sl s
/-- ATOM_MIN_I32 (R162). -/
def execAtomMinI32 (sl : Slot) (s : State) : Out := issueAtom 0x6 sl s
/-- ATOM_MAX_U32 (R162). -/
def execAtomMaxU32 (sl : Slot) (s : State) : Out := issueAtom 0x7 sl s
/-- ATOM_MIN_U32 (R162). -/
def execAtomMinU32 (sl : Slot) (s : State) : Out := issueAtom 0x8 sl s
/-- ATOM_MAX_F32 (R162). -/
def execAtomMaxF32 (sl : Slot) (s : State) : Out := issueAtom 0x9 sl s
/-- ATOM_MIN_F32 (R162). -/
def execAtomMinF32 (sl : Slot) (s : State) : Out := issueAtom 0xA sl s
/-- ATOM_AND (R162). -/
def execAtomAnd (sl : Slot) (s : State) : Out := issueAtom 0xB sl s
/-- ATOM_OR (R162). -/
def execAtomOr (sl : Slot) (s : State) : Out := issueAtom 0xC sl s
/-- ATOM_XOR (R162). -/
def execAtomXor (sl : Slot) (s : State) : Out := issueAtom 0xD sl s
/-- ATOM_INC_WRAP (R162). -/
def execAtomIncWrap (sl : Slot) (s : State) : Out := issueAtom 0xE sl s

/-! ### Fencing and self-test (R153, R155, R165) -/

/-- A write of word i of the fence bits; bits of pinions the grade lacks ignore it (R153, R165). -/
def fenceWrite (i v : Nat) (s : State) : State :=
  let set (b : Nat) (m : SMap Bool) : SMap Bool :=
    if 32 * i + b < s.grade.pinions then SMap.set false m (32 * i + b) (bit v b) else m
  { s with pin := { s.pin with fenceReq := iter set 32 s.pin.fenceReq } }

/-- PIN_FENCE (R153). -/
def execPinFence (i : Nat) (v : W32) (s : State) : Out := afterBoot s (.next (fenceWrite i v.toNat s))

/-- PIN_FENCE_APPLY: the fence of pinion p follows its fence bit once its running RUN or ATOM has ended (R153). -/
def execPinFenceApply (p : Nat) (s : State) : Out :=
  let s := advance (2 * SMap.get 0 s.pin.free p) s
  .next { s with pin := { s.pin with
    fenced := SMap.set false s.pin.fenced p (SMap.get false s.pin.fenceReq p)
    fencedAt := if SMap.get false s.pin.fenced p = SMap.get false s.pin.fenceReq p then s.pin.fencedAt
      else SMap.set 0 s.pin.fencedAt p (ac s) } }

/-- PIN_SELFTEST: a start on a fenced pinion runs the test; on any other it is ignored and bad_target is set (R155); Lean
ignores every write of the block (R165). -/
def execPinSelftest (p : Nat) (s : State) : Out :=
  afterBoot s <|
  if s.grade = .lean then .next s
  else if SMap.get false s.pin.fenced (p % 128) then
    .next { s with pin := { s.pin with testPinion := p % 128, testBusy := true } }
  else .next { s with pin := { s.pin with testPinion := p % 128, testBad := true } }

/-- SELFTEST_DONE: the test completes and reports pass (R155). -/
def execSelftestDone (pass : Bool) (s : State) : Out :=
  if s.pin.testBusy then .next { s with pin := { s.pin with testBusy := false, testPass := pass } } else .next s

end Sys2Proof.Machine
end

