-- ==== Sys2Proof/Machine/Slots.lean ====
section
/-!
DEFINITION. The granules of running commands (R29, R89, R158, R159, R271): a timed command reads and writes each granule in a slot
between its start and its done AC. The model follows the slots of a granule only where another access meets the same granule: a
command that meets no other reads at its start and writes at its done AC.
-/
namespace Sys2Proof.Machine

/-- The span of a running command. -/
def spanOf (s : State) (seat : Nat) : Span := SMap.get {} s.spans seat
/-- Change the span of a running command. -/
def modSpan (seat : Nat) (f : Span → Span) (s : State) : State :=
  { s with spans := s.spans.map (fun p => if p.1 = seat then (p.1, f p.2) else p) }

/-- The running command of a span. -/
def runOf (s : State) (seat : Nat) : Option Run := s.runs.find? (fun r => decide (r.seat = seat))

/-- The granules that a change of a command writes: those of core memory, and those of the transposing buffers. -/
def effGrans : Eff → List Nat
  | .mem a bs => granulesOf a bs.length
  | .txb sel off bs => (granulesOf (sel * 524288 + off) bs.length).map (2 ^ 40 + ·)
  | .atom a _ _ _ _ => granulesOf a 4
  | _ => []

/-- Whether a change writes granule g. -/
def effHas (g : Nat) : Eff → Bool
  | .mem a bs => decide (bs ≠ []) && decide (a / 64 * 64 ≤ g) && decide (g < a + bs.length)
  | .txb sel off bs =>
    decide (bs ≠ []) && decide (2 ^ 40 + (sel * 524288 + off) / 64 * 64 ≤ g) && decide (g < 2 ^ 40 + sel * 524288 + off + bs.length)
  | .atom a _ _ _ _ => decide (a / 64 * 64 = g)
  | _ => false

/-- The first byte of what a change writes, and the byte after it. -/
def effEnds : Eff → Nat × Nat
  | .mem a bs => (a, a + bs.length)
  | .txb sel off bs => (2 ^ 40 + sel * 524288 + off, 2 ^ 40 + sel * 524288 + off + bs.length)
  | .atom a _ _ _ _ => (a, a + 4)
  | _ => (0, 0)

/-- Whether two changes write a granule in common. -/
def effMeet (e f : Eff) : Bool :=
  let p := effEnds e
  let q := effEnds f
  decide (p.1 < p.2) && decide (q.1 < q.2) && decide (p.1 / 64 ≤ (q.2 - 1) / 64) && decide (q.1 / 64 ≤ (p.2 - 1) / 64)

/-- The granules that a running command writes. -/
def dests (r : Run) : List Nat := ((r.effs.flatMap effGrans).destutter (· ≠ ·)).dedup

/-- Those it has still to write. -/
def owes (s : State) (r : Run) : List Nat := (dests r).filter (fun g => g ∉ (spanOf s r.seat).landed)

/-- Whether a running command has still to write granule g. -/
def owesGran (s : State) (r : Run) (g : Nat) : Bool := r.effs.any (effHas g) && decide (g ∉ (spanOf s r.seat).landed)

/-- Whether the pending result of a combined arrival is carried by the atomic of a span (R158). -/
def carries (s : State) (seat : Nat) : Bool := s.xfer.arrivals.any (fun a => decide (a.carrier = some seat))

/-- The EC in which a running command writes granule g: an atomic that carries the result of an arrival writes in the last EC
before its done.
DESIGN CHOICE: log 13, log 53. -/
def writeEc (s : State) (r : Run) (g : Nat) : Nat :=
  let x := spanOf s r.seat
  if x.atom && carries s r.seat then x.doneEc - 1 else slotEc s r.seat x true g

/-! ### What a command does with what it has read -/

/-- A memory with the granules given as they were read. -/
def asRead (old : SMap (List W8)) (s : State) : State :=
  old.foldl (fun s p =>
    if 2 ^ 40 ≤ p.1 then { s with mxe := { s.mxe with txb := putTxb s.mxe.txb (p.1 - 2 ^ 40) p.2 } }
    else { s with mem := putBytes s.mem p.1 p.2 }) s

/-- The machine as a running command sees it: the engines as they stood at its start, each granule as it read it. -/
def seenBy (r : Run) (x : Span) (s : State) : State :=
  let v := x.view
  asRead x.old { s with
    mxe := { v.mxe with txb := s.mxe.txb, txbGen := s.mxe.txbGen }
    sct := v.sct, seed := v.seed, gens := v.gens, reseeds := v.reseeds, free := v.id, runs := [], ctxs := SMap.put s.ctxs r.ctx v.ctx }

/-- Whether a change is the flags of a STREAM's additions. -/
def isAccFlags : Eff → Bool
  | .accFlags _ => true
  | _ => false

/-- The changes of a running STREAM, but for the rows that have landed; the flags of their additions stay. -/
def streamAnew (r : Run) (x : Span) (s : State) : List Eff :=
  let ws := r.ent.words
  let gated := bit (wd ws 5) 23
  let M := if gated then s.mxe.lastM else bits (wd ws 5) 11 0
  let t := (streamRow s ws).getD 1
  (streamEffs r.ent r.startAc (r.endAc - r.startAc) M t s.mxe.lvl (!gated && bit (wd ws 5) 15) (adpAcc ws) s).map (fun e =>
    match e with
    | .sums n stamp acc rows => .sums n stamp acc (rows.filter (fun w => decide (x.rowsTo < w.1)))
    | e => e)
    ++ ((r.effs.filter isAccFlags).dropLast)

/-- What a running command does, computed from what it read. -/
def effsAnew (r : Run) (x : Span) (s0 : State) : List Eff :=
  let s := seenBy r x s0
  match r.opcode with
  | 0x10 => fillEffs false r.ent s
  | 0x11 => fillEffs true r.ent s
  | 0x13 => streamAnew r x s
  | 0x14 => cvtEffs r.ent s
  | 0x18 => txbEffs r.ent x.view.id s
  | 0x20 => vEffs (vLanes r.ent.words) x.view.id (vOut s r.ent r.startAc x.view.id)
  | 0x24 => pinEffs s r.ent x.view.id
  | _ => r.effs

/-- Compute anew what a command does, where a granule changed before it was read. -/
def freshen (seat : Nat) (s : State) : State :=
  let x := spanOf s seat
  match x.dirty, runOf s seat with
  | true, some r =>
    let effs := effsAnew r x s
    modSpan seat (fun x => { x with dirty := false })
      { s with runs := s.runs.map (fun q => if q.seat = seat then { q with effs := effs } else q) }
  | _, _ => s

/-- Compute anew what every running command does that is to. -/
def freshenAll (s : State) : State :=
  (s.spans.filter (fun p => p.2.dirty)).foldl (fun s p => freshen p.1 s) s

/-! ### Writing a granule -/

/-- The part of some bytes from `a` on that lies in the granule at g. -/
def partIn (g a : Nat) (bs : List W8) : Nat × List W8 :=
  let lo := Nat.max a g
  (lo, slice (lo - a) (Nat.min (a + bs.length) (g + 64) - lo) bs)

/-- The EC up to which the engines have had their clock, of those up to EC t: after the trip of the die they get none (R378). -/
def clockEc (s : State) (t : Nat) : Nat := if s.pwr.tripped then Nat.min t s.pwr.tripEc else t

/-- Whether a plain write of granule g in EC t falls between the read and the write of an atomic: it is lost (R159). -/
def lostAt (s : State) (t g : Nat) : Bool :=
  s.runs.any (fun r => (spanOf s r.seat).atom && owesGran s r g && decide (readEc s r.seat (spanOf s r.seat) g ≤ t)
    && decide (writeEc s r g ≤ clockEc s (writeEc s r g)))

/-- A write of a granule's part in EC t by a running command. -/
def writeAt (t : Nat) (self : Option Nat) (g : Nat) (s : State) (p : Nat × List W8) : State :=
  if p.2 = [] then s
  else
    let s := noteWrite s t self [g]
    if 2 ^ 40 ≤ g then { s with mxe := { s.mxe with txb := putTxb s.mxe.txb (p.1 - 2 ^ 40) p.2 } } else storeBytes s p.1 p.2

/-- A plain write of a granule's part in EC t by a running command. -/
def writePlain (t : Nat) (self : Option Nat) (g : Nat) (s : State) (p : Nat × List W8) : State :=
  if lostAt s t g then s else writeAt t self g s p

/-! ### Atomics (R158, R162) -/

/-- What an atomic makes of its granule: the old word, the granule after, and the flags (R162). -/
def atomOn (addr aop opnd cmp : Nat) (bs : List W8) : Nat × List W8 × Flags :=
  let i := addr % 64
  let old := ofLE (slice i 4 bs)
  let r := atomNew aop old opnd cmp
  (old, bs.take i ++ leBytes 4 r.1 ++ bs.drop (i + 4), r.2)

/-- An atomic that has not read reads its granule as it is given. -/
def atomRead (r : Run) (bs : List W8) (s : State) : State :=
  r.effs.foldl (fun s e =>
    match e with
    | .atom a op v cmp _ =>
      let y := atomOn a op v cmp bs
      if (spanOf s r.seat).took.isSome then s
      else modSpan r.seat (fun x => { x with took := some (y.1, y.2.2), result := y.2.1 }) s
    | _ => s) s

/-- The atomic that reads granule g first, of those that read it by EC t and have not. -/
def nextAtom (s : State) (t g : Nat) : Option (Nat × Run) :=
  ((s.runs.filter (fun r => (spanOf s r.seat).atom && decide ((spanOf s r.seat).took = none) && owesGran s r g)).map
      (fun r => (readEc s r.seat (spanOf s r.seat) g, r))).foldl (fun b p =>
    if clockEc s t < p.1 then b else match b with
      | none => some p
      | some q => if p.1 < q.1 then some p else some q) none

/-- An atomic's write is dropped: a later read-modify-write carries its result. -/
def dropAtom (r : Run) (g : Nat) (s : State) : State := modSpan r.seat (fun x => { x with landed := g :: x.landed }) s

/-- The arrivals that one span carries are carried by another. -/
def passOn (p : Nat) (q : Option Nat) (s : State) : State :=
  let l := s.xfer.arrivals.map (fun a => if a.carrier = some p then { a with carrier := q } else a)
  { s with xfer := { s.xfer with arrivals := l } }

/-- An atomic comes to its write in EC t: it is dropped where a later read-modify-write has read before it (R158); a plain write
that fell between its read and its write is lost (R159).
DEDUCED: log 53. -/
def landAtom (r : Run) (g t : Nat) (s : State) : State :=
  let s := if (spanOf s r.seat).took = none then atomRead r (granBytes s g) s else s
  match nextAtom s t g with
  | some (_, q) => passOn r.seat (some q.seat) (atomRead q (spanOf s r.seat).result (dropAtom r g s))
  | none => dropAtom r g (writeAt t (some r.seat) g s (g, (spanOf s r.seat).result))

/-- A running command writes granule g in EC t. -/
def landGran (r : Run) (g t : Nat) (s : State) : State :=
  if (spanOf s r.seat).atom then landAtom r g t s
  else
    modSpan r.seat (fun x => { x with landed := g :: x.landed }) (r.effs.foldl (fun s e =>
      match e with
      | .mem a bs => writePlain t (some r.seat) g s (partIn g a bs)
      | .txb sel off bs => writePlain t (some r.seat) g s (partIn g (2 ^ 40 + sel * 524288 + off) bs)
      | _ => s) s)

/-- Of the running commands but `self` that write granule g by EC t and have not, the one that writes first, with its EC. -/
def firstDue (s : State) (t : Nat) (self : Option Nat) (g : Nat) : Option (Nat × Run) :=
  ((s.runs.filter (fun r => decide (r.seat ≠ 0) && decide (self ≠ some r.seat) && owesGran s r g)).map
      (fun r => (writeEc s r g, r))).foldl (fun b p =>
    if clockEc s t < p.1 then b else match b with
      | none => some p
      | some q => if p.1 < q.1 then some p else some q) none

/-- Before an access to granule g in EC t, the running commands but `self` whose slots for it have come write it, first the one
whose slot comes first; what each writes rests on its own granules as it read them. -/
def touch : (fuel t : Nat) → (self : Option Nat) → (g : Nat) → State → State
  | 0, _, _, _, s => s
  | n + 1, t, self, g, s =>
    match firstDue s t self g with
    | none => s
    | some (e, r) =>
      let s := (spanOf s r.seat).reads.foldl (fun s h => touch n e (some r.seat) h s) s
      let s := freshen r.seat s
      let r := (runOf s r.seat).getD r
      touch n t self g (landGran r g e s)

/-- How far `touch` follows commands that write what others read. -/
def touchFuel (s : State) : Nat := 2 * s.runs.length

/-- The writes of granule g whose slots have come by EC t are in place. -/
def settleGran (t g : Nat) (s : State) : State := touch (touchFuel s) t none g s

/-- The writes of some granules whose slots have come are in place. -/
def settleGrans (gs : List Nat) (s : State) : State := gs.foldl (fun s g => settleGran s.ec g s) s

/-- An access of an asynchronous owner that writes some granules: time passes to its slots (R21), and the writes whose slots have
come are in place. -/
def reach (owner : Nat) (gs : List Nat) (s : State) : State := settleGrans gs (takeSlots owner gs s)

/-- One that reads them: in a buffer window it sees the granule from before a write of its own EC (R177). -/
def reachRead (owner : Nat) (gs : List Nat) (s : State) : State :=
  let s := takeSlots owner gs s
  gs.foldl (fun s g => settleGran (if g < bankBytes s then s.ec else s.ec - 1) g s) s

/-! ### Combined arrivals (R157–R159) -/

/-- A combine reads granule g in EC t: the atomics that have read it and not written hand it their result, one to the next, and
their writes are dropped; the arrivals they carry count at the write of the combine (R158). It answers the pending result, and
the spans that carried. -/
def takePending (t g : Nat) : (fuel : Nat) → (pend : Option (List W8)) → (from_ : List Nat) → State →
    State × Option (List W8) × List Nat
  | 0, pend, from_, s => (s, pend, from_)
  | n + 1, pend, from_, s =>
    let took := s.runs.find? (fun r =>
      (spanOf s r.seat).atom && (spanOf s r.seat).took.isSome && owesGran s r g && decide (readEc s r.seat (spanOf s r.seat) g ≤ t))
    match took, nextAtom s t g with
    | some r, _ => takePending t g n (some (spanOf s r.seat).result) (from_ ++ [r.seat]) (dropAtom r g s)
    | none, some (_, r) =>
      let s := atomRead r (pend.getD (granBytes s g)) s
      takePending t g n (some (spanOf s r.seat).result) (from_ ++ [r.seat]) (dropAtom r g s)
    | none, none => (s, pend, from_)

/-- The engine writes of granule g that fall between the slots of a combine are lost (R159). -/
def loseWrites (t g : Nat) (s : State) : State :=
  (s.runs.filter (fun r => decide (r.seat ≠ 0) && owesGran s r g && !(spanOf s r.seat).atom)).foldl (fun s r =>
    if writeEc s r g ≤ t then modSpan r.seat (fun x => { x with landed := g :: x.landed }) s else s) s

/-- Write a granule as a combine does, whose write falls in EC t. -/
def writeRmw (t g : Nat) (bs : List W8) (s : State) : State := storeBytes (loseWrites t g (noteWrite s t none [g])) g bs

/-! ### At the done AC -/

/-- Whether no other running command reads or writes a granule that this one has still to write, and it has written none. -/
def alone (r : Run) (s : State) : Bool :=
  decide ((spanOf s r.seat).landed = []) &&
    (s.spans.filter (fun p => decide (p.1 ≠ r.seat) && !p.2.ended)).all (fun p => p.2.reads.all (fun g => !r.effs.any (effHas g))) &&
    (s.runs.filter (fun q => decide (q.seat ≠ r.seat))).all (fun q => r.effs.all (fun e => !q.effs.any (effMeet e)))

/-- Before a command does anything with what it reads up to EC t, the granules have come to what it reads. -/
def settleReads (t : Nat) (seat : Nat) (s : State) : State :=
  freshen seat ((spanOf s seat).reads.foldl (fun s h =>
    touch (touchFuel s) (Nat.min t (readEc s seat (spanOf s seat) h)) (some seat) h s) s)

/-- At its done AC a command has read all it reads. It answers itself, as it runs, and the changes that it still makes: its writes
among them only where no other command meets them (R33, R271). -/
def settleRun (r : Run) (s : State) : State × Run × List Eff :=
  if r.seat = 0 then (s, r, r.effs)
  else
    let s := settleReads (2 * r.doneAc) r.seat s
    let r := (runOf s r.seat).getD r
    if alone r s then (s, r, r.effs)
    else
      ((owes s r).foldl (fun s g =>
        let e := writeEc s r g
        landGran r g e (touch (touchFuel s) e (some r.seat) g s)) s,
        r, r.effs.filter (fun e => match e with | .mem _ _ => false | .txb _ _ _ => false | _ => true))

/-- The span of a command that is done goes; the slots that it took of the MXE still count for the commands that were running
beside it (R24). -/
def retireSpan (seat : Nat) (s : State) : State :=
  let m := s.spans.map (fun p => if p.1 = seat then (p.1, { p.2 with ended := true, dirty := false, old := [], view := {} }) else p)
  { s with spans := m.filter (fun p => !p.2.ended || (decide (p.2.owner = ownMxe) &&
      m.any (fun q => !q.2.ended && decide (q.2.owner = ownMxe) && decide (q.2.startEc < p.2.doneEc)))) }

/-- The rows of running STREAMs that are visible by AC t have come to what their STREAMs read. -/
def settleStreams (t : Nat) (s : State) : State :=
  (s.runs.filter (fun r => decide (r.opcode = 0x13) && decide (r.seat ≠ 0))).foldl (fun s r => settleReads (2 * t) r.seat s) s

/-! ### A new seed (R52, R444) -/

/-- Whether a command draws random bits. -/
def draws (r : Run) : Bool := r.effs.any (fun e => match e with | .gen _ _ => true | _ => false)

/-- A command that still draws when its generators get a new seed: its draws go on from the new states, from which draw on is open,
and it leaves the generators where its last draw leaves them.
DESIGN CHOICE: log 94. -/
def reseedRun (v : W32) (s : State) (r : Run) : State :=
  let (k, s) := takeFree 65536 s
  let s := freshen r.seat (modSpan r.seat (fun x =>
    { x with dirty := true, view := { x.view with reseeds := x.view.reseeds ++ [⟨v.toNat, k, s.gens⟩] } }) s)
  match runOf s r.seat with
  | some r => { s with gens := r.effs.foldl (fun g e => match e with | .gen q st => SMap.put g q st | _ => g) s.gens }
  | none => s

/-- A write of SCT_SR_SEED: every generator has a new seed at the start of the next AC (R52, R444). -/
def reseed (v : W32) (s : State) : State :=
  let s := advance (2 * ac s + 2) s
  (s.runs.filter (fun r => decide (r.seat ≠ 0) && draws r && decide (ac s < r.doneAc))).foldl (reseedRun v)
    { s with seed := .written v, gens := [] }

/-! ### What is due to start (R28, R272) -/

/-- The AC in which the head of an engine's queue starts: none for a gated STREAM (R79), for a STREAM whose entries stay claimed,
and for every one after the trip of the die (R378). -/
def headStart (s : State) (q : QName) : Option Nat :=
  match queue s q with
  | [] => none
  | e :: _ =>
    if s.pwr.tripped then none
    else match q, wd e.words 0 % 256 with
    | .mxe, 0x10 | .mxe, 0x11 => some (fillGo e s)
    | .mxe, 0x12 => some (swapStart e s)
    | .mxe, 0x13 => if bit (wd e.words 5) 23 then none else streamStart e s
    | .mxe, 0x14 => some (cvtStart e s)
    | .mxe, _ => some (sctStart e s)
    | .txb, _ => some (txbStart e s)
    | .vxe, _ => some (vxeStart e s)
    | .pin, 0x24 => some (runStart e s)
    | .pin, _ => some (atomStart e s)
    | _, _ => none

/-- Whether the head of an engine's queue is due to start before AC a: it starts before anything of AC a comes about (R28,
R272). -/
def startDue (s : State) (a : Nat) : Bool :=
  [QName.mxe, .txb, .vxe, .pin].any (fun q => (headStart s q).any (fun b => decide (b < a)))

/-- Whether everything that is due by AC a has started and completed (R28, R33, R272). -/
def inOrder (s : State) (a : Nat) : Bool := settledAc s a && !startDue s a

/-- A command of an asynchronous engine starts at AC `a`: it comes after every timed command that is done by then (R272). -/
def startInOrder (a : Nat) (f : State → State) (s : State) : State := if startDue s a then s else startAt a f s

end Sys2Proof.Machine
end

