-- ==== Sys2Proof/Machine/Sync.lean ====
section
/-!
DEFINITION. Pennant signals and waits, hoists, and the halyard (chapter 11).
-/
namespace Sys2Proof.Machine

/-- Send something through a port.
DEDUCED: log 18. -/
def emit (o : OutEv) (s : State) : State := { s with out := s.out ++ [o] }

/-! ### SYN.SIGNAL (R251) -/

/-- Its layout conditions. -/
def signalOk (m : Cmd) : Bool :=
  decide (m.rsv = 0) && decide (bits (m.w 1) 31 15 = 0) && decide (bits (m.w 1) 13 12 ≠ 3) && zeroFrom m 4
    && (if bit (m.w 1) 14 then decide (bits (m.w 3) 31 22 = 0) else decide (m.w 3 = 0))

/-- Its issue: a remote signal enters the outbound buffer at its start AC; a local one takes the pennant unit for 1 AC and
changes the count at its done AC, 4 AC after its end (R28, R33). -/
def issueSignal (c : Ctx) (m : Cmd) (s : State) : State :=
  if signalOk m = false then formatFault c m s
  else
    let s := passed c m s
    let p := bits (m.w 1) 11 0
    let op := bits (m.w 1) 13 12
    if bit (m.w 1) 14 then post (some c) none (m.ec / 2 + 2) (mkMsg s 1 (m.w 3) 0 false p op (m.w 2)) s
    else
      let a := Nat.max (m.ec / 2 + 2) s.syn.unitFree
      let s := { s with
        runs := s.runs ++ [⟨c, m.tag, 0x28, a, a + 1, a + 5, [.pennant p op (m.w 2)], default, 0⟩]
        syn := { s.syn with unitFree := a + 1 } }
      dueAtEnd (a - 1) dueSignal s

/-! ### SYN.WAIT (R246–R250, R254) -/

/-- Its layout conditions. -/
def waitOk (m : Cmd) : Bool :=
  decide (m.rsv = 0) && decide (bits (m.w 1) 31 18 = 0) && decide (bits (m.w 3) 31 20 = 0) && zeroFrom m 4
    && (bit (m.w 1) 13 || decide (bits (m.w 1) 17 14 = 0))

/-- Whether a wait comes before another in the order in which the unit takes them: by AC, the escapement's first, in context
order, then the host's in the order of their descriptors (R247). -/
def waitBefore (x y : PWait) : Bool :=
  decide (x.at_ / 2 < y.at_ / 2) || (decide (x.at_ / 2 = y.at_ / 2) &&
    (match x.who, y.who with
     | .ctx a, .ctx b => decide (a < b)
     | .ctx _, .host .. => true
     | _, _ => false))

/-- Place a wait in the order of arrival. -/
def insertWait (w : PWait) : List PWait → List PWait
  | [] => [w]
  | x :: l => if waitBefore w x then w :: x :: l else x :: insertWait w l

/-- A wait is on its way to the pennant unit, which evaluates it in the AC in which it arrives (R246, R247).
DEDUCED: log 17. -/
def enterWait (w : PWait) (s : State) : State :=
  dueEval w.pennant (w.at_ / 2) { s with syn := { s.syn with waits := insertWait w s.syn.waits } }

/-- Its issue ends the timed section; it reaches the unit two AC later.
DEDUCED: log 17. -/
def issueWait (c : Ctx) (m : Cmd) (s : State) : State :=
  if waitOk m = false then formatFault c m s
  else
    let s := modCtx (passed c m s) c (fun x => { x with point := .pennant })
    let e := 2 * (m.ec / 2 + 2)
    enterWait { who := .ctx c, pennant := bits (m.w 1) 11 0, take := bit (m.w 1) 12, value := m.w 2
                due := dueAt s e (m.w 3), act := bit (m.w 1) 13, pred := bits (m.w 1) 17 14, tag := m.tag, at_ := e } s

/-- A context's wait, of command `op` on pennant or hoist `n`, releases without its condition: its predicate is cleared (R250,
R260, R406). -/
def releaseCleared (c : Ctx) (pred op tag n : Nat) (s : State) : State :=
  trace { kind := 5, ctx := some c, opcode := op, tag := tag, time := s.ec, argB := n }
    (modCtx s c (fun x => { setPred x pred false with point := .releasing (ac s) }))

/-- A wait whose timeout has expired is withdrawn and takes nothing; the waits behind it are evaluated in the next AC. -/
def timeOut (w : PWait) (s : State) : State :=
  let s := dueEval w.pennant (ac s + 1) (dropWait w s)
  let s := { s with syn := { s.syn with timeouts := (s.syn.timeouts + 1) % 2 ^ 32 } }
  match w.who with
  | .ctx c => if w.act then releaseCleared c w.pred 0x29 w.tag w.pennant s
              else streamFault c cSYNC_TIMEOUT w.tag [w.pennant, pennant s w.pennant] s
  | .host ring seq hostTag _ =>
    pushEvent cSYNC_TIMEOUT 0 none 0 hostTag seq [w.pennant, pennant s w.pennant]
      (ringDone ⟨5, ring, seq, hostTag, false⟩ s)

/-- SYNC_TIMEOUT: the timeout of the i-th wait expires, judged after the evaluation of its AC, which every completion of that
AC goes before; a wait that the evaluation releases does not time out, and the gate's take of that AC goes before it (R247,
R250). -/
def execSyncTimeout (i : Nat) (s : State) : Out :=
  match s.syn.waits[i]? with
  | none => .next s
  | some w =>
    match w.due with
    | none => .next s
    | some d =>
      let s1 := advanceWall d s
      if settledAc s (ac s1) = false then .next s
      else
        let s1 := evalUpTo w.pennant (ac s1 + 1) s1
        .next (if w ∈ s1.syn.waits ∧ gateDue w.pennant (ac s1) s1 = false then timeOut w s1 else s1)

/-- PENNANT_SET: a host write to a pennant word is a SET (R255). -/
def execPennantSet (p : Nat) (v : W32) (s : State) : Out := afterBoot s (.next (raise 2 (p % 4096) 2 v.toNat {} s))

/-- The layout conditions of SYN.HOIST. -/
def hoistOk (m : Cmd) : Bool :=
  decide (m.rsv = 0) && decide (bits (m.w 1) 9 8 ≠ 3) && decide (bits (m.w 1) 31 15 = 0) && zeroFrom m 2
    && (bit (m.w 1) 10 || decide (bits (m.w 1) 14 11 = 0))

/-- The AC in which a SYN command reaches its unit (R28). -/
def Cmd.arrives (m : Cmd) : Nat := m.ec / 2 + 2

/-- The issue of SYN.HOIST: an untimed point in every mode; it reaches the hoist unit two AC later. An ARRIVE_WAIT that a pause
met after its entry was recorded resumes as WAIT (R28, R259, R356). -/
def issueHoist (c : Ctx) (m : Cmd) (s : State) : State :=
  if hoistOk m = false then formatFault c m s
  else
    let mode := bits (m.w 1) 9 8
    let n : HEnt := { ctx := c, ac := m.arrives, hoist := bits (m.w 1) 7 0
                      mode := if mode = 0 ∧ (ctx s c).rejoin = true then 2 else mode
                      act := bit (m.w 1) 10, pred := bits (m.w 1) 14 11, tag := m.tag }
    let s := modCtx (passed c m s) c (fun x => { x with point := .hoist, rejoin := false })
    dueAtEnd n.ac (4352 + c.val) { s with syn := { s.syn with ents := s.syn.ents ++ [n] } }

/-- The parent and the children of a hoist; one with no parties stands in no tree.
DESIGN CHOICE: log 98. -/
def neighbours (s : State) (x : Hoist) : List Nat :=
  if parties x = 0 then [] else (if x.root then [] else [x.parent]) ++ childWords s x

/-- Abort a hoist (R262): every waiter stops, and ABORT goes to every neighbour but the one it came from. -/
def abortHoist (h cause : Nat) (from_ : Option Nat) (s : State) : State :=
  let x := hoist s h
  if x.st = .aborted then s
  else
    let s := modHoist h (fun y => { y with st := .aborted, cause := cause, waiters := [] }) s
    let s := x.waiters.foldl (fun s w => streamFault w.ctx cABORTED w.tag [h, cause] s) s
    hoistMsgs 4 h false 0 (ac s) ((neighbours s x).filter (fun w => decide (some (bits w 29 0) ≠ from_))) s

/-- The hoist in which a context waits, and its wait. -/
def hwaitOf (s : State) (c : Ctx) : Option (Nat × HWait) :=
  s.syn.hoists.findSome? (fun p => (p.2.waiters.find? (fun w => decide (w.ctx = c))).map (fun w => (p.1, w)))

/-- HOIST_WAIT_TIMEOUT: a waiter's timer expires (R260). -/
def execHoistWaitTimeout (c : Ctx) (s : State) : Out :=
  match hwaitOf s c with
  | none => .next s
  | some (h, w) =>
    match w.due with
    | none => .next s
    | some d =>
      let s := modHoist h (fun x => { x with waiters := x.waiters.erase w }) (advanceWall d s)
      let x := hoist s h
      let st := match x.st with | .open_ => 0 | .sent => 1 | .aborted => 2
      let s := if w.act then releaseCleared c w.pred 0x2A w.tag h s else streamFault c cHOIST_TIMEOUT w.tag [h, st] s
      .next (if x.abortOnTimeout then abortHoist h 0 none s else s)

/-- The host enters a hoist; a refusal is logged and sets overrun (R257). -/
def hostEnter (h : Nat) (s : State) : State :=
  match entryOf s h 8 with
  | .refused code d =>
    let s := if code = cABORTED then s else modHoist h (fun x => { x with overrun := true }) s
    advise code {} d s
  | .marked next => checkHoist h (ac s) (markEntry h 8 next s)

/-- Rearm a hoist: OPEN with parity 0 and nothing recorded; contexts that wait on it stop (R263). -/
def rearm (h : Nat) (s : State) : State :=
  let ws := (hoist s h).waiters
  let s := modHoist h (fun x => { x with
    parity := false, st := .open_, marksN := 0, marksN1 := 0, childN := [], childN1 := [], entered := 0, closed := 0, waiters := [] }) s
  ws.foldl (fun s w => streamFault w.ctx cABORTED w.tag [h, 3] s) s

/-- HOST_ARRIVE (R257). -/
def execHostArrive (h : Nat) (s : State) : Out := afterBoot s (.next (hostEnter (h % 256) s))
/-- REARM (R263). -/
def execRearm (h : Nat) (s : State) : Out := afterBoot s (.next (rearm (h % 256) s))

/-- The fields of a hoist configuration word (R267). -/
def hoistCfg (v : Nat) (x : Hoist) : Hoist :=
  { x with
    mask := bits v 8 0, childCount := bits v 16 9, childBase := bits v 27 17, root := bit v 28
    abortOnTimeout := bit v 29, notify := bit v 30, enable := bit v 31 }

/-- A write of SYN_HOIST_CFG_h, judged on enable before the write (R256). -/
def hoistCfgWrite (h v : Nat) (s : State) : State :=
  let x := hoist s h
  let y := hoistCfg v x
  if x.enable then modHoist h (fun x => { x with enable := bit v 31 }) s
  else if y.enable && (decide (parties y = 0) || decide (2048 < y.childBase + y.childCount)) then s
  else modHoist h (fun _ => y) s

/-- SYN_HOIST_CFG_WRITE (R256). -/
def execSynHoistCfgWrite (h : Nat) (v : W32) (s : State) : Out := afterBoot s (.next (hoistCfgWrite (h % 256) v.toNat s))

/-! ### Inbound messages (R264–R266) -/

/-- A dropped message that matches nothing (R266). -/
def halUnknown (m : HalMsg) (s : State) : State :=
  advise cHAL_UNKNOWN {} [bits m.w0.toNat 3 0, bits m.w2.toNat 11 0]
    { s with syn := { s.syn with unkDrops := (s.syn.unkDrops + 1) % 2 ^ 16 } }

/-- Who sent a hoist message: the node word of its sender. -/
def senderWord (m : HalMsg) : Nat := bits m.w1.toNat 29 0

/-- Which child a sender is. -/
def childIndex (s : State) (x : Hoist) (m : HalMsg) : Option Nat :=
  (List.range x.childCount).find? (fun k => decide (bits ((childWords s x).getD k 0) 29 0 = senderWord m))

/-- Whether the sender is the node's parent. -/
def fromParent (x : Hoist) (m : HalMsg) : Bool := !x.root && decide (bits x.parent 29 0 = senderWord m)

/-- A message passes the checks of R266 that do not concern hoists: then `act` handles it. A row takes only messages of its
kind; one with a reserved kind is dropped whatever the row. -/
def receive (kind : Nat) (act : HalMsg → State → State) (m : HalMsg) (s : State) : Out :=
  let k := bits m.w0.toNat 3 0
  if s.isolated then .next s
  else if bits m.w2.toNat 31 16 ≠ halCrc m then
    .next (advise cHAL_CRC {} [] { s with syn := { s.syn with crcDrops := (s.syn.crcDrops + 1) % 2 ^ 16 } })
  else if k = 0 ∨ 5 < k ∨ acceptsPos s (bits m.w0.toNat 25 4) = false ∨ (k = 1 ∧ bits m.w2.toNat 13 12 = 3) then
    .next (halUnknown m s)
  else if k ≠ kind then .fault .notThisRow
  else .next (act m { s with syn := { s.syn with msgsIn := (s.syn.msgsIn + 1) % 2 ^ 32 } })

/-- A hoist kind reaches a hoist in service from its parent or a child; otherwise a protocol mismatch (R266).
DEDUCED: log 70. -/
def atHoist (act : Nat → Hoist → HalMsg → State → State) (m : HalMsg) (s : State) : State :=
  let h := bits m.w2.toNat 7 0
  let x := hoist s h
  if !x.enable || !(fromParent x m || (childIndex s x m).isSome) then halUnknown m s else act h x m s

/-- SIGNAL_MESSAGE (R245). -/
def execSignalMessage (m : HalMsg) (s : State) : Out :=
  afterBoot s <|
  receive 1 (fun m s => raise 5 (bits m.w2.toNat 11 0) (bits m.w2.toNat 13 12) m.w3.toNat {} s) m s

/-- ARRIVE_MESSAGE (R257, R266). One from the parent is logged, whatever the state; one from a child for an ABORTED hoist is dropped.
DESIGN CHOICE: log 110. -/
def execArriveMessage (m : HalMsg) (s : State) : Out :=
  afterBoot s <|
  receive 2 (atHoist (fun h x m s =>
    match childIndex s x m with
    | none => halUnknown m s
    | some k =>
      if x.st = .aborted then s
      else
        let next := decide (bit m.w1.toNat 30 ≠ x.parity)
        if k ∈ (if next then x.childN1 else x.childN) then halUnknown m s
        else checkHoist h (ac s) (modHoist h (fun y =>
          if next then { y with childN1 := y.childN1 ++ [k] } else { y with childN := y.childN ++ [k] }) s))) m s

/-- RELEASE_MESSAGE (R258, R266). One that is not from the parent is logged, whatever the state.
DESIGN CHOICE: log 110. -/
def execReleaseMessage (m : HalMsg) (s : State) : Out :=
  afterBoot s <|
  receive 3 (atHoist (fun h x m s =>
    if !fromParent x m then halUnknown m s
    else if x.st = .aborted then s
    else if x.st ≠ .sent ∨ bit m.w1.toNat 30 ≠ x.parity then halUnknown m s
    else closeNext h (ac s) s)) m s

/-- ABORT_MESSAGE (R262). -/
def execAbortMessage (m : HalMsg) (s : State) : Out :=
  afterBoot s <|
  receive 4 (atHoist (fun h _ m s => abortHoist h 2 (some (senderWord m)) s)) m s

/-- THERMAL_ADVISORY: every waiter's timer grows, to at most 1,048,575 µs, and the message goes on to every other neighbour
(R261).
DEDUCED: log 70. -/
def execThermalAdvisory (m : HalMsg) (s : State) : Out :=
  afterBoot s <|
  receive 5 (atHoist (fun h x m s =>
    let us := bits m.w3.toNat 19 0
    let longer (w : HWait) : HWait := { w with due := w.due.map (fun d =>
      Nat.min (d + us * usTicks) (w.start + 1048575 * usTicks)) }
    let s := modHoist h (fun y => { y with waiters := y.waiters.map longer }) s
    hoistMsgs 5 h false us (ac s) ((neighbours s x).filter (fun w => decide (bits w 29 0 ≠ senderWord m))) s)) m s

/-- An entry of a context's 64 is free in AC a: the message of the context that waited for one enters the buffer (R252).
DESIGN CHOICE: log 18. -/
def entryFrees (c : Option Ctx) (a : Nat) : (k : Nat) → List OutMsg → List OutMsg
  | _, [] => []
  | k, o :: l =>
    if c.isSome ∧ o.owner = c then
      match k with
      | 0 => { o with start := Nat.max o.start a } :: l
      | k + 1 => o :: entryFrees c a k l
    else o :: entryFrees c a k l

/-- HALYARD_SEND: the oldest outbound message leaves the HY_ port, not before its start AC and the completions due by then
(R251, R252, R264, R277); an isolated core sends none (R368). -/
def execHalyardSend (s : State) : Out :=
  if s.isolated then .next s
  else
    match s.syn.out with
    | [] => .next s
    | o :: rest =>
      if inOrder s o.start = false then .next s
      else
      let s := advance (2 * o.start) s
      let s := emit (.halyard o.msg) { s with syn := { s.syn with
        out := entryFrees o.owner (ac s) 63 rest, msgsOut := (s.syn.msgsOut + 1) % 2 ^ 32 } }
      let s := match o.owner with | some c => modCtx s c (fun x => { x with outLeft := s.ec }) | none => s
      .next (match o.host with | some r => complete r 0 0 0 0 0 (ringDone r s) | none => s)

/-! ### Rows -/

/-- The mode of a SYN.HOIST slot. -/
def hoistMode (sl : Slot) : Nat := bits sl.w1.toNat 9 8

/-- The issue of a SYN.HOIST of one mode. -/
def issueHoistRow (mode : Nat) (sl : Slot) (s : State) : Out :=
  if hoistMode sl = mode then issueRow 0x2A false (atPoint issueHoist) sl s else .fault .notThisRow

/-- SYN_SIGNAL (R251). -/
def execSynSignal (sl : Slot) (s : State) : Out := issueRow 0x28 false issueSignal sl s
/-- SYN_WAIT (R254). -/
def execSynWait (sl : Slot) (s : State) : Out := issueRow 0x29 false (atPoint issueWait) sl s
/-- HOIST_ARRIVE_WAIT (R259). -/
def execHoistArriveWait (sl : Slot) (s : State) : Out := issueHoistRow 0 sl s
/-- HOIST_ARRIVE (R259). -/
def execHoistArrive (sl : Slot) (s : State) : Out := issueHoistRow 1 sl s
/-- HOIST_WAIT (R259). -/
def execHoistWait (sl : Slot) (s : State) : Out := issueHoistRow 2 sl s

/-- The slots whose opcode is listed and whose operation, atomic or mode is a reserved value: no other row issues them. -/
def reservedForm (sl : Slot) : Bool :=
  match opcodeOf sl with
  | 0x20 => decide (vFam (slotVop sl) = .none)
  | 0x25 => decide (slotAop sl = 15)
  | 0x2A => decide (hoistMode sl = 3)
  | _ => false

/-- RESERVED_OPCODE: a slot with an opcode the table does not list faults at issue as FORMAT_INVALID and enters no queue
(R208). A slot with a reserved operation of a listed class is issued here too: a VXE or atomic enters its queue and faults
where it starts (R113, R162), a SYN.HOIST at issue (R445).
DEDUCED: log 54. -/
def execReservedOpcode (sl : Slot) (s : State) : Out :=
  if opcodeListed (opcodeOf sl) = false then .next (doIssue false issueReserved sl s)
  else if reservedForm sl then
    .next (doIssue false (match opcodeOf sl with
      | 0x20 => enqueue .vxe
      | 0x25 => enqueue .pin
      | _ => issueReserved) sl s)
  else .fault .notThisRow

end Sys2Proof.Machine
end

