-- ==== Sys2Proof/Machine/Ext.lean ====
section
/-!
DEFINITION. External memory (chapter 13): capacity and placement, the block directory, the bytes of the parts behind the
write-combining buffer, and the acceptance of a writer's bytes with sealing.
-/
namespace Sys2Proof.Machine

/-- Change the XMU block. -/
def modXmu (f : XmuSt → XmuSt) (s : State) : State := { s with xmu := f s.xmu }

/-! ### Capacity and placement (R284–R287) -/

/-- Installed blocks (R284). -/
def installed (x : XmuSt) : Nat :=
  if x.populated then (match x.density with | 0 => 131072 | 1 => 196608 | _ => 262144) * (if x.clamshell then 2 else 1)
  else 0

/-- The first channel block of the reserved spare region of a channel (R287). -/
def spareBlk (x : XmuSt) : Nat := installed x / 4 - 512

/-- The first spare row of a bank, the highest 256 rows (R287). -/
def spareRow (x : XmuSt) : Nat := installed x / 8 - 256

/-- Channel c. -/
def chan (x : XmuSt) (c : Nat) : ChanRec := SMap.get {} x.chans c
/-- Change channel c. -/
def modChan (c : Nat) (f : ChanRec → ChanRec) (x : XmuSt) : XmuSt := { x with chans := SMap.mod {} x.chans c f }

/-- Whether channel c serves accesses (R311, R417). -/
def chanActive (x : XmuSt) (c : Nat) : Bool := decide ((chan x c).st = .active)
/-- Whether channel c is mapped out (R313). -/
def mappedOut (x : XmuSt) (c : Nat) : Bool := decide ((chan x c).st = .mappedOut)

/-- The directory entry of a block that nothing has changed (R286, R287, R290, R313). -/
def dirDefault (x : XmuSt) (b : Nat) : DirEnt :=
  { st := if installed x ≤ b ∨ spareBlk x ≤ b / 4 ∨ mappedOut x (b % 4) = true then .retired else .unsealed
    chan := b % 4
    blk := b / 4 }

/-- The directory entry of block b (R289).
DEDUCED: log 68. -/
def dirEnt (x : XmuSt) (b : Nat) : DirEnt := SMap.get (dirDefault x b) x.dir b

/-- Write a directory entry. -/
def setDir (b : Nat) (e : DirEnt) (x : XmuSt) : XmuSt := { x with dir := SMap.set (dirDefault x b) x.dir b e }

/-- Change a directory entry. -/
def modDir (b : Nat) (f : DirEnt → DirEnt) (x : XmuSt) : XmuSt := setDir b (f (dirEnt x b)) x

/-- Whether block b is RETIRED; one whose entry cannot be read counts as SEALED (R292). -/
def retired (x : XmuSt) (b : Nat) : Bool := decide ((dirEnt x b).st = .retired) && !(dirEnt x b).upset

/-- DIR_UNCORRECTABLE: the entry of block b has been read and has an uncorrectable error (R292). -/
def logDirUe (b : Nat) (s : State) : State := advise cDIR_UE {} [b] s

/-- Blocks that are not RETIRED (R287, R310): those of the reset directory, corrected by the entries that differ from it. -/
def usable (x : XmuSt) : Nat :=
  x.dir.foldl (fun n p =>
    let d := decide ((dirDefault x p.1).st = .retired)
    let r := decide (p.2.st = .retired)
    if d && !r then n + 1 else if !d && r then n - 1 else n)
    (((List.range 4).filter (fun c => !mappedOut x c)).length * spareBlk x)

/-- The physical line of line l of an entry's block: channel, channel block and line (R285). -/
def plOf (e : DirEnt) (l : Nat) : Nat := e.chan * 2 ^ 24 + e.blk * 128 + l

/-- The channel of a physical line. -/
def plChan (pl : Nat) : Nat := pl / 2 ^ 24

/-- The bank and row of a physical line (R285). -/
def plBank (pl : Nat) : Nat := 8 * (pl / 128 % 2) + pl % 8
def plRow (pl : Nat) : Nat := pl % 2 ^ 24 / 256

/-! ### Bytes -/

/-- A byte of the parts: one that nothing has written is open. -/
def partByte (x : XmuSt) (k : Nat) : W8 := SMap.get (Config.freeByte (2 ^ 41 * (x.gen + 1) + k)) x.ext k

/-- The write-combining line of a physical line. -/
def wcbLine (x : XmuSt) (pl : Nat) : Option WcbLine := x.wcb.find? (fun l => decide (l.pl = pl))

/-- Byte o of a physical line, from the write-combining buffer while the byte is there (R303).
DEDUCED: log 64. -/
def lineByte (x : XmuSt) (pl o : Nat) : W8 :=
  match (wcbLine x pl).bind (fun l => (l.bytes.getD o none)) with
  | some b => b
  | none => partByte x (pl * 128 + o)

/-- n bytes of a physical line from byte o on. -/
def lineBytes (x : XmuSt) (pl o n : Nat) : List W8 := (List.range n).map (fun i => lineByte x pl (o + i))

/-- The byte at an external address. -/
def extByte (x : XmuSt) (a : Nat) : W8 := lineByte x (plOf (dirEnt x (a / 16384)) (a % 16384 / 128)) (a % 128)

/-- n bytes from an external address on. -/
def extBytes (x : XmuSt) (a n : Nat) : List W8 := (List.range n).map (fun i => extByte x (a + i))

/-- The CRC-32C of a block's 16,384 bytes (R289). -/
def blockCrc (x : XmuSt) (b : Nat) : Nat := crc32c (extBytes x (b * 16384) 16384)

/-- Write the enabled bytes of a line into the part. -/
def putLine (pl : Nat) : (o : Nat) → List (Option W8) → XmuSt → XmuSt
  | _, [], x => x
  | o, none :: bs, x => putLine pl (o + 1) bs x
  | o, some b :: bs, x => putLine pl (o + 1) bs { x with ext := SMap.put x.ext (pl * 128 + o) b }

/-! ### The write-combining buffer (R302) -/

/-- Whether every byte of a line is written. -/
def WcbLine.full (l : WcbLine) : Bool := l.bytes.all Option.isSome

/-- A line that drains to the row of the copy that runs is written into the spare too (R309). -/
def noteDrain (pl : Nat) : List RemapCopy → List RemapCopy
  | [] => []
  | k :: ks =>
    if plChan pl = k.ch ∧ plBank pl = k.bank ∧ plRow pl = k.row then { k with drained := insertNew pl k.drained } :: ks
    else k :: ks

/-- A line drains to its part; one that is not full is first completed by a read of the line (R302, R385). -/
def drainLine (l : WcbLine) (s : State) : State :=
  let s := modXmu (fun x => putLine l.pl 0 l.bytes { x with wcb := x.wcb.filter (fun k => decide (k.pl ≠ l.pl)) }) s
  let s := modXmu (fun x => { modChan (plChan l.pl) (fun c => { c with
      wTries := SMap.erase c.wTries (l.pl % 2 ^ 24), writers := SMap.set {} c.writers (l.pl % 2 ^ 24) l.blame }) x with
    copies := noteDrain l.pl x.copies }) s
  addTot tXWR 128 (if l.full then s else addTot tXRD 128 s)

/-- The oldest written line that can drain. -/
def oldestLine (x : XmuSt) : Option WcbLine :=
  (x.wcb.filter (fun l => chanActive x (plChan l.pl))).foldl (fun b l => match b with
    | none => some l
    | some k => if l.last < k.last then some l else some k) none

/-- Merge enabled bytes into a line from byte o on. -/
def mergeAt (o : Nat) (bs : List (Option W8)) (old : List (Option W8)) : List (Option W8) :=
  (List.range 128).map (fun i =>
    if o ≤ i then (match bs.getD (i - o) none with | some b => some b | none => old.getD i none) else old.getD i none)

/-- Put a write into the write-combining buffer. -/
def combineWrite (blame : Blame) (blk pl o : Nat) (bs : List (Option W8)) (s : State) : State :=
  let s := if (wcbLine s.xmu pl).isSome ∨ s.xmu.wcb.length < 64 then s
    else match oldestLine s.xmu with
      | some l => drainLine l s
      | none => s
  let old := ((wcbLine s.xmu pl).map WcbLine.bytes).getD []
  let l : WcbLine := ⟨pl, blk, mergeAt o bs old, s.ec, blame⟩
  let s := modXmu (fun x => { x with wcb := x.wcb.filter (fun k => decide (k.pl ≠ pl)) ++ [l] }) s
  if l.full && chanActive s.xmu (plChan pl) then drainLine l s else s

/-- WCB_LINE_DRAIN: line i of the buffer, oldest placed first: a full line at once, another one 256 EC after its last write
(R302); none in self-refresh (R316). -/
def execWcbLineDrain (i : Nat) (s : State) : Out :=
  match s.xmu.wcb[i]? with
  | none => .next s
  | some l =>
    if s.xmu.step = 3 ∨ chanActive s.xmu (plChan l.pl) = false then .next s
    else if l.full then .next (drainLine l s)
    else .next (drainLine l (advance (l.last + 256) s))

/-! ### Acceptance and sealing (R291, R293) -/

/-- The 4-byte words of a block that a write of n enabled bytes at a block offset covers whole, as bits. -/
def wordBits (o : Nat) (bs : List (Option W8)) : Nat :=
  ((List.range ((bs.length + 3) / 4 + 1)).filter (fun k =>
    (List.range 4).all (fun i => decide (o ≤ (o / 4 + k) * 4 + i) && ((bs.getD ((o / 4 + k) * 4 + i - o) none).isSome)))).foldl
    (fun m k => m ||| 2 ^ (o / 4 + k)) 0

/-- Mark the checks of reads in progress of a block: a writer's line came between (R294). -/
def markRace (b : Nat) (s : State) : State :=
  { s with xfer := { s.xfer with jobs := s.xfer.jobs.map (fun j => { j with chks := j.chks.map (fun k =>
    if k.blk = b then { k with race := true } else k) }) } }

/-- The XMU accepts bytes of a writer within one line (R291, R293): the block becomes UNSEALED and dirty unless exempt; when
the writer has written the whole block with no other writer between, the block becomes SEALED with the CRC of its bytes. -/
def acceptLine (writer : Nat) (blame : Blame) (a : Nat) (bs : List (Option W8)) (s : State) : State :=
  let b := a / 16384
  let s := combineWrite blame b (plOf (dirEnt s.xmu b) (a % 16384 / 128)) (a % 128) bs (markRace b s)
  let old := match SMap.get none (s.xmu.sealing.map (fun p => (p.1, some p.2))) b with
    | some r => if r.writer = writer then r.got else 0
    | none => 0
  let got := old ||| wordBits (a % 16384) bs
  let s := modXmu (fun x => { modDir b (fun e => { e with st := .unsealed, dirty := e.dirty || !e.exempt }) x with
    sealing := SMap.put x.sealing b ⟨writer, got⟩ }) s
  if got = 2 ^ 4096 - 1 then modXmu (fun x => modDir b (fun e => { e with st := .sealed_, crc := blockCrc x b, upset := false }) x) s else s

/-- The XMU accepts bytes that a fill writes: they come with the CRC of their stream (R366). -/
def acceptFill (a : Nat) (bs : List (Option W8)) (s : State) : State :=
  let b := a / 16384
  modXmu (modDir b (fun e => { e with dirty := e.dirty || !e.exempt }))
    (combineWrite {} b (plOf (dirEnt s.xmu b) (a % 16384 / 128)) (a % 128) bs (markRace b s))

/-- A writer has ended: its records of sealing are gone. -/
def endWriter (writer : Nat) (s : State) : State :=
  modXmu (fun x => { x with sealing := x.sealing.filter (fun p => decide (p.2.writer ≠ writer)) }) s

/-- Accept a run of bytes from an external address on, line by line, each line by `f`. -/
def acceptRun (f : Nat → List (Option W8) → State → State) : (fuel : Nat) → (a : Nat) → List (Option W8) → State → State
  | 0, _, _, s => s
  | _, _, [], s => s
  | fuel + 1, a, bs, s =>
    let n := 128 - a % 128
    acceptRun f fuel (a + n) (bs.drop n) (f a (bs.take n) s)

/-- Accept bytes of a writer from an external address on. -/
def acceptBytes (writer : Nat) (blame : Blame) (a : Nat) (bs : List W8) (s : State) : State :=
  acceptRun (acceptLine writer blame) (bs.length / 128 + 2) a (bs.map some) s

/-- The fault of an extent of n bytes at an external address: beyond the installed capacity, or a RETIRED block (R288).
DEDUCED: log 68. -/
def extFault (x : XmuSt) (a n : Nat) : Option (Nat × List Nat) :=
  if installed x * 16384 < a + n then some (cADDR, [a % 2 ^ 32, a / 2 ^ 32 + 4])
  else
    match (List.range ((a + n + 16383) / 16384 - a / 16384)).find? (fun i => retired x (a / 16384 + i)) with
    | some i => some (cRETIRED, [a / 16384 + i])
    | none => none

/-- Whether the parts can be read at an extent: their channels serve, and they are not in self-refresh (R311, R315, R417). -/
def extAwake (x : XmuSt) (a n : Nat) : Bool :=
  decide (x.step ≠ 3) && (List.range ((a + n + 16383) / 16384 - a / 16384)).all (fun i =>
    chanActive x (dirEnt x (a / 16384 + i)).chan || retired x (a / 16384 + i))

/-- The physical lines of external ranges. -/
def linesOf (x : XmuSt) (rs : List Range) : List Nat :=
  rs.flatMap (fun r => (List.range ((r.1 + r.2 + 127) / 128 - r.1 / 128)).map (fun i =>
    plOf (dirEnt x ((r.1 / 128 + i) / 128)) ((r.1 / 128 + i) % 128)))

/-- The lines that stand in the buffer, once it has taken those of the ranges, and cannot drain. -/
def stuckLines (x : XmuSt) (rs : List Range) : List Nat :=
  ((x.wcb.map (fun l => l.pl) ++ linesOf x rs).filter (fun pl => !chanActive x (plChan pl))).dedup

/-- Whether the write-combining buffer can take every line of the ranges (R302, R315): not in CRITICAL, of a channel that does
not serve at most 16 lines in all, and with a line to pass those through that can drain. -/
def roomForLines (x : XmuSt) (rs : List Range) : Bool :=
  let stuck := stuckLines x rs
  let new := (linesOf x rs).filter (fun pl => (wcbLine x pl).isNone)
  decide (x.step ≠ 3)
    && (List.range 4).all (fun c => chanActive x c || decide ((stuck.filter (fun pl => decide (plChan pl = c))).length ≤ 16)
      || decide (new.all (fun pl => decide (plChan pl ≠ c))))
    && (decide (stuck.length ≤ 63) || decide (new = []) || (decide (stuck.length = 64) && new.all (fun pl => !chanActive x (plChan pl))))

end Sys2Proof.Machine
end

