-- ==== Sys2Proof/Machine/Nvs.lean ====
section
/-!
DEFINITION. The settings store (chapter 21): the staging image and its records, STORE and reload, the escapement firmware.
-/
namespace Sys2Proof.Machine

/-- Change the NVS block. -/
def modNvs (f : NvsSt → NvsSt) (s : State) : State := { s with nvs := f s.nvs }

/-- Word w of the staging image. -/
def stagingWord (n : NvsSt) (w : Nat) : Nat := SMap.get 0 n.staging w
/-- Write word w of the staging image. -/
def setStaging (w v : Nat) (n : NvsSt) : NvsSt := { n with staging := SMap.set 0 n.staging w (v % 2 ^ 32) }

/-- Records in use (R427). -/
def nRec (n : NvsSt) : Nat := bits (stagingWord n 0) 26 16
/-- Set the records in use. -/
def setNRec (k : Nat) (n : NvsSt) : NvsSt := setStaging 0 (setBits (stagingWord n 0) 26 16 k) n

/-- records_full: the staging image holds 1,984 records (R430, R437). -/
def recordsFull (n : NvsSt) : Bool := decide (1984 ≤ nRec n)

/-- Record k: its low and high word (R427). -/
def recordAt (n : NvsSt) (k : Nat) : Nat × Nat := (stagingWord n (128 + 2 * k), stagingWord n (129 + 2 * k))

/-- The records in use, in order. -/
def records (n : NvsSt) : List (Nat × Nat) := (List.range (Nat.min 1984 (nRec n))).map (recordAt n)

/-- Put a list of records in place of those in use: the places it leaves are empty, and what lies behind them stays. -/
def putRecords (l : List (Nat × Nat)) (n : NvsSt) : NvsSt :=
  let n := (List.range (Nat.min 1984 (nRec n))).foldl (fun n k =>
    let r := l.getD k (0, 0)
    setStaging (129 + 2 * k) r.2 (setStaging (128 + 2 * k) r.1 n)) n
  setNRec l.length n

/-- Word w of a copy of the companion macro; an erased word reads all ones. -/
def copyWord (n : NvsSt) (c w : Nat) : Nat := SMap.get 0xFFFFFFFF (if c = 0 then n.copy0 else n.copy1) w

/-- The 4,096 words of a copy. -/
def copyWords (n : NvsSt) (c : Nat) : List Nat := (List.range 4096).map (copyWord n c)

/-- Whether every word of a copy is erased (R428). -/
def copyBlank (n : NvsSt) (c : Nat) : Bool := decide ((if c = 0 then n.copy0 else n.copy1) = [])

/-- The CRC over a copy with its crc word taken as zero (R427). -/
def imageCrc (ws : List Nat) : Nat := crc32c (bytesOfWords (ws.set 127 0))

/-- Whether a copy is valid: its crc matches and its version is 1 (R428). -/
def copyValid (n : NvsSt) (c : Nat) : Bool :=
  !copyBlank n c && decide (bits (copyWord n c 0) 15 0 = 1) && decide (imageCrc (copyWords n c) = copyWord n c 127)

/-- Generation and store count of the current copy; 0 where it holds no settings (R437). -/
def generation (n : NvsSt) : Nat := if copyBlank n n.current then 0 else copyWord n n.current 1
def storeCount (n : NvsSt) : Nat := if copyBlank n n.current then 0 else copyWord n n.current 3

/-- A list of words as a sparse map with a default. -/
def sparse (d : Nat) (ws : List Nat) : SMap Nat := ((List.range ws.length).zip ws).filter (fun p => decide (p.2 ≠ d))

/-- Whether a record is a remap record whose row lies in a block that a retire record names (R431). -/
def covered (x : XmuSt) (rs : List (Nat × Nat)) (r : Nat × Nat) : Bool :=
  decide (r.1 % 16 = 2) && rs.any (fun q =>
    decide (q.1 % 16 = 3) &&
      (let e := dirEnt x (bits q.1 22 4)
       decide (e.chan = bits r.1 5 4 ∧ e.blk / 2 = bits r.1 25 10 ∧ e.blk % 2 = bits r.1 9 6 / 8)))

/-- The image a STORE writes (R431 step 1). -/
def storeImage (s : State) : List Nat :=
  let n := s.nvs
  let rs := records n
  let n := putRecords (rs.filter (fun r => !covered s.xmu rs r)) n
  let ws := ((List.range 4096).map (stagingWord n)).set 1 ((generation s.nvs + 1) % 2 ^ 32)
  let ws := ws.set 3 ((storeCount s.nvs + 1) % 2 ^ 32)
  ws.set 127 (imageCrc ws)

/-- A STORE begins (R431, R432): the target copy is erased and written, its crc word last. -/
def startStore (s : State) : State :=
  if 100000 ≤ storeCount s.nvs then
    advise cNVS_FAIL {} [(generation s.nvs + 1) % 2 ^ 32] (modNvs (fun n => { n with lastOk := false }) s)
  else
    let ws := storeImage s
    let img := sparse 0xFFFFFFFF (ws.set 127 0xFFFFFFFF)
    modNvs (fun n =>
      { n with
        store := some ⟨img, ws.getD 127 0⟩
        copy0 := if n.current = 0 then n.copy0 else img
        copy1 := if n.current = 0 then img else n.copy1 }) s

/-- A write of store: a STORE that runs makes a second one follow (R431). -/
def requestStore (s : State) : State :=
  if s.nvs.store.isSome then modNvs (fun n => { n with storePending := true }) s
  else if s.nvs.phase < 8 then modNvs (fun n => { n with storePending := true }) s
  else startStore s

/-- A store request of the hardware: it starts a STORE while auto_store is 1, and one that runs is followed by another (R431). -/
def storeReq (s : State) : State := if s.nvs.auto_ || s.nvs.store.isSome then requestStore s else s

/-- Append a record and raise a store request; a full image refuses it (R430). -/
def appendRec (lo hi : Nat) (s : State) : State :=
  let k := nRec s.nvs
  if recordsFull s.nvs then s
  else storeReq (modNvs (fun n => setNRec (k + 1) (setStaging (129 + 2 * k) hi (setStaging (128 + 2 * k) lo n))) s)

/-- NVS_STORE (R431). -/
def execNvsStore (s : State) : Out := .next (requestStore s)

/-- STORE_COMPLETE (R431, R432): `ok` when every word programmed. -/
def execStoreComplete (ok : Bool) (s : State) : Out :=
  match s.nvs.store with
  | none => .next s
  | some r =>
    let target := 1 - s.nvs.current
    let gen := SMap.get 0xFFFFFFFF r.image 1
    let s :=
      if ok then
        let s := modNvs (fun n =>
          { n with
            store := none, lastOk := true, current := target
            copy0 := if target = 0 then SMap.set 0xFFFFFFFF n.copy0 127 r.crc else n.copy0
            copy1 := if target = 0 then n.copy1 else SMap.set 0xFFFFFFFF n.copy1 127 r.crc }) s
        if storeCount s.nvs = 90000 then advise cNVS_WEAR {} [storeCount s.nvs] s else s
      else advise cNVS_FAIL {} [gen] (modNvs (fun n => { n with store := none, lastOk := false }) s)
    .next (if s.nvs.storePending then startStore (modNvs (fun n => { n with storePending := false }) s) else s)

/-- Load the staging image from a copy.
DEDUCED: log 85. -/
def loadStaging (c : Nat) (n : NvsSt) : NvsSt := { n with staging := sparse 0 (copyWords n c) }

/-- The defaults of R428.
DEDUCED: log 85. -/
def defaultStaging (n : NvsSt) : NvsSt := { n with staging := [(0, 1), (2, 0x142)] }

/-- A write of reload: the staging image is the current copy's again, or the defaults where that copy holds none; ignored while a
STORE runs (R437). -/
def nvsReload (s : State) : State :=
  if s.nvs.store.isSome then s
  else modNvs (fun n => if copyValid n n.current then loadStaging n.current n else defaultStaging n) s

/-- NVS_RELOAD (R437). -/
def execNvsReload (s : State) : Out := afterBoot s (.next (nvsReload s))

/-- A host write to the staging window: header words 1, 3 and 127 take none (R430). -/
def writeStaging (w v : Nat) (s : State) : State :=
  if w = 1 ∨ w = 3 ∨ w = 127 then s
  else modNvs (setStaging w v) s

/-- The version of the ROM firmware: open. -/
def romVersion : Nat := (Config.freeWord 0).toNat % 2 ^ 16

/-- Whether every context is STOPPED, or QUIESCED and not paused, and no snapshot or fill is in progress (R436). -/
def firmwareAllowed (s : State) : Bool :=
  (List.finRange 8).all (fun c => decide ((ctx s c).cstate = .stopped) || (decide ((ctx s c).cstate = .quiesced) && !(ctx s c).paused))
    && decide (s.rsl.snap.phase = 0) && decide (s.rsl.fill.st ≠ 1)

/-- A write of load in NVS_FW_CTL (R436): the core reads the image from the host address in NVS_FW_ADDR. -/
def fwLoad (s : State) : State :=
  if s.nvs.fwBusy then s
  else if firmwareAllowed s then
    emit (.fwRead (s.nvs.fwLo + s.nvs.fwHi * 2 ^ 32)) (modNvs (fun n => { n with fwBusy := true }) s)
  else modNvs (fun n => { n with fwResult := 3 }) s

/-- FIRMWARE_LOAD (R436). -/
def execFirmwareLoad (s : State) : Out := afterBoot s (.next (fwLoad s))

/-- The firmware that is in force: the ROM's until one is loaded. -/
def fwInForce (n : NvsSt) : Nat :=
  match n.fwStore with
  | none => romVersion
  | some img => ofLE (slice 0 2 img)

/-- FIRMWARE_LOAD_DONE: the image that was read is installed, or a check fails and nothing changes (R436). -/
def execFirmwareLoadDone (img : List W8) (s : State) : Out :=
  if s.nvs.fwBusy = false then .next s
  else
    let w (i : Nat) : Nat := ofLE (slice (4 * i) 4 img)
    let len := w 1
    let ver := w 0 % 2 ^ 16
    let body := img.take len
    let sum := crc32c (body.take 60 ++ [0#8, 0#8, 0#8, 0#8] ++ body.drop 64)
    if len < 64 ∨ 262144 < len ∨ img.length < len ∨ sum ≠ w 15 then
      .next (modNvs (fun n => { n with fwBusy := false, fwResult := 1 }) s)
    else if ver < romVersion then .next (modNvs (fun n => { n with fwBusy := false, fwResult := 2 }) s)
    else
      let s := modNvs (fun n => { n with fwBusy := false, fwResult := 0, fwStore := some body }) s
      .next ((List.finRange 8).foldl (fun s c => modCtx s c (fun x => { x with imageValid := false })) s)

end Sys2Proof.Machine
end

