-- ==== Sys2Proof/Machine/Pkt.lean ====
section
/-!
DEFINITION. Fjolin packets (R325): the header, its check, the flits, and the ports' queues of responses.
-/
namespace Sys2Proof.Machine

/-- A packet header before it is laid out (R325). -/
structure Hdr where
  kind : Nat
  prio : Nat := 1
  scope : Nat := 0
  combine : Nat := 0
  ctx : Nat := 0
  tail : Bool := false
  incrV : Bool := false
  verify : Bool := false
  off : Nat := 0
  space : Nat := 0
  dst : Nat := 0
  src : Nat := 0
  srcPort : Nat := 0
  tag : Nat := 0
  seq : Nat := 0
  pennant : Nat := 0
  incr : Nat := 0
  status : Nat := 0
  length : Nat := 0
  ret : Nat := 0

/-- Words 0 to 14 of a header. -/
def Hdr.words (h : Hdr) : List Nat :=
  [ h.kind + h.prio * 2 ^ 4 + h.scope * 2 ^ 6 + h.combine * 2 ^ 8 + h.ctx * 2 ^ 12 + b2n h.tail * 2 ^ 15
      + b2n h.incrV * 2 ^ 16 + b2n h.verify * 2 ^ 17,
    h.off % 2 ^ 32,
    h.off / 2 ^ 32 % 4 + h.space * 2 ^ 2 + h.dst * 2 ^ 4,
    h.src + h.srcPort * 2 ^ 22,
    h.tag % 2 ^ 16 + h.seq % 2 ^ 16 * 2 ^ 16,
    h.pennant + h.incr * 2 ^ 12 + h.status * 2 ^ 28,
    h.length,
    h.ret ] ++ List.replicate 7 0

/-- The CRC of a packet: over the header with word 15 as zero, then over the payload (R325). -/
def packetCrc (ws : List Nat) (data : List W8) : Nat := crc32c (bytesOfWords (padTo 0 15 ws ++ [0]) ++ data)

/-- A packet with its CRC.
DEDUCED: log 60. -/
def mkPacket (h : Hdr) (data : List W8) : Packet :=
  ⟨(h.words ++ [packetCrc h.words data]).map (BitVec.ofNat 32), data⟩

end Sys2Proof.Machine

namespace Sys2Proof
open Machine

/-- Word i of a packet's header. -/
def Packet.w (p : Packet) (i : Nat) : Nat := (p.hdr.getD i 0#32).toNat

/-- The kind of a packet. -/
def Packet.kind (p : Packet) : Nat := bits (p.w 0) 3 0
/-- The destination offset. -/
def Packet.off (p : Packet) : Nat := p.w 1 + bits (p.w 2) 1 0 * 2 ^ 32
/-- The space of the destination. -/
def Packet.space (p : Packet) : Nat := bits (p.w 2) 3 2
/-- The destination position. -/
def Packet.dst (p : Packet) : Nat := bits (p.w 2) 25 4
/-- The source position. -/
def Packet.src (p : Packet) : Nat := bits (p.w 3) 21 0
/-- The port that sent the request. -/
def Packet.srcPort (p : Packet) : Nat := bits (p.w 3) 22 22
/-- The issued tag. -/
def Packet.tag (p : Packet) : Nat := bits (p.w 4) 15 0
/-- The request's sequence number. -/
def Packet.seq (p : Packet) : Nat := bits (p.w 4) 31 16
/-- The status of a response. -/
def Packet.status (p : Packet) : Nat := bits (p.w 5) 31 28
/-- The bytes of the range. -/
def Packet.len (p : Packet) : Nat := bits (p.w 6) 12 0
/-- The class. -/
def Packet.prio (p : Packet) : Nat := bits (p.w 0) 5 4

/-- Whether a packet passes its check (R329). -/
def Packet.good (p : Packet) : Bool :=
  decide (packetCrc ((List.range 15).map p.w) p.data = p.w 15)

/-- The flits of a packet: its header, and the granules its payload touches at its destination (R325). -/
def Packet.flits (p : Packet) : Nat :=
  1 + (if p.data = [] then 0
    else
      let a := if p.kind = 4 then p.w 7 else p.off
      (a + p.data.length - 1) / 64 - a / 64 + 1)

end Sys2Proof

namespace Sys2Proof.Machine

/-- Port p. -/
def port (s : State) (p : Nat) : PortSt := SMap.get {} s.lnk.ports p
/-- Change port p. -/
def modPort (p : Nat) (f : PortSt → PortSt) (s : State) : State :=
  { s with lnk := { s.lnk with ports := SMap.mod {} s.lnk.ports p f } }

/-! ### The credits of the inbound buffer (R326, R337, R415) -/

/-- The inbound buffer of a channel, in flits (R326). -/
def allotment : VChan → Nat
  | .req | .rsp => 320
  | .snp => 130

/-- The core's grant of a channel. -/
def PortSt.grant (q : PortSt) : VChan → Grant
  | .req => q.gReq
  | .rsp => q.gRsp
  | .snp => q.gSnp

/-- Set it. -/
def PortSt.setGrant (vc : VChan) (g : Grant) (q : PortSt) : PortSt :=
  match vc with
  | .req => { q with gReq := g }
  | .rsp => { q with gRsp := g }
  | .snp => { q with gSnp := g }

/-- Whether the core returns credits of a channel: not on a port that is DOWN, and none of REQ while a snapshot stop holds the
contexts (R337, R415). -/
def PortSt.returns (q : PortSt) (vc : VChan) : Bool := q.up && !(decide (vc = .req) && q.frozen)

/-- The credits of a channel that the core returns up to the present EC, one in an EC (R415). -/
def returnCredits (p : Nat) (vc : VChan) (s : State) : State :=
  let q := port s p
  let g := q.grant vc
  let n := if q.returns vc then Nat.min g.back (s.ec - g.at_) else 0
  let s := modPort p (PortSt.setGrant vc ⟨g.held + n, g.back - n, s.ec⟩) s
  if n = 0 then s else emit (.credits p vc n) s

/-- Flits of the inbound buffer are free: their credits go back, unless the port has been DOWN since they came (R415). -/
def giveBack (h : Hold) (n : Nat) (s : State) : State :=
  match h with
  | .flit p vc ups =>
    if (port s p).up && decide ((port s p).ups = ups) then
      modPort p (fun q => q.setGrant vc { q.grant vc with back := (q.grant vc).back + n }) (returnCredits p vc s)
    else s
  | _ => s

/-- A port comes UP with the credits that the fabric returns; the core has its whole allotment to return (R415). -/
def portUp (p : Nat) (c : Credits) (s : State) : State :=
  let g (vc : VChan) : Grant := ⟨0, allotment vc, s.ec⟩
  modPort p (fun q => { q with up := true, cr := c, gReq := g .req, gRsp := g .rsp, gSnp := g .snp, ups := q.ups + 1 }) s

/-- Queue a response to a request on the port it came in on (R321, R325): its source is the position that the request
addressed, its length the bytes of the request's range; what its offset and space hold is open.
DEDUCED: log 60. -/
def respond (p : Nat) (req : Packet) (kind status : Nat) (data : List W8) (s : State) : State :=
  let (k, s) := takeFree 2 s
  let h : Hdr :=
    { kind := kind, prio := req.prio
      combine := if kind = 4 then bits (req.w 0) 11 8 else 0
      ctx := bits (req.w 0) 14 12
      off := (Config.freeWord k).toNat, space := (Config.freeWord (k + 1)).toNat % 4
      dst := redirect s req.src, src := req.dst, srcPort := req.srcPort
      tag := req.tag, seq := req.seq, status := status, length := req.len
      ret := if kind = 4 then req.w 7 else 0 }
  let r := mkPacket h data
  if kind = 6 then modPort p (fun q => { q with snp := q.snp ++ [r] }) s
  else modPort p (fun q => { q with rsp := q.rsp ++ [r] }) s

/-- The response kind of a request kind. -/
def respKind (k : Nat) : Nat := match k with | 1 => 3 | 2 => 4 | _ => 6

/-- The error code that a response status names (R331). -/
def statusCode (st : Nat) : Nat :=
  match st with
  | 1 => cLINK_CRC | 2 => cADDR | 3 => cRETIRED | 4 => cBLOCK_CRC | 5 => cMEM_THERMAL | 6 => cUNMAPPED
  | 7 => cTO_DARK | 8 => cUNCORR | _ => cCOMB_UE

/-- The status that names an error code (R331). -/
def codeStatus (code : Nat) : Nat :=
  if code = cADDR then 2 else if code = cRETIRED then 3 else if code = cBLOCK_CRC then 4 else if code = cMEM_THERMAL then 5
  else if code = cUNMAPPED then 6 else if code = cTO_DARK then 7 else if code = cUNCORR then 8 else 9

end Sys2Proof.Machine
end

