-- ==== Sys2Proof/Machine/Arrive.lean ====
section
/-!
DEFINITION. Transfers and arrivals (R156–R160, R182–R187, R219): the transfers in progress, their faults and their
completion, the arrival combiner and the landing of granules.
-/
namespace Sys2Proof.Machine

/-! ### Transfers -/

/-- A context by number. -/
def ctxOf (n : Nat) : Ctx := ⟨n % 8, Nat.mod_lt _ (by decide)⟩

/-- The transfer with a number. -/
def findJob (s : State) (id : Nat) : Option Job := s.xfer.jobs.find? (fun j => decide (j.id = id))
/-- Change a transfer. -/
def modJob (id : Nat) (f : Job → Job) (s : State) : State :=
  { s with xfer := { s.xfer with jobs := s.xfer.jobs.map (fun j => if j.id = id then f j else j) } }
/-- Whether the XMU has still to accept units of a writer (R271). -/
def lateOf (id : Nat) (s : State) : Bool := s.xfer.late.any (fun w => decide (w.writer = id))

/-- Take a transfer away: as a writer it ends with its last unit. -/
def dropJob (id : Nat) (s : State) : State :=
  let s := { s with xfer := { s.xfer with jobs := s.xfer.jobs.filter (fun j => decide (j.id ≠ id)) } }
  if lateOf id s then s else endWriter id s

/-- A new transfer, given its number. -/
def addJob (f : Nat → Job) (s : State) : State :=
  { s with xfer := { s.xfer with jobs := s.xfer.jobs ++ [f s.xfer.nextJob], nextJob := s.xfer.nextJob + 1 } }

/-- Whether a transfer is the command of a context of this core. -/
def JKind.local_ : JKind → Bool
  | .linkIn | .serve | .copy => false
  | _ => true

/-- Whether the other blocks of a transfer still land after a mismatch of one (R295). -/
def JKind.landsOn : JKind → Bool
  | .read | .gather | .fetch => true
  | _ => false

/-- A fault of a transfer (R219, R295, R331, R348, R400, R401): a command's context stops; a command that has already
faulted, a host descriptor and a request of another core are logged.
DEDUCED: log 72. -/
def jobFault (code : Nat) (detail : List Nat) (j : Job) (s : State) : State :=
  let s := modJob j.id (fun x =>
    { x with
      faulted := true, withheld := true
      halted := x.halted || !(decide (code = cBLOCK_CRC) && x.kind.landsOn)
      status := if x.status ≠ 0 then x.status else if x.kind = .copy then code else codeStatus code }) s
  if j.kind.local_ && !j.faulted then streamFault (ctxOf j.ctx) code j.blame.tag detail s
  else advise code j.blame detail s

/-- The record of an asynchronous command that retires with its completion (R219, R406).
DESIGN CHOICE: log 66. -/
def traceDone (j : Job) (s : State) : State :=
  if j.kind.local_ then
    trace { kind := 4, ctx := some (ctxOf j.ctx), opcode := wd j.words 0 % 256, tag := j.blame.tag, time := 2 * ac s } s
  else s

/-- A transfer completes and raises its pennant (R183, R300): an increment of 0 raises nothing.
DEDUCED: log 65. -/
def raiseJob (j : Job) (s : State) : State :=
  if j.withheld || j.faulted then s
  else if j.incr = 0 then traceDone j s
  else raise 4 j.pennant 0 j.incr j.blame (traceDone j s)

/-- A host COPY ends: its record with the bytes performed (R348, R350).
DEDUCED: log 72. -/
def endCopy (j : Job) (s : State) : State :=
  match j.host with
  | some r => complete r j.status 0 0 0 j.bytes (ringDone r s)
  | none => s

/-! ### The stash (R95, R98) -/

/-- The stash of context c. -/
def stashOf (s : State) (c : Nat) : Stash := SMap.get {} s.stash c
/-- Change the stash of context c. -/
def modStash (c : Nat) (f : Stash → Stash) (s : State) : State := { s with stash := SMap.mod {} s.stash c f }
/-- The state of a layer. -/
def layerOf (t : Stash) (l : Nat) : Layer := SMap.get .absent t.layers l
/-- Set the state of a layer. -/
def setLayer (l : Nat) (y : Layer) (t : Stash) : Stash := { t with layers := SMap.set .absent t.layers l y }

/-- The core-memory address of the slot of a layer. -/
def slotAddr (t : Stash) (l : Nat) : Nat :=
  match t.slots.find? (fun k => decide (k.layer = l)) with
  | some k => (t.base + k.start) * 16384
  | none => 0

/-- The layer of a stash command, its address register and its predicate bit (R94). -/
def stLayer (ws : List Nat) : Nat := bits (wd ws 1) 9 0
def stPolicy (ws : List Nat) : Nat := bits (wd ws 1) 11 10
def stAreg (ws : List Nat) : Nat := bits (wd ws 1) 15 12
def stPred (ws : List Nat) : Nat := bits (wd ws 1) 19 16
def stSize (ws : List Nat) : Nat := bits (wd ws 2) 10 0
def stPennant (ws : List Nat) : Nat := bits (wd ws 3) 11 0

/-- A fetch hands its slot over: the address, 1 in the predicate bit, then the pennant (R98). One that faulted, or of which a
granule was discarded, is no success: it gives its slot up, and its layer stays SPILLED (R182, R187).
DEDUCED: log 104. -/
def endFetch (j : Job) (s : State) : State :=
  let c := ctxOf j.ctx
  if j.faulted || j.withheld then
    modStash j.ctx (fun t => { t with slots := t.slots.filter (fun k => decide (k.layer ≠ stLayer j.words)) }) s
  else
    let a := slotAddr (stashOf s j.ctx) (stLayer j.words)
    let s := modStash j.ctx (setLayer (stLayer j.words) .resident) s
    let s := modCtx s c (fun x => setPred (landAreg (ac s) 4 (stAreg j.words) (BitVec.ofNat 64 a) x) (stPred j.words) true)
    raise 4 j.pennant 0 1 j.blame (traceDone j s)

/-! ### Inbound link packets (R332, R333) -/

/-- The packet of an inbound transfer, without its payload. -/
def Job.pkt (j : Job) : Packet := ⟨j.words.map (BitVec.ofNat 32), []⟩

/-- The source of an inbound transfer: position and port. -/
def Job.source (j : Job) : Nat × Nat := (j.pkt.src, j.pkt.srcPort)

/-- Change the LNK block. -/
def modLnk (f : LnkSt → LnkSt) (s : State) : State := { s with lnk := f s.lnk }

/-- An inbound command, as its packets name it: source position, source port, tag. -/
abbrev InCmd := Nat × Nat × Nat
/-- The command of a packet. -/
def inCmd (pkt : Packet) : InCmd := (pkt.src, pkt.srcPort, pkt.tag)

/-- The writer that the packets of one LNK.WRITE from one source port form (R334). -/
def linkWriter (c : InCmd) : Nat := 2 ^ 40 * (1 + c.1 * 2 ^ 17 + c.2.1 * 2 ^ 16 + c.2.2)

/-- An inbound command is over: nothing is kept of it. -/
def dropCmd (c : InCmd) (s : State) : State :=
  endWriter (linkWriter c) (modLnk (fun k => { k with
    lostCmds := k.lostCmds.filter (fun x => decide (x ≠ c))
    tails := k.tails.filter (fun x => decide (x ≠ c))
    crcLost := k.crcLost.filter (fun x => decide (x.1 ≠ c)) }) s)

/-- An inbound command is over once its last packet and every packet that was to come again have been handled (R329, R333,
R334).
DEDUCED: log 62. -/
def closeCmd (c : InCmd) (s : State) : State :=
  if c ∈ s.lnk.tails ∧ s.lnk.crcLost.all (fun x => decide (x.1 ≠ c)) = true
      ∧ s.xfer.jobs.all (fun j => decide (j.kind ≠ .linkIn) || decide (inCmd j.pkt ≠ c)) = true then dropCmd c s
  else s

/-- A packet of an inbound command comes: one that is not awaited again, after the last, is another command's with the same
name. -/
def openCmd (pkt : Packet) (s : State) : State :=
  if inCmd pkt ∈ s.lnk.tails ∧ (inCmd pkt, pkt.seq) ∉ s.lnk.crcLost then dropCmd (inCmd pkt) s else s

/-- A granule of an inbound command has been lost (R333). -/
def noteLost (c : InCmd) (s : State) : State :=
  modLnk (fun k => { k with lostCmds := if c ∈ k.lostCmds then k.lostCmds else k.lostCmds ++ [c] }) s

/-- A WRITE packet is discarded for its CRC (R329, R333): it comes again, unless it has been sent four times.
DEDUCED: log 62. -/
def noteCrcLost (pkt : Packet) (s : State) : State :=
  let c := inCmd pkt
  let s := noteLost c (openCmd pkt s)
  let l := s.lnk.crcLost ++ [(c, pkt.seq)]
  let l := if 4 ≤ l.count (c, pkt.seq) then l.filter (fun x => decide (x ≠ (c, pkt.seq))) else l
  closeCmd c (modLnk (fun k => { k with crcLost := l }) s)

/-- A WRITE packet has come whole. -/
def noteCame (pkt : Packet) (s : State) : State :=
  modLnk (fun k => { k with crcLost := k.crcLost.filter (fun x => decide (x ≠ (inCmd pkt, pkt.seq))) }) (openCmd pkt s)

/-- Apply the increments of the packets of one source port that have landed, in arrival order up to the first that has not
(R333). -/
def applyIncrs (key : Nat × Nat) : (fuel : Nat) → State → State
  | 0, s => s
  | fuel + 1, s =>
    match s.xfer.jobs.find? (fun j => decide (j.kind = .linkIn) && decide (j.source = key)) with
    | none => s
    | some j =>
      if j.landed = false then s
      else
        let c := inCmd j.pkt
        let lost := j.withheld || decide (c ∈ s.lnk.lostCmds)
        let s := dropJob j.id s
        let s := if bit (j.pkt.w 0) 16 && !lost then raiseJob { j with faulted := false } s else s
        let s := if lost then noteLost c s else s
        let s := if bit (j.pkt.w 0) 15 then modLnk (fun k => { k with tails := k.tails ++ [c] }) s else s
        applyIncrs key fuel (closeCmd c s)

/-- Every granule of an inbound WRITE has landed or been discarded: it is answered, and its increment takes its turn. -/
def endLinkIn (j : Job) (s : State) : State :=
  let s := respond j.port j.pkt 3 j.status [] s
  let s := modJob j.id (fun x => { x with landed := true }) s
  applyIncrs j.source (s.xfer.jobs.length + 1) s

/-! ### Requests left -/

/-- Whether a transfer of external reads has requested every row; the extent is the words of its kind. -/
def rowsOfJob (j : Job) : Nat :=
  match j.kind with
  | .read => if bits (wd j.words 5) 11 0 = 0 then 4096 else bits (wd j.words 5) 11 0
  | .gather => if bits (wd j.words 4) 31 16 = 0 then 65536 else bits (wd j.words 4) 31 16
  | .fetch | .copy | .serve => 1
  | .smRead | .smWrite => bits (wd j.words 4) 23 0 / 64
  | .lnkRead | .lnkWrite => bits (wd j.words 4) 23 0
  | _ => 0

/-- Whether a SEALED block of the transfer has lines still to be read for its check alone (R294). -/
def verifyLeft (j : Job) : Bool :=
  j.verify && j.chks.any (fun k => k.sealed && !k.done && decide (k.asked ≠ 2 ^ 128 - 1))

/-- The spaces of a COPY: 0 host memory, 1 core memory, 2 external memory (R347). -/
def copySrc (j : Job) : Nat := bits (wd j.words 7) 1 0
def copyDst (j : Job) : Nat := bits (wd j.words 7) 3 2

/-- Whether a COPY has bytes that are not yet performed in host or external memory. -/
def copyLeft (j : Job) : Bool := decide (j.kind = .copy) && decide (copyDst j ≠ 1) && decide (j.bytes < wd j.words 6)

/-- Whether a transfer has nothing left to request, to receive, to land or, of a packet, to be accepted. -/
def jobIdle (s : State) (j : Job) : Bool :=
  (j.halted || (decide (rowsOfJob j ≤ j.row) && !verifyLeft j && !copyLeft j)) && decide (j.out = []) && decide (j.acks = 0)
    && !s.xfer.arrivals.any (fun a => decide (a.job = j.id))
    && !(decide (j.kind = .linkIn) && s.xfer.late.any (fun w => decide (w.job = j.id)))

/-- The blocks that a finished read did not check are counted (R294). -/
def countUnchecked (j : Job) (s : State) : State :=
  let n := (j.chks.filter (fun k => !k.done)).length
  if n = 0 then s else modXmu (fun x => { x with unchecked := (x.unchecked + n) % 2 ^ 32 }) s

/-- A transfer whose last part has come ends (R183, R219, R300, R324, R335). -/
def settleJob (id : Nat) (s : State) : State :=
  match findJob s id with
  | none => s
  | some j =>
    if jobIdle s j = false then s
    else
      match j.kind with
      | .read | .gather | .smRead | .smWrite | .lnkRead => raiseJob j (dropJob id (countUnchecked j s))
      | .fetch => endFetch j (dropJob id (countUnchecked j s))
      | .copy => endCopy j (raiseJob j (dropJob id (countUnchecked j s)))
      | .linkIn => if j.landed then s else endLinkIn j s
      | .write => if j.faulted then dropJob id s else s
      | .serve =>
        let s := dropJob id (countUnchecked j s)
        respond j.port j.pkt 4 j.status
          (if j.status = 0 then (List.range j.pkt.len).map (fun i => SMap.get 0#8 j.buf i) else []) s
      | _ => s

/-! ### Writes into external memory, unit by unit (R271, R293) -/

/-- A writer's bytes leave for external memory: the XMU has accepted none of them yet. -/
def writeLate (job writer : Nat) (blame : Blame) (a : Nat) (bs : List W8) (s : State) : State :=
  { s with xfer := { s.xfer with late := s.xfer.late ++ [⟨job, writer, blame, a, bs, []⟩] } }

/-- The units that the XMU has still to accept. -/
def LateW.left (w : LateW) : List Nat := (granulesOf w.a w.bs.length).filter (fun g => g ∉ w.got)

/-- Whether the XMU can accept unit g of a write: its block is not RETIRED, and there is room. -/
def unitFits (x : XmuSt) (w : LateW) (g : Nat) : Bool :=
  let p := partIn g w.a w.bs
  (extFault x p.1 p.2.length).isNone && roomForLines x [(p.1, p.2.length)]

/-- The place that a transfer's packet keeps in a port's buffer. -/
def holdOf (id : Nat) (s : State) : Hold := match findJob s id with | some j => j.hold | none => .none

/-- The XMU accepts unit g of write i, which frees a flit of a packet's. -/
def acceptUnit (i g : Nat) (w : LateW) (s : State) : State :=
  let p := partIn g w.a w.bs
  let s := giveBack (holdOf w.job s) 1 (acceptBytes w.writer w.blame p.1 p.2 s)
  { s with xfer := { s.xfer with late := s.xfer.late.set i { w with got := w.got ++ [g] } } }

/-- A write is over: its entry goes, with the flits it still keeps, and its writer ends if its transfer has (R293). -/
def dropLate (w : LateW) (s : State) : State :=
  let s := giveBack (holdOf w.job s) w.left.length s
  let s := { s with xfer := { s.xfer with late := s.xfer.late.erase w } }
  if w.writer = w.job ∧ lateOf w.writer s = false ∧ findJob s w.job = none then endWriter w.writer s else s

/-- A write faults: what the XMU has not accepted is discarded; one of a transfer that is over is logged (R219, R293). -/
def failLate (f : Nat × List Nat) (w : LateW) (s : State) : State :=
  let s := dropLate w s
  match findJob s w.job with
  | some j => jobFault f.1 f.2 j s
  | none => advise f.1 w.blame f.2 s

/-- The XMU accepts units of write i in order, as far as there is room. -/
def acceptUnits (i : Nat) : List Nat → State → State
  | [], s => s
  | g :: gs, s =>
    match s.xfer.late[i]? with
    | none => s
    | some w => if unitFits s.xmu w g then acceptUnits i gs (acceptUnit i g w s) else s

/-- A write goes on as far as it can; one that meets a RETIRED block faults. -/
def flushOne (w : LateW) (s : State) : State :=
  match extFault s.xmu w.a w.bs.length with
  | some f => failLate f w s
  | none =>
    let i := s.xfer.late.idxOf w
    let s := acceptUnits i w.left s
    match s.xfer.late[i]? with
    | none => s
    | some x => if x.left = [] then dropLate x s else s

/-- The writes of a transfer go on as far as they can, oldest first. -/
def flushLate (job : Nat) (s : State) : State :=
  (s.xfer.late.filter (fun w => decide (w.job = job))).foldl (fun s w => flushOne w s) s

/-- A reader comes upon unit g of write i: the XMU may have accepted it already, but not before that unit of an older write.
DESIGN CHOICE: log 66. -/
def meetUnit (s : State) (p : Nat × Nat) : State :=
  match s.xfer.late[p.1]? with
  | none => s
  | some w =>
    if p.2 ∉ w.left ∨ (s.xfer.late.take p.1).any (fun x => decide (p.2 ∈ x.left)) = true then s
    else
      let (k, s) := takeFree 1 s
      if Config.freeNat k % 2 = 0 || !unitFits s.xmu w p.2 then s else acceptUnit p.1 p.2 w s

/-- A reader reads an external range that writes in progress write (R271). -/
def meetLate (a n : Nat) (s : State) : State :=
  ((List.range s.xfer.late.length).flatMap (fun i => (granulesOf a n).map (fun g => (i, g)))).foldl meetUnit s

/-! ### The combiner (R156–R158) -/

/-- The bytes of an element under a combine code (R156). -/
def combWidth (c : Nat) : Nat :=
  match c with
  | 2 | 3 | 6 | 7 | 8 | 9 => 2
  | _ => 4

/-- The format of a floating-point combine. -/
def combFmt (c : Nat) : Layout :=
  match c with
  | 1 | 4 | 5 => layFP32
  | 2 | 6 | 7 => layBF16
  | _ => layFP16

/-- The combined element: `old` resident, `new` arriving (R156). -/
def combElem (c old new : Nat) : Nat :=
  let L := combFmt c
  let a := BitVec.ofNat 32 old
  let b := BitVec.ofNat 32 new
  match c with
  | 0x1 | 0x2 | 0x3 => (L.encode .rne false ((L.decode old).add (L.decode new)).1).1
  | 0x4 | 0x6 | 0x8 => (L.encode .rne false ((L.decode old).max (L.decode new))).1
  | 0x5 | 0x7 | 0x9 => (L.encode .rne false ((L.decode old).min (L.decode new))).1
  | 0xA => (old + new) % 2 ^ 32
  | 0xB => if a.slt b then new else old
  | 0xC => if a.slt b then old else new
  | 0xD => Nat.max old new
  | 0xE => Nat.min old new
  | 0xF => old ||| new
  | _ => new

/-- Combine a granule: only elements whose bytes are all enabled take part (R157). -/
def combGranule (c : Nat) (old : List W8) (bs : List (Option W8)) : List (Option W8) :=
  let w := combWidth c
  (List.range (64 / w)).flatMap (fun k =>
    let e := (List.range w).map (fun i => bs.getD (w * k + i) none)
    if e.all Option.isSome then
      (leBytes w (combElem c (ofLE (slice (w * k) w old)) (ofLE (e.map (fun b => b.getD 0#8))))).map some
    else List.replicate w none)

/-- Whether some element of a granule has only some of its bytes enabled. -/
def combPartial (c : Nat) (bs : List (Option W8)) : Bool :=
  let w := combWidth c
  (List.range (64 / w)).any (fun k =>
    let e := (List.range w).map (fun i => bs.getD (w * k + i) none)
    e.any Option.isSome && !e.all Option.isSome)

/-! ### Landing (R182–R187) -/

/-- Deliver bytes to core memory from an address on: one arrival for each granule they touch. What `hold` names waits until they
have landed (R21). -/
def deliver (job comb a : Nat) (bs : List (Option W8)) (hold : Hold) (s : State) : State :=
  let arr := (granulesOf a bs.length).map (fun g => ({
    gran := g, bs := (List.range 64).map (fun i => if a ≤ g + i then bs.getD (g + i - a) none else none)
    comb := comb, job := job, hold := hold } : Arr))
  { s with xfer := { s.xfer with arrivals := s.xfer.arrivals ++ arr } }

/-- Why an arrival or an access from outside for context c at a granule is turned away (R182, R331): the checks in order. A
link packet's ADDR_RANGE is ARRIVAL_UNMAPPED for every other arrival. -/
def refusal (s : State) (c : Ctx) (link : Bool) (g : Nat) : Option Nat :=
  if allocated s c = false then some cUNMAPPED
  else if decide (g < bankBytes s) && !decide (c.val ∈ s.cm.resident) then some cUNMAPPED
  else if mayUse s c g = false then some (if link then cADDR else cUNMAPPED)
  else none

/-- The detail of a refusal. -/
def refusalDetail (code : Nat) (c : Ctx) (g : Nat) : List Nat := if code = cADDR then [g, 0] else [g, c.val]

/-- A granule of an arrival is discarded: it is logged, the increment of its transfer is withheld, and a link packet is
answered with the status (R182, R187, R331). -/
def discard (a : Arr) (code : Nat) (detail : List Nat) (s : State) : State :=
  match findJob s a.job with
  | none => s
  | some j =>
    advise code j.blame detail (modJob j.id (fun x =>
      { x with withheld := true, status := if x.kind = .linkIn ∧ x.status = 0 then codeStatus code else x.status }) s)

/-- An arrival has landed (R184): its bank counts it, and a host COPY the bytes it performed before a fault (R348). -/
def noteArrival (a : Arr) (s : State) : State :=
  let s := modJob a.job (fun k =>
    if k.kind = .copy ∧ k.halted = false then { k with bytes := k.bytes + (a.bs.filter Option.isSome).length } else k) s
  if a.gran < bankBytes s then modBank s (bankOf s.grade a.gran) (fun b => { b with arrivals := (b.arrivals + 1) % 2 ^ 32 }) else s

/-- A plain write of a granule from outside the engines in this EC: it is lost between the read and the write of an atomic
(R159). -/
def plainWrite (g : Nat) (bs : List (Option W8)) (s : State) : State := if lostAt s s.ec g then s else writeMasked s g bs

/-- Why an arrival is discarded where it lands: it is refused (R182), or its bank is dark (R187). -/
def noLanding (j : Job) (a : Arr) (s : State) : Option (Nat × List Nat) :=
  let c := ctxOf j.ctx
  match refusal s c (decide (j.kind = .linkIn)) a.gran with
  | some code => some (code, refusalDetail code c a.gran)
  | none =>
    let b := bankOf s.grade a.gran
    if decide (a.gran < bankBytes s) && !bankOpen s b then some (cTO_DARK, [b, 1]) else none

/-- A discarded arrival; its bank counts it if the bank is dark (R187). -/
def discardAt (a : Arr) (f : Nat × List Nat) (s : State) : State :=
  discard a f.1 f.2 (if f.1 = cTO_DARK then
    modBank s (bankOf s.grade a.gran) (fun k => { k with darkDiscards := (k.darkDiscards + 1) % 2 ^ 16 }) else s)

/-- An arrival has landed or is discarded: it leaves the arrival path, and its flit is free (R21, R326). -/
def leavePath (a : Arr) (s : State) : State :=
  giveBack a.hold 1 { s with xfer := { s.xfer with arrivals := s.xfer.arrivals.erase a } }

/-- The arrivals whose result an atomic carried or the present combine carries have landed: they are settled in the EC after
(R158, R183). -/
def landCarried (seat : Nat) (s : State) : State :=
  (s.xfer.arrivals.filter (fun a => decide (a.carrier = some seat))).foldl (fun s a =>
    settleJob a.job (leavePath a (noteArrival a s))) s

/-- A combined arrival is read in one DMA-in slot and written in the next; `mid` happens between them (R157, R158). It answers the
span of an atomic that has read between its slots and writes its result, if one has.
DEDUCED: log 55. -/
def combineArr (mid : State → State) (j : Job) (a : Arr) (s : State) : State × Option Nat :=
  let b := bankOf s.grade a.gran
  let s := reachRead ownIn [a.gran] s
  let (s, pend, from_) := takePending s.ec a.gran (s.runs.length + 1) none [] s
  let ue := pend.isNone && granUncorrectable s a.gran
  let s := if pend.isNone then noteRead s a.gran else s
  if ue then (discard a cCOMB_UE [b, granOf s.grade a.gran] s, none)
  else
    let s := if combPartial a.comb a.bs then advise cPARTIAL j.blame [b, granOf s.grade a.gran] s else s
    let old := pend.getD (readBytes s a.gran 64)
    let comb := combGranule a.comb old a.bs
    let new := (List.range 64).map (fun i => (comb.getD i none).getD (old.getD i 0#8))
    let s := takeSlots ownIn [a.gran] (mid s)
    let s := { s with pin := { s.pin with
      combines := if a.gran < bankBytes s then (s.pin.combines + 1) % 2 ^ 32 else s.pin.combines } }
    let s := addTot tCOMB 1 s
    match nextAtom s s.ec a.gran with
    | some (_, q) => (from_.foldl (fun s p => passOn p (some q.seat) s) (atomRead q new s), some q.seat)
    | none => (from_.foldl (fun s p => if carries s p then landCarried p (tick s) else s)
        (noteArrival a (writeRmw s.ec a.gran new s)), none)

/-- An arrival comes to its granule in a DMA-in slot (R21, R182, R187); it answers the atomic that carries its result, if one
does. -/
def landArr (mid : State → State) (a : Arr) (s : State) : State × Option Nat :=
  match findJob s a.job with
  | none => (s, none)
  | some j =>
    match noLanding j a s with
    | some f => (discardAt a f s, none)
    | none =>
      if a.comb = 0 then (noteArrival a (plainWrite a.gran a.bs (reach ownIn [a.gran] s)), none) else combineArr mid j a s

/-- Whether arrival i may land before the arrivals ahead of it: two packets of one source port that touch one granule land
in order (R160, R333). -/
def mayLand (s : State) (i : Nat) (a : Arr) : Bool :=
  decide (a.carrier = none) &&
  match findJob s a.job with
  | none => true
  | some j =>
    j.kind ≠ .linkIn ||
      !(s.xfer.arrivals.take i).any (fun x => decide (x.gran = a.gran) && decide (x.carrier = none) &&
        (match findJob s x.job with
         | some k => decide (k.kind = .linkIn) && decide (k.source = j.source)
         | none => false))

/-- Arrival i lands: what waits for the whole of its transfer comes in the EC after (R183). -/
def landAt (mid : State → State) (i : Nat) (a : Arr) (s : State) : State :=
  let p := landArr mid a s
  match p.2 with
  | some q => { p.1 with xfer := { p.1.xfer with arrivals := p.1.xfer.arrivals.set i { a with carrier := some q } } }
  | none =>
    let s := leavePath a p.1
    match findJob s a.job with
    | none => s
    | some j => settleJob a.job (if jobIdle s j then tick s else s)

/-- Take arrival i and land it, if it is of the kind: plain or combined. -/
def landRow_ (combined : Bool) (i : Nat) (s : State) : State :=
  match s.xfer.arrivals[i]? with
  | none => s
  | some a => if decide (a.comb ≠ 0) ≠ combined ∨ mayLand s i a = false then s else landAt id i a s

/-- The combined arrival, if one is, that has read granule g when the next SVC slot of its bank comes and writes in a DMA-in slot
after it: whether one has is open (R159).
DESIGN CHOICE: log 55. -/
def crossing (k g : Nat) (s : State) : Option (Nat × Arr) :=
  let b := bankOf s.grade g
  let r := (reachRead ownIn [g] s).ec
  let all := (s.xfer.arrivals.zipIdx.map (fun p => (p.2, p.1))).filter (fun p =>
    decide (p.2.gran = g) && decide (p.2.comb ≠ 0) && mayLand s p.1 p.2 &&
      (match findJob s p.2.job with | some j => (noLanding j p.2 s).isNone | none => false))
  if nextSlot s ownSvc b (Nat.max (r + 1) (SMap.get 0 s.cm.slotFree (b * 8 + ownSvc))) < nextSlot s ownIn b (r + 1)
  then all[Config.freeChoice k % (all.length + 1)]? else none

/-- A host write of a granule of a bank: where it falls between the slots of a combined arrival, it is lost (R159). -/
def hostWrite (g : Nat) (bs : List (Option W8)) (s : State) : State :=
  let k := s.free
  let s := { s with free := k + 1 }
  match if s.xfer.arrivals.any (fun a => decide (a.gran = g)) then crossing k g s else none with
  | some (i, a) => landAt (takeSlots ownSvc [g]) i a s
  | none => plainWrite g bs (reach ownSvc [g] s)

/-- The outstanding count of bank b (R184): arrivals on their way, and reads issued with a destination in it. -/
def outstanding (s : State) (b : Nat) : Nat :=
  let inB (g : Nat) : Bool := decide (g < bankBytes s) && decide (bankOf s.grade g = b)
  (s.xfer.arrivals.filter (fun a => inB a.gran)).length
    + ((s.xfer.jobs.filter (fun j => decide (j.kind ≠ .serve) && (decide (j.kind ≠ .copy) || decide (copyDst j = 1)))).flatMap (fun j => j.out.flatMap (fun r => match r.dst with
        | some d => (granulesOf d r.n).filter inB
        | none => []))).length
    + (s.xfer.sm.filter (fun p => match p.2.dst with | some d => inB d | none => false)).length

end Sys2Proof.Machine
end

