-- ==== Sys2Proof/Machine/Inbound.lean ====
section
/-!
DEFINITION. Inbound request packets of the link ports (R329–R335): their acceptance, the landing or refusal of a WRITE, and
the beginning of a READ_REQ's service.
-/
namespace Sys2Proof.Machine

/-- Whom the log names for an inbound request: the context it names, its tag and the position that issued it (R182, R331,
R403).
DEDUCED: log 61. -/
def packetBlame (pkt : Packet) : Blame := { ctx := some (ctxOf (bits (pkt.w 0) 14 12)), tag := pkt.tag, src := some pkt.src }

/-- Whom it names for a packet that matches nothing: a response carries a tag of this core's own.
DEDUCED: log 61. -/
def unknownBlame (pkt : Packet) : Blame :=
  if pkt.kind = 3 ∨ pkt.kind = 4 ∨ pkt.kind = 6 then { tag := pkt.tag } else { tag := pkt.tag, src := some pkt.src }

/-- A packet that matches nothing is dropped and logged (R320, R329).
DESIGN CHOICE: log 63. -/
def linkUnknown (p : Nat) (pkt : Packet) (s : State) : State :=
  advise cLINK_UNKNOWN (unknownBlame pkt) [p, pkt.kind] (modPort p (fun q => { q with unknown := (q.unknown + 1) % 2 ^ 32 }) s)

/-- The payload bytes in data flits (R385). -/
def flitBytes (pkt : Packet) : Nat := (pkt.flits - 1) * 64

/-- A packet reaches a port and takes its place in the buffer (R320, R329, R415): an isolated core takes none; for a port that is
DOWN the fabric holds no credit, so the packet is dropped as unknown; one that fails its check
is discarded, and `bad` answers it; one for another position, or of a reserved kind, is dropped; any other is accepted. What is not
accepted gives its place back at once.
DESIGN CHOICE: log 63. -/
def recv (p : Nat) (pkt : Packet) (hold : Hold) (bad act : State → State) (s : State) : State :=
  if s.isolated then s
  else if (port s p).up = false then linkUnknown p pkt s
  else if pkt.good = false then
    giveBack hold pkt.flits (bad (modPort p (fun q => { q with crcBad := (q.crcBad + 1) % 2 ^ 16 }) s))
  else if pkt.kind = 0 ∨ 6 < pkt.kind ∨ acceptsPos s pkt.dst = false then giveBack hold pkt.flits (linkUnknown p pkt s)
  else act (addTot tLRX (flitBytes pkt) (modPort p (fun q => { q with pktsIn := (q.pktsIn + 1) % 2 ^ 32 }) s))

/-- The advisory of a packet that fails its check (R329, R404). -/
def logCrc (p : Nat) (pkt : Packet) (blame : Blame) (s : State) : State := advise cLINK_CRC blame [p, pkt.seq] s

/-- The answer to a request that fails its check, which is logged (R329, R331); a WRITE is a granule lost to its command (R333).
DEDUCED: log 62. -/
def badReq (p : Nat) (pkt : Packet) (s : State) : State :=
  let s := respond p pkt (respKind pkt.kind) 1 [] (logCrc p pkt (packetBlame pkt) s)
  if pkt.kind = 1 then noteCrcLost pkt s else s

/-- A response that fails its check is logged (R404). -/
def badResp (p : Nat) (pkt : Packet) (s : State) : State := logCrc p pkt (unknownBlame pkt) s

/-- The detail of an ADDR_RANGE (R405).
DEDUCED: log 74. -/
def addrDetail (space off : Nat) : List Nat := [off % 2 ^ 32, off / 2 ^ 32 + space * 4]

/-- The first granule of a core-memory range of a packet that is turned away, with its code and detail (R182). -/
def coreRefusal (s : State) (c : Ctx) (off n : Nat) : Option (Nat × List Nat) :=
  (granulesOf off n).findSome? (fun g => (refusal s c true g).map (fun code => (code, refusalDetail code c g)))

/-- The first granule of a combined WRITE that cannot be read: the packet lands none (R331, R332). -/
def combineRefusal (s : State) (off n : Nat) : Option (Nat × List Nat) :=
  (granulesOf off n).findSome? (fun g =>
    if (decide (bankBytes s ≤ g) || bankOpen s (bankOf s.grade g)) && granUncorrectable s g then
      some (cCOMB_UE, [bankOf s.grade g, granOf s.grade g]) else none)

/-- Why an inbound packet to external memory is refused (R288, R301, R316, R331). -/
def extRefusal (s : State) (pkt : Packet) (n : Nat) : Option (Nat × List Nat) :=
  if pkt.kind = 1 ∧ bits (pkt.w 0) 11 8 ≠ 0 then some (cUNMAPPED, [pkt.off % 2 ^ 32, bits (pkt.w 0) 14 12])
  else if pkt.prio = 0 ∧ s.xmu.step = 3 then some (cMEM_THERMAL, [s.xmu.temp])
  else extFault s.xmu pkt.off n

/-- Why an inbound WRITE is refused before any of its granules lands.
DEDUCED: log 56, log 62. -/
def writeRefusal (s : State) (pkt : Packet) : Option (Nat × List Nat) :=
  match pkt.space with
  | 0 => (coreRefusal s (ctxOf (bits (pkt.w 0) 14 12)) pkt.off pkt.data.length).orElse (fun _ =>
      if bits (pkt.w 0) 11 8 = 0 then none else combineRefusal s pkt.off pkt.data.length)
  | 1 => extRefusal s pkt pkt.data.length
  | sp => some (cADDR, addrDetail sp pkt.off)

/-- The granules that are read to refuse an inbound WRITE are counted (R189). -/
def noteRefusal (f : Nat × List Nat) (s : State) : State :=
  if f.1 = cCOMB_UE then noteRead s (granAddr s.grade (f.2.getD 0 0) (f.2.getD 1 0)) else s

/-- An inbound WRITE is handled (R332–R334): its header leaves the buffer, and each granule as it lands or as the XMU accepts it
(R21); one that is refused leaves it whole. -/
def handleWrite (p : Nat) (x : InPkt) (s : State) : State :=
  let pkt := x.pkt
  let id := s.xfer.nextJob
  let j : Job :=
    { id := id, kind := .linkIn, ctx := bits (pkt.w 0) 14 12, blame := packetBlame pkt, prio := pkt.prio
      pennant := bits (pkt.w 5) 11 0, incr := bits (pkt.w 5) 27 12, comb := bits (pkt.w 0) 11 8
      words := pkt.hdr.map BitVec.toNat, port := p, hold := x.hold }
  let s := addJob (fun _ => j) (noteCame pkt s)
  match writeRefusal s pkt with
  | some f =>
    let s := modJob id (fun k => { k with withheld := true, status := codeStatus f.1 }) (noteRefusal f (giveBack x.hold pkt.flits s))
    settleJob id (advise f.1 j.blame f.2 s)
  | none =>
    let s := giveBack x.hold 1 s
    settleJob id (if pkt.space = 0 then deliver id j.comb pkt.off (pkt.data.map some) x.hold s
      else if pkt.data = [] then s else writeLate id (linkWriter (inCmd pkt)) j.blame pkt.off pkt.data s)

/-- Whether an earlier WRITE of the same source port has still to land (R333). -/
def behindWrite (s : State) (j : Job) : Bool :=
  s.xfer.jobs.any (fun k => decide (k.kind = .linkIn) && decide (k.source = j.source)
    && decide (k.id < j.id) && !k.landed)

/-- Why a served read is refused when it begins (R182, R331, R335). -/
def serveRefusal (s : State) (j : Job) : Option (Nat × List Nat) :=
  let pkt := j.pkt
  match pkt.space with
  | 0 =>
    (coreRefusal s (ctxOf j.ctx) pkt.off pkt.len).orElse (fun _ =>
      (granulesOf pkt.off pkt.len).findSome? (fun g =>
        if decide (g < bankBytes s) && !bankOpen s (bankOf s.grade g) then some (cTO_DARK, [bankOf s.grade g, 1])
        else if granUncorrectable s g then some (cUNCORR, [bankOf s.grade g, granOf s.grade g])
        else none))
  | 1 => extRefusal s pkt pkt.len
  | sp => some (cADDR, addrDetail sp pkt.off)

/-- An uncorrectable read that faults has been a read (R189, R194). -/
def noteFault (f : Nat × List Nat) (s : State) : State :=
  if f.1 = cUNCORR then noteRead s (granAddr s.grade (f.2.getD 0 0) (f.2.getD 1 0)) else s

/-- A served read begins: from core memory it is read and answered, from external memory its lines are requested (R335). Its
packet leaves the buffer.
DESIGN CHOICE: log 114. -/
def beginServe (j : Job) (s0 : State) : State :=
  let pkt := j.pkt
  let s := giveBack j.hold 1 s0
  match serveRefusal s j with
  | some f => respond j.port pkt 4 (codeStatus f.1) [] (dropJob j.id (advise f.1 j.blame f.2 (noteFault f s)))
  | none =>
    if pkt.space = 0 then
      let s := reachRead ownOut (granulesOf pkt.off pkt.len) s
      respond j.port pkt 4 0 (readBytes s pkt.off pkt.len) (dropJob j.id (noteReads s (granulesOf pkt.off pkt.len)))
    else modJob j.id (fun k => { k with landed := true }) s

/-- Whether a served read can begin: it waits for no WRITE any more, and one of core memory comes after what the timed commands
do by its AC (R272). -/
def canServe (s : State) (j : Job) : Bool :=
  decide (j.kind = .serve) && !j.landed && !behindWrite s j && (decide (j.pkt.space ≠ 0) || inOrder s (ac s))

/-- Begin every served read that can begin. -/
def startServes : (fuel : Nat) → State → State
  | 0, s => s
  | fuel + 1, s =>
    match s.xfer.jobs.find? (canServe s) with
    | none => s
    | some j => startServes fuel (beginServe j s)

/-- An inbound READ_REQ is handled (R335). -/
def handleRead (p : Nat) (x : InPkt) (s : State) : State :=
  let pkt := x.pkt
  addJob (fun id =>
    { id := id, kind := .serve, ctx := bits (pkt.w 0) 14 12, blame := packetBlame pkt, prio := pkt.prio
      words := pkt.hdr.map BitVec.toNat, verify := bit (pkt.w 0) 17, port := p, hold := x.hold }) s

/-- Whether a request packet cannot be handled yet: while the state of a snapshot stop is held (R337), or while the write-combining buffer has no
room for it (R302, R315, R334). -/
def reqBlocked (s : State) (pkt : Packet) : Bool :=
  decide (s.rsl.snap.phase = 3) ||
    (decide (pkt.kind = 1) && decide (pkt.space = 1) && decide (writeRefusal s pkt = none)
      && !roomForLines s.xmu [(pkt.off, pkt.data.length)])

/-- A request packet is handled. -/
def handleReq (p : Nat) (x : InPkt) (s : State) : State := if x.pkt.kind = 1 then handleWrite p x s else handleRead p x s

/-- Handle the request packets that wait in a port's buffer, in order, up to one that cannot be handled. -/
def drainHeldF (p : Nat) : (fuel : Nat) → State → State
  | 0, s => s
  | fuel + 1, s =>
    match (port s p).heldIn with
    | [] => s
    | x :: rest =>
      if reqBlocked s x.pkt then s else drainHeldF p fuel (handleReq p x (modPort p (fun q => { q with heldIn := rest }) s))

/-- Handle what waits in a port's buffer, and begin the reads that can be served. -/
def drainHeld (p : Nat) (s : State) : State :=
  let s := drainHeldF p (port s p).heldIn.length s
  startServes s.xfer.jobs.length s

/-- A request packet enters the port's buffer and is handled in its turn (R333). -/
def acceptReq (p : Nat) (pkt : Packet) (hold : Hold) (s : State) : State :=
  drainHeld p (modPort p (fun q => { q with heldIn := q.heldIn ++ [⟨pkt, hold⟩] }) s)

end Sys2Proof.Machine
end

