-- ==== Sys2Proof/Machine/Xmu.lean ====
section
/-!
DEFINITION. The XMU at work (chapter 13): the requests of reads and their returns with the block check, link retries and
channel training, row remap and retirement, map-out, host writes to the directory, bring-up access and the thermal steps.
-/
namespace Sys2Proof.Machine

/-! ### Requests (R296–R299, R304–R306) -/

/-- The blocks of the stash slot of a layer. -/
def slotBlocks (t : Stash) (l : Nat) : Nat :=
  match t.slots.find? (fun k => decide (k.layer = l)) with
  | some k => k.n
  | none => 0

/-- The bytes of a row of a transfer that reads external memory. -/
def rowLen (s : State) (j : Job) : Nat :=
  match j.kind with
  | .read => bits (wd j.words 4) 23 0
  | .gather => bits (wd j.words 4) 15 0
  | .fetch => slotBlocks (stashOf s j.ctx) (stLayer j.words) * 16384
  | .copy => wd j.words 6
  | .serve => j.pkt.len
  | _ => 0

/-- The core-memory address, or the buffer offset, of row i. -/
def rowCm (s : State) (j : Job) (i : Nat) : Nat :=
  match j.kind with
  | .read | .gather => wd j.words 1 + i * bits (wd j.words 6) 23 0
  | .fetch => slotAddr (stashOf s j.ctx) (stLayer j.words)
  | .copy => if copyDst j = 1 then wd j.words 4 else 0
  | _ => 0

/-- The external address of row i (R296, R297, R97). -/
def rowExt (s : State) (j : Job) (i : Nat) : Nat :=
  match j.kind with
  | .read => (wd j.words 8 + i * wd j.words 7) % 2 ^ 34
  | .gather => (wd j.words 8 + readLE s (wd j.words 5 + 4 * i) 4 * wd j.words 7) % 2 ^ 34
  | .fetch =>
    let t := stashOf s j.ctx
    (t.spillBlk + stLayer j.words * t.stride) * 16384
  | .copy => wd j.words 2 + wd j.words 3 * 2 ^ 32
  | .serve => j.pkt.off
  | _ => 0

/-- A request that a transfer makes next: the read, and its place after it. -/
structure Req where
  rd : Rd
  row : Nat
  col : Nat

/-- The external address of the row that a transfer requests: a gather's comes from its index, read once (R297). -/
def rowBase (s : State) (j : Job) : Nat := if j.kind = .gather ∧ j.col ≠ 0 then j.base else rowExt s j j.row

/-- The next request of a transfer: along its rows in ascending address order, then the lines that only its checks need
(R294, R299). A gather sends what is not a whole line as sectors (R304). -/
def nextReq (s : State) (j : Job) : Option Req :=
  if j.halted then none
  else if j.row < rowsOfJob j then
    let len := rowLen s j
    let base := rowBase s j
    let a := (base + j.col) % 2 ^ 34
    let whole : Bool := decide (a % 128 = 0) && decide (j.col + 128 ≤ len)
    let narrow : Bool := decide (j.kind = .gather) && !whole
    let n := Nat.min (if narrow then 32 - a % 32 else 128 - a % 128) (len - j.col)
    let rd : Rd :=
      { pl := plOf (dirEnt s.xmu (a / 16384)) (a % 16384 / 128), blk := a / 16384, off := a % 128, n := n
        dst := some (rowCm s j j.row + j.col), narrow := narrow, tries := 0 }
    if j.col + n = len then some ⟨rd, j.row + 1, 0⟩ else some ⟨rd, j.row, j.col + n⟩
  else if j.verify then
    match j.chks.find? (fun k => k.sealed && !k.done && decide (k.asked ≠ 2 ^ 128 - 1)) with
    | none => none
    | some k =>
      match (List.range 128).find? (fun l => !bit k.asked l) with
      | none => none
      | some l => some ⟨⟨plOf (dirEnt s.xmu k.blk) l, k.blk, 0, 0, none, false, 0, false⟩, j.row, j.col⟩
  else none

/-- The reads of the classes given, lines or sectors, whose data have come and not landed. -/
def readsLanding (s : State) (p : Nat → Bool) (narrow : Bool) : Nat :=
  ((s.xfer.arrivals.filterMap (fun a =>
    match a.hold, findJob s a.job with
    | .read k n, some j => if decide (n = narrow) && p j.prio then some k else none
    | _, _ => none)).dedup).length

/-- The reads outstanding of the classes given, lines or sectors: each until its data have landed (R220). -/
def readsOut (s : State) (p : Nat → Bool) (narrow : Bool) : Nat :=
  (s.xfer.jobs.map (fun j => if p j.prio then (j.out.filter (fun r => r.narrow = narrow)).length else 0)).sum
    + readsLanding s p narrow

/-- Whether the limits leave room for a read of a class (R304, R306). -/
def roomFor (s : State) (prio : Nat) (narrow : Bool) : Bool :=
  let lim (l n : Nat) : Nat := if narrow then n else l
  decide (readsOut s (fun _ => true) narrow < lim 512 256)
    && (decide (prio = 0) || decide (readsOut s (fun p => decide (p ≠ 0)) narrow < lim 384 192))
    && (decide (prio ≠ 2) || decide (readsOut s (fun p => decide (p = 2)) narrow < lim 128 64))

/-- Whether a transfer reads external memory, and has begun. -/
def readsExt (j : Job) : Bool :=
  match j.kind with
  | .read | .gather | .fetch => true
  | .copy => decide (copySrc j = 2)
  | .serve => j.landed
  | _ => false

/-- Whether a transfer can make its next request now: there is room, its channel serves, and the step is not CRITICAL
(R306, R311, R315). A request to a RETIRED block goes on, to fault. -/
def canRequest (s : State) (j : Job) : Bool :=
  readsExt j &&
    (match nextReq s j with
     | none => false
     | some r => retired s.xmu r.rd.blk ||
        (decide (s.xmu.step ≠ 3) && chanActive s.xmu (plChan r.rd.pl) && roomFor s j.prio r.rd.narrow))

/-- The record of a block in a transfer's checks, made when its first line is requested (R294).
DEDUCED: log 67. -/
def askChk (x : XmuSt) (rd : Rd) (l : List Chk) : List Chk :=
  let b := if rd.narrow then 0 else 2 ^ (rd.pl % 128)
  if l.any (fun k => decide (k.blk = rd.blk)) then
    l.map (fun k => if k.blk = rd.blk then { k with asked := k.asked ||| b } else k)
  else
    let e := dirEnt x rd.blk
    l ++ [⟨rd.blk, decide (e.st = .sealed_) || e.upset, e.crc, b, [], false, false, e.upset⟩]

/-- Whether a request is a transfer's first one of its block. -/
def firstOf (rd : Rd) (j : Job) : Bool := !j.chks.any (fun k => decide (k.blk = rd.blk))

/-- Why a granule cannot leave core memory (R190): an uncorrectable word; or a bank that is neither ON nor DRAINING.
DESIGN CHOICE: log 112. -/
def outFault (s : State) (g : Nat) : Option (Nat × List Nat) :=
  if bankBytes s ≤ g then none
  else if bankOpen s (bankOf s.grade g) = false then some (cDARK, [bankOf s.grade g])
  else if granUncorrectable s g then some (cUNCORR, [bankOf s.grade g, granOf s.grade g])
  else none

/-- Channel c serves one access more of a class: windows of 64 follow one another (R306).
DEDUCED: log 38. -/
def noteService (c prio : Nat) (x : XmuSt) : XmuSt :=
  modChan c (fun k =>
    if 64 ≤ k.winAll + 1 then { k with winAll := 0, winBulk := 0, winBg := 0 }
    else { k with
      winAll := k.winAll + 1, winBulk := k.winBulk + b2n (decide (prio = 1)), winBg := k.winBg + b2n (decide (prio = 2)) }) x

/-- The granule of the index of a gather's present row (R297). -/
def idxGran (j : Job) : Nat := (wd j.words 5 + 4 * j.row) / 64 * 64

/-- The index of a row is read: its granule is read with its first word (R189, R297). -/
def readIdx (j : Job) (s : State) : State :=
  if j.kind = .gather ∧ j.col = 0 ∧ (j.row = 0 ∨ (wd j.words 5 + 4 * j.row) % 64 = 0) then noteRead s (idxGran j) else s

/-- Before a row of a gather is requested its index comes out of core memory (R21, R297). -/
def reachIdx (j : Job) (s : State) : State := if j.kind = .gather ∧ j.col = 0 then reachRead ownOut [idxGran j] s else s

/-- A transfer makes its next request. A gather's row is checked when its index is read (R297); a request that meets a RETIRED
block faults (R310, R313). -/
def request (j : Job) (s0 : State) : State :=
  let s := reachIdx j s0
  match nextReq s j with
  | none => s
  | some r =>
    let bad := if j.kind = .gather ∧ j.col = 0 then
        if outFault s (idxGran j) = none then extFault s.xmu (rowBase s j) (rowLen s j) else outFault s (idxGran j)
      else if retired s.xmu r.rd.blk then some (cRETIRED, [r.rd.blk]) else none
    let base := rowBase s j
    let s := readIdx j s
    match bad with
    | some f => settleJob j.id (jobFault f.1 f.2 j s)
    | none =>
      let s := if firstOf r.rd j && (dirEnt s.xmu r.rd.blk).upset then logDirUe r.rd.blk s else s
      modXmu (noteService (plChan r.rd.pl) j.prio) (modJob j.id (fun k => { k with
        out := k.out ++ [r.rd], row := r.row, col := r.col, base := base, chks := askChk s.xmu r.rd k.chks }) s)

/-- The channel that a transfer's next request goes to. -/
def nextChan (s : State) (j : Job) : Option Nat := (nextReq s j).map (fun r => plChan r.rd.pl)

/-- The oldest transfer of a class that can make a request, of those whose next request goes to a channel if one is given. -/
def candidate (s : State) (c : Option Nat) (prio : Nat) : Option Job :=
  s.xfer.jobs.find? (fun j => decide (j.prio = prio) && canRequest s j && (c = none || decide (nextChan s j = c)))

/-- Whether channel c owes the accesses that are left in its window to the lower classes that wait (R306).
DEDUCED: log 38. -/
def owedTo (s : State) (c : Nat) (bulk bg : Option Job) : Option Job :=
  let k := chan s.xmu c
  let nb := if bulk.isSome then s.xmu.bulkMin - k.winBulk else 0
  let ng := if bg.isSome then s.xmu.bgMin - k.winBg else 0
  if nb + ng = 0 ∨ nb + ng < 64 - k.winAll then none else if 0 < nb then bulk else bg

/-- The transfer that requests next: of the highest class, the oldest, but for the accesses that its channel owes to lower
classes (R299, R306).
DEDUCED: log 38. -/
def nextJob (s : State) : Option Job :=
  let pick (j : Job) : Option Job :=
    match nextChan s j with
    | none => some j
    | some c =>
      (owedTo s c (if j.prio = 0 then candidate s (some c) 1 else none) (candidate s (some c) 2)).orElse (fun _ => some j)
  match candidate s none 0, candidate s none 1 with
  | some j, _ => pick j
  | none, some j => pick j
  | none, none => s.xfer.jobs.find? (fun j => canRequest s j)

/-- Make requests while there is room for them. -/
def pump : (fuel : Nat) → State → State
  | 0, s => s
  | fuel + 1, s =>
    match nextJob s with
    | none => s
    | some j => pump fuel (request j s)

/-- The bytes of a fill that wait for room go on in order, as far as they can (R302, R364). -/
def flushFill : (fuel : Nat) → State → State
  | 0, s => s
  | fuel + 1, s =>
    match s.rsl.fill.late with
    | [] => s
    | (a, bs, hold, flits) :: rest =>
      if roomForLines s.xmu [(a, bs.length)] then
        flushFill fuel (giveBack hold flits (acceptRun acceptFill (bs.length / 128 + 2) a (bs.map some)
          { s with rsl := { s.rsl with fill := { s.rsl.fill with late := rest } } }))
      else s

/-- Every inbound request that waits and can be handled is handled, and every read request that can be made is made. -/
def pumpAll (s : State) : State := pump 1024 (drainHeld 1 (drainHeld 0 (flushFill s.rsl.fill.late.length s)))

/-! ### Channels (R304, R311–R313) -/

/-- A channel enters TRAINING (R312), for its PHY alone or to be trained (R417). -/
def enterTraining (phy : Bool) (c : Nat) (s : State) : State :=
  modXmu (modChan c (fun k => { k with st := .training, fails := 0, wTries := [], phyOnly := phy })) s

/-- A channel is ACTIVE again: the reads that waited for it go out once more (R304, R312). -/
def leaveTraining (c : Nat) (s : State) : State :=
  let s := modXmu (modChan c (fun k => { k with st := .active, fails := 0, phyOnly := false })) s
  pumpAll { s with xfer := { s.xfer with jobs := s.xfer.jobs.map (fun j => { j with
    out := j.out.map (fun r => if plChan r.pl = c then { r with waits := false } else r) }) } }

/-- A retry of the part's data check (R304): counted, and logged with the tag of the transfer whose line it is (R404). -/
def noteRetry (c : Nat) (blame : Blame) (s : State) : State :=
  let s := modXmu (modChan c (fun k => { k with retries := (k.retries + 1) % 2 ^ 16 })) s
  logErr cLINK_RETRY 2 blame [c, (chan s.xmu c).retries] s

/-- Block b becomes RETIRED (R310): the advisory, and a record in the settings store. -/
def retireBlock (b : Nat) (s : State) : State :=
  let s := modXmu (modDir b (fun e => { e with st := .retired, upset := false })) s
  appendRec ((3 + b * 16) % 2 ^ 32) 0 (advise cRETIRE {} [b, usable s.xmu] s)

/-- The directory after a channel is mapped out: every entry that names it is RETIRED (R313). -/
def mapOutDir (c : Nat) (x : XmuSt) : XmuSt :=
  let y := modChan c (fun k => { k with st := .mappedOut }) x
  let d := x.dir.map (fun p => if p.2.chan = c then (p.1, { p.2 with st := .retired, upset := false }) else p)
  { y with dir := d.filter (fun p => decide (p.2 ≠ dirDefault y p.1)) }

/-- A channel is mapped out (R313): its buffered lines are discarded and logged under their writers, accesses that waited for
it fault, the advisory and the record follow. -/
def mapOutChan (c : Nat) (s : State) : State :=
  let lost := s.xmu.wcb.filter (fun l => decide (plChan l.pl = c))
  let s := modXmu (fun x => mapOutDir c { x with wcb := x.wcb.filter (fun l => decide (plChan l.pl ≠ c)) }) s
  let s := lost.foldl (fun s l => advise cRETIRED l.blame [l.blk] s) s
  let js := s.xfer.jobs.filter (fun j => j.out.any (fun r => decide (plChan r.pl = c)))
  let s := js.foldl (fun s j =>
    match j.out.find? (fun r => decide (plChan r.pl = c)) with
    | none => s
    | some r =>
      let s := modJob j.id (fun k => { k with out := k.out.filter (fun r => decide (plChan r.pl ≠ c)) }) s
      settleJob j.id (jobFault cRETIRED [r.blk] j s)) s
  let s := advise cMAPPED_OUT {} [c, usable s.xmu] s
  pumpAll (appendRec (4 + c * 16) 0 s)

/-- RETRAIN (R312): of a channel that serves, or that waits for its PHY alone. -/
def retrain (c : Nat) (s : State) : State :=
  if chanActive s.xmu c then enterTraining false c s else modXmu (modChan c (fun k => { k with phyOnly := false })) s
/-- MAP_OUT (R313): of a channel that is populated and not mapped out. -/
def mapOut (c : Nat) (s : State) : State :=
  match (chan s.xmu c).st with
  | .active | .training => mapOutChan c s
  | _ => s

/-- RETRAIN. -/
def execRetrain (ch : Chan) (s : State) : Out := afterBoot s (.next (retrain ch s))
/-- MAP_OUT. -/
def execMapOut (ch : Chan) (s : State) : Out := afterBoot s (.next (mapOut ch s))

/-- TRAINING_ATTEMPT_END (R312): the third failure in a row maps the channel out. After an attempt that passes the channel is
ACTIVE as soon as its PHY is ready (R417). -/
def execTrainingAttemptEnd (ch : Chan) (pass : Bool) (s : State) : Out :=
  let k := chan s.xmu ch
  if k.st ≠ .training ∨ s.nvs.phase < 7 then .next s
  else if pass then
    .next (if k.phyRdy then leaveTraining ch s else modXmu (modChan ch (fun k => { k with fails := 0, phyOnly := true })) s)
  else
    let s := modXmu (modChan ch (fun k => { k with fails := k.fails + 1 })) s
    let s := advise cTRAIN {} [ch.val, k.fails + 1] s
    .next (if k.fails + 1 = 3 then mapOutChan ch s else s)

/-- CH_PHY_RDY (R417): while the PHY is not ready the channel is not ACTIVE; one that waited for it alone is ACTIVE again.
DEDUCED: log 37. -/
def execChPhyRdy (ch : Chan) (rdy : Bool) (s : State) : Out :=
  let k := chan s.xmu ch
  let s := modXmu (modChan ch (fun k => { k with phyRdy := rdy })) s
  if !rdy && decide (k.st = .active) then .next (enterTraining true ch s)
  else if rdy && decide (k.st = .training) && k.phyOnly then .next (leaveTraining ch s)
  else .next s

/-- Whether a channel has accesses at its parts: it serves, or completes those in flight before it is trained (R312). -/
def inService (x : XmuSt) (c : Nat) : Bool := decide ((chan x c).st = .active) || decide ((chan x c).st = .training)

/-- CH_WERR (R304): the part reports the oldest unreported write, of a line of the channel; it is retried, up to 4 times, then
the channel is trained again.
DEDUCED: log 64. -/
def execChWerr (w : WriteErr) (s : State) : Out :=
  let ch := w.ch
  let line := w.line % 2 ^ 24
  let n := SMap.get 0 (chan s.xmu ch).wTries line
  if inService s.xmu ch = false then .next s
  else if n < 4 then
    .next (noteRetry ch (SMap.get {} (chan s.xmu ch).writers line)
      (modXmu (modChan ch (fun k => { k with wTries := SMap.set 0 k.wTries line (n + 1) })) s))
  else .next (retrain ch (modXmu (modChan ch (fun k => { k with wTries := SMap.erase k.wTries line })) s))

/-! ### Returns (R294, R295, R304) -/

/-- Take an outstanding read away. -/
def dropRd (id i : Nat) (s : State) : State := modJob id (fun k => { k with out := k.out.eraseIdx i }) s

/-- Put bytes into a transfer's buffer. -/
def putBuf (m : SMap W8) (a : Nat) : List W8 → SMap W8
  | [] => m
  | b :: bs => putBuf (SMap.put m a b) (a + 1) bs

/-- A line of a block has come back: it counts for the block's check (R294). -/
def noteLine (rd : Rd) (bs : List W8) (l : List Chk) : List Chk :=
  if rd.narrow then l
  else l.map (fun k => if k.blk = rd.blk then { k with lines := SMap.put k.lines (rd.pl % 128) bs } else k)

/-- The check of a block whose every line has come back (R294, R295); a gather checks only under verify (R297). -/
def checkBlock (id blk : Nat) (s : State) : State :=
  match findJob s id with
  | none => s
  | some j =>
    match j.chks.find? (fun k => decide (k.blk = blk)) with
    | none => s
    | some k =>
      if k.sealed && !k.race && !k.done && (decide (j.kind ≠ .gather) || j.verify) && decide (k.lines.length = 128) then
        let crc := crc32c (k.lines.flatMap Prod.snd)
        let s := modJob id (fun j => { j with chks := j.chks.map (fun q => if q.blk = blk then { q with done := true, lines := [] } else q) }) s
        if crc = k.crc ∧ k.bad = false then s
        else jobFault cBLOCK_CRC [blk, k.crc, crc] j
          (modXmu (fun x => { x with crcFaults := (x.crcFaults + 1) % 2 ^ 32 }) s)
      else s

/-- The bytes of a line as they come back: as stored, but for the bits that arrive wrong. -/
def arrived (stored errs : List W8) : List W8 :=
  (List.range stored.length).map (fun i => stored.getD i 0#8 ^^^ errs.getD i 0#8)

/-- The next line of a COPY whose bytes have come: they are performed in order (R282, R348). -/
def copyLine (j : Job) : Option (List W8) :=
  if j.bytes < wd j.words 6 ∧ (List.range 64).all (fun i => j.buf.any (fun p => decide (p.1 = j.bytes + i))) = true
  then some ((List.range 64).map (fun i => SMap.get 0#8 j.buf (j.bytes + i)))
  else none

/-- The destination address of a COPY. -/
def copyTo (j : Job) : Nat := wd j.words 4 + wd j.words 5 * 2 ^ 32

/-- The lines of a COPY to host or external memory that can be performed now are performed, in order; a RETIRED block faults,
and a write that finds no room waits. -/
def flushCopy (id : Nat) : (fuel : Nat) → State → State
  | 0, s => s
  | fuel + 1, s =>
    match findJob s id with
    | none => s
    | some j =>
      if decide (j.kind ≠ .copy) || j.faulted || decide (copyDst j = 1) then s
      else
        match copyLine j with
        | none => s
        | some bs =>
          let a := copyTo j + j.bytes
          let done := fun s => modJob id (fun k => { k with bytes := k.bytes + 64, buf := k.buf.filter (fun p => decide (j.bytes + 64 ≤ p.1)) }) s
          if copyDst j = 0 then flushCopy id fuel (done (emit (.hostWrite a bs) s))
          else
            match extFault s.xmu a 64 with
            | some f => jobFault f.1 f.2 j s
            | none =>
              if roomForLines s.xmu [(a, 64)] then flushCopy id fuel (done (acceptBytes id j.blame a bs s)) else s

/-- Whether what a transfer reads is collected and not delivered to core memory. -/
def collects (j : Job) : Bool := decide (j.kind = .serve) || (decide (j.kind = .copy) && decide (copyDst j ≠ 1))

/-- The errors that the part of a channel reports as corrected are counted (R317, R353). -/
def noteCorrected (c : Nat) (corrected : Bool) (s : State) : State :=
  if corrected then modXmu (modChan c (fun k => { k with ce := (k.ce + 1) % 2 ^ 16 })) s else s

/-- The directory entry of the block, read for the check, has an uncorrectable error: it is logged, and the block is treated as
SEALED with a CRC that does not match (R292).
DEDUCED: log 68. -/
def noteDirErr (job : Nat) (rd : Rd) (dirErr : Bool) (s : State) : State :=
  if dirErr then
    modJob job (fun k => { k with chks := k.chks.map (fun q => if q.blk = rd.blk then { q with sealed := true, bad := true } else q) })
      (logDirUe rd.blk (modXmu (modDir rd.blk (fun e => { e with upset := true })) s))
  else s

/-- The rows of a command; 0 means the largest number. -/
def rowCount (w top : Nat) : Nat := if w = 0 then top else w

/-- The rows of an XDMA.WRITE (R296).
DEDUCED: log 66. -/
def writeRows (j : Job) : Nat := rowCount (bits (wd j.words 5) 11 0) 4096
/-- The granules of a row. -/
def writePer (j : Job) : Nat := wd j.words 4 / 64
/-- The external address of row i. -/
def writeExt (j : Job) (i : Nat) : Nat := (wd j.words 8 + i * wd j.words 7) % 2 ^ 34
/-- Its core-memory address. -/
def writeCm (j : Job) (i : Nat) : Nat := wd j.words 1 + i * wd j.words 6

/-- The granules of an XDMA.WRITE that lie in an external range, by number, and that the XMU has not accepted. -/
def writeIn (j : Job) (a n : Nat) : List Nat :=
  ((List.range (writeRows j)).filter (fun i => decide (writeExt j i < a + n ∧ a < writeExt j i + wd j.words 4))).flatMap (fun i =>
    ((List.range (writePer j)).map (fun k => i * writePer j + k)).filter (fun k =>
      decide (writeExt j i + 64 * (k % writePer j) < a + n ∧ a < writeExt j i + 64 * (k % writePer j) + 64 ∧ k ∉ j.early)))

/-- A reader comes upon granule k of an XDMA.WRITE that has not completed: the XMU may have accepted it already (R271).
DESIGN CHOICE: log 66. -/
def comeUpon (id : Nat) (s : State) (k : Nat) : State :=
  match findJob s id with
  | none => s
  | some j =>
    let ext := writeExt j (k / writePer j) + 64 * (k % writePer j)
    let g := writeCm j (k / writePer j) + 64 * (k % writePer j)
    let (f, s) := takeFree 1 s
    if Config.freeNat f % 2 = 0 || j.faulted || (outFault s g).isSome || (extFault s.xmu ext 64).isSome
        || !roomForLines s.xmu [(ext, 64)] then s
    else
      let s := reach ownOut [g] s
      modJob id (fun x => { x with early := x.early ++ [k] }) (acceptBytes id j.blame ext (readBytes s g 64) (noteRead s g))

/-- A reader reads an external range that XDMA.WRITEs in progress write (R271). -/
def meetWrites (a n : Nat) (s : State) : State :=
  (s.xfer.jobs.filter (fun j => decide (j.kind = .write))).foldl (fun s j => (writeIn j a n).foldl (comeUpon j.id) s) s

/-- The COPYs into external memory that a reader comes upon: each has performed an open number more of the lines that it can, in
order (R271, R282).
DESIGN CHOICE: log 66. -/
def meetCopy (a n : Nat) (s : State) (j : Job) : State :=
  let dst := copyTo j + j.bytes
  if j.kind = .copy ∧ copyDst j = 2 ∧ j.faulted = false ∧ dst < a + n ∧ a < copyTo j + wd j.words 6 then
    let (k, s) := takeFree 1 s
    settleJob j.id (flushCopy j.id (Config.freeNat k % (wd j.words 6 / 64 + 1)) s)
  else s

/-- A reader reads an external range: it may come upon any units of the writes to it in progress (R271). -/
def meetExt (a n : Nat) (s : State) : State := meetLate a n (s.xfer.jobs.foldl (meetCopy a n) (meetWrites a n s))

/-- The number of a read whose data go on their way to core memory. -/
def takeRead (s : State) : Nat × State := (s.xfer.nextRead, { s with xfer := { s.xfer with nextRead := s.xfer.nextRead + 1 } })

/-- XMU_READ_RETURN: read i of a transfer comes back.
DEDUCED: log 64. -/
def execXmuReadReturn (job : Nat) (i : Nat) (ret : ReadRet) (s : State) : Out :=
  match findJob s job with
  | none => .next s
  | some j =>
    match j.out[i]? with
    | none => .next s
    | some rd =>
      let c := plChan rd.pl
      if s.xmu.step = 3 ∨ inService s.xmu c = false ∨ rd.waits = true then .next s
      else
        match ret with
        | .crcErr =>
          if rd.tries < 4 then
            .next (noteRetry c j.blame (modJob job (fun k => { k with out := k.out.set i { rd with tries := rd.tries + 1 } }) s))
          else
            .next (retrain c (modJob job (fun k => { k with out := k.out.set i { rd with tries := 0, waits := true } }) s))
        | .data errs corrected dirErr =>
          let s := noteDirErr job rd dirErr (noteCorrected c corrected (dropRd job i s))
          if retired s.xmu rd.blk then .next (pumpAll (settleJob job (jobFault cRETIRED [rd.blk] j s)))
          else
            let s := addTot tXRD (if rd.narrow then 32 else 128) s
            let s := meetExt (rd.blk * 16384 + rd.pl % 128 * 128) 128 s
            let o := if rd.narrow then rd.off - rd.off % 32 else 0
            let bs := arrived (lineBytes s.xmu rd.pl o (if rd.narrow then 32 else 128)) errs
            let mine := slice (rd.off - o) rd.n bs
            let s := modJob job (fun k => { k with chks := noteLine rd bs k.chks }) s
            let s := match rd.dst with
              | none => s
              | some d =>
                if j.kind = .copy ∧ j.halted = true then s
                else if collects j then modJob job (fun k => { k with buf := putBuf k.buf d mine }) s
                else
                  let (k, s) := takeRead s
                  deliver job j.comb d (mine.map some) (.read k rd.narrow) s
            .next (pumpAll (settleJob job (flushCopy job 4 (checkBlock job rd.blk s))))

/-! ### Row remap and retirement (R307–R310) -/

/-- The blocks whose entry names a channel block. -/
def blocksAt (x : XmuSt) (c k : Nat) : List Nat :=
  ((4 * k + c) :: x.dir.map Prod.fst).dedup.filter (fun b => decide ((dirEnt x b).chan = c ∧ (dirEnt x b).blk = k))

/-- The first free spare row of a bank: neither in use nor bad.
DEDUCED: log 69. -/
def freeSpare (k : ChanRec) (bank : Nat) : Option Nat :=
  (List.range 256).find? (fun sp =>
    !k.remaps.any (fun p => decide (p.2.bank = bank ∧ p.2.spare = sp)) && !decide ((bank, sp) ∈ k.bad))

/-- The two words of a remap record (R427). -/
def remapRecord (c : Nat) (r : Remap) (bad : Bool) : Nat × Nat :=
  let w := 2 + c * 2 ^ 4 + r.bank * 2 ^ 6 + r.row * 2 ^ 10 + r.spare * 2 ^ 26 + r.gen * 2 ^ 34 + b2n bad * 2 ^ 36
  (w % 2 ^ 32, w / 2 ^ 32)

/-- A remap is made: its entry, its copy, the advisory and the record (R308–R310). -/
def remapTo (c idx : Nat) (r : Remap) (errs : Option (List W8)) (s : State) : State :=
  let s := modXmu (fun x => { modChan c (fun k => { k with remaps := SMap.put k.remaps idx r }) x with
    copies := x.copies ++ [⟨c, r.bank, r.row, r.spare, [], errs⟩] }) s
  let s := advise cREMAP {} [c + r.bank * 2 ^ 2 + r.row * 2 ^ 6, r.gen] s
  let w := remapRecord c r false
  appendRec w.1 w.2 s

/-- A row fault (R308): 0 remapped, 1 retired, 2 ignored; `errs` are the bits that the row gives wrong. -/
def rowFault (c bank row : Nat) (errs : Option (List W8)) (s : State) : Nat × State :=
  let named := blocksAt s.xmu c (2 * row + bank / 8)
  let bs := named.filter (fun b => !retired s.xmu b)
  if named ≠ [] ∧ bs = [] then (2, s)
  else
    let k := chan s.xmu c
    let retire : Nat × State := (1, bs.foldl (fun s b => retireBlock b s) s)
    match k.remaps.find? (fun p => decide (p.2.bank = bank ∧ p.2.row = row)) with
    | some (idx, r) =>
      if 3 ≤ r.gen then retire
      else
        let s := modXmu (modChan c (fun k => { k with bad := k.bad ++ [(bank, r.spare)] })) s
        let w := remapRecord c r true
        let s := appendRec w.1 w.2 s
        match freeSpare (chan s.xmu c) bank with
        | some sp => (0, remapTo c idx ⟨bank, row, sp, r.gen + 1⟩ errs s)
        | none => (1, bs.foldl (fun s b => retireBlock b s) s)
    | none =>
      match freeSpare k bank, (List.range 4096).find? (fun i => !k.remaps.any (fun p => decide (p.1 = i))) with
      | some sp, some idx => (0, remapTo c idx ⟨bank, row, sp, 1⟩ errs s)
      | _, _ => retire

/-- XMU_ROW_FAULT (R307, R308). -/
def execXmuRowFault (ch : Chan) (bank : Nat) (row : FailedRow) (s : State) : Out :=
  afterBoot s <|
  .next (rowFault ch (bank % 16) (row.row % 65536) (some row.errs) s).2

/-- The physical line of line i of a row (R285). -/
def rowLine (ch bank row i : Nat) : Nat := ch * 2 ^ 24 + (2 * row + bank / 8) * 128 + 8 * i + bank % 8

/-- The bytes of a row as the copy reads them: bits that the failed row gives wrong are wrong in the spare, but for the lines
drained into both while the copy ran (R309). -/
def copyRow (k : RemapCopy) (errs : List W8) (x : XmuSt) : XmuSt :=
  (List.range 16).foldl (fun x i =>
    let pl := rowLine k.ch k.bank k.row i
    let e := slice (128 * i) 128 errs
    if pl ∈ k.drained ∨ e.all (fun b => decide (b = 0#8)) = true then x
    else putLine pl 0 ((List.range e.length).map (fun o => some (partByte x (pl * 128 + o) ^^^ e.getD o 0#8))) x) x

/-- REMAP_COPY_DONE (R309): the oldest copy ends and its row stands on the spare, with the bytes as the copy has read them;
what comes back wrong in a copy that host software asked for is open. While its channel does not serve, or the parts refresh
themselves, the copy does not go on (R311, R316, R417). -/
def execRemapCopyDone (s : State) : Out :=
  match s.xmu.copies with
  | [] => .next s
  | k :: ks =>
    if s.xmu.step = 3 ∨ chanActive s.xmu k.ch = false then .next s
    else
    let (n, s) := takeFree 2048 s
    let errs := k.errs.getD ((List.range 2048).map (fun i => Config.freeByte (n + i)))
    .next (addTot tXRD 2048 (addTot tXWR 2048 (modXmu (fun x => { copyRow k errs x with copies := ks }) s)))

/-- A write of XMU_REMAP_REQ (R307, R317). -/
def remapReq (v : Nat) (s : State) : State :=
  let s := modXmu (fun x => { x with rqChan := bits v 1 0, rqBank := bits v 5 2, rqRow := bits v 21 6 }) s
  if bit v 22 then
    let r := rowFault (bits v 1 0) (bits v 5 2) (bits v 21 6) none s
    modXmu (fun x => { x with rqResult := r.1 }) r.2
  else s
/-- XMU_REMAP_REQ. -/
def execXmuRemapReq (v : W32) (s : State) : Out := afterBoot s (.next (remapReq v.toNat s))

/-- A write of XMU_DIR_HI (R289, R311, R314): an entry that names a channel mapped out is RETIRED; state takes only RETIRED; a channel block in the reserved spare region is refused. -/
def dirHi (v : Nat) (s : State) : State :=
  let b := s.xmu.dirIndex
  let e := dirEnt s.xmu b
  let s := modXmu (modDir b (fun e => { e with exempt := bit v 2 })) s
  let s :=
    if bits v 5 4 = e.chan ∧ bits v 22 6 = e.blk then s
    else if spareBlk s.xmu ≤ bits v 22 6 then modXmu (fun x => { x with mapRefused := true }) s
    else modXmu (modDir b (fun e => { e with
      chan := bits v 5 4, blk := bits v 22 6
      st := if mappedOut s.xmu (bits v 5 4) then .retired else e.st })) s
  if bits v 1 0 = 2 ∧ retired s.xmu b = false then retireBlock b s else s
/-- XMU_DIR_HI. -/
def execXmuDirHi (v : W32) (s : State) : Out := afterBoot s (.next (dirHi v.toNat s))

/-- A write of XMU_DEV_CMD, with what the part or the PHY answers (R435).
DEDUCED: log 37. -/
def devCmd (v result : Nat) (s : State) : State :=
  let c := bits v 1 0
  let cmd := bits v 9 2
  let s := modXmu (fun x => { x with devChan := c, devCmd := cmd }) s
  let st := (chan s.xmu c).st
  if bit v 10 && (decide (st = .training) || decide (st = .absent)) then
    let ans :=
      if 8 ≤ cmd ∨ (cmd = 6 ∧ s.xmu.partRepair = false) then 0xFFFFFFFF
      else if cmd = 0 ∨ cmd = 4 then s.xmu.devData
      else if cmd = 2 ∨ cmd = 3 then result % 2 ^ 8
      else if cmd = 6 then result % 2
      else result
    let s := if 8 ≤ cmd ∨ (cmd = 6 ∧ s.xmu.partRepair = false) then s else emit (.dev c cmd s.xmu.devData) s
    modXmu (fun x => { x with devData := ans }) s
  else s
/-- XMU_DEV_CMD. -/
def execXmuDevCmd (v result : W32) (s : State) : Out := afterBoot s (.next (devCmd v.toNat result.toNat s))

/-! ### Thermal steps (R315, R316, R422) -/

/-- The threshold of a step; NORMAL has none. -/
def stepAt (x : XmuSt) (k : Nat) : Nat := match k with | 1 => x.warm | 2 => x.hot | 3 => x.crit | _ => 0

/-- The step after a reading: up at once to the highest reached, down one level below the hysteresis. -/
def nextStep (x : XmuSt) (t : Nat) : Nat :=
  let top := if x.crit ≤ t then 3 else if x.hot ≤ t then 2 else if x.warm ≤ t then 1 else 0
  if x.step < top then top
  else if 0 < x.step ∧ t + x.hyst < stepAt x x.step then x.step - 1
  else x.step

/-- The hoists that are OPEN or SENT (R261, R262). -/
def liveHoists (s : State) : List Nat := (List.range 256).filter (fun h => decide ((hoist s h).st ≠ .aborted))

/-- THERMAL_ADVISORY to the neighbours of every live hoist (R261, R315). -/
def sendAdvisories (s : State) : State :=
  (liveHoists s).foldl (fun s h =>
    let x := hoist s h
    hoistMsgs 5 h false s.xmu.advisoryUs (ac s) (neighbours s x) s) s

/-- The wall time of the next advisory: half the period later. -/
def armAdvisory (s : State) : State :=
  modXmu (fun x => { x with advDue := some (s.wall + x.advisoryUs * usTicks / 2) }) s

/-- Drain every line of the write-combining buffer that can: none in self-refresh (R316). -/
def drainAll (s : State) : State :=
  if s.xmu.step = 3 then s
  else (s.xmu.wcb.filter (fun l => chanActive s.xmu (plChan l.pl))).foldl (fun s l => drainLine l s) s

/-- Whether a transfer moves lines of external memory. -/
def movesExt (j : Job) : Bool :=
  match j.kind with
  | .read | .write | .gather => true
  | .copy => decide (bits (wd j.words 7) 1 0 = 2 ∨ bits (wd j.words 7) 3 2 = 2)
  | .serve => decide (j.pkt.space = 1)
  | _ => false

/-- Whether it still has a line to move. -/
def lineLeft (s : State) (j : Job) : Bool :=
  j.kind = .write || decide (j.out ≠ []) || (nextReq s j).isSome || (copyLeft j && decide (copyDst j = 2))

/-- The packets of critical class of which the XMU has still to accept units (R316, R334). -/
def lateCritical (s : State) : List LateW :=
  s.xfer.late.filter (fun w => match findJob s w.job with
    | some j => decide (j.kind = .linkIn) && decide (j.prio = 0)
    | none => false)

/-- Entry to CRITICAL (R316): the buffer drains, critical-class transfers that have a line left fault, every live hoist
aborts. -/
def enterCritical (t : Nat) (s : State) : State :=
  let s := drainAll s
  let s := modXmu (fun x => { x with step := 3, critSeen := true, advDue := none }) s
  let s := (s.xfer.jobs.filter (fun j => movesExt j && decide (j.prio = 0) && !j.faulted && lineLeft s j)).foldl (fun s j =>
    let s := jobFault cMEM_THERMAL [t] j s
    settleJob j.id (modJob j.id (fun k => { k with out := [] }) s)) s
  let s := (lateCritical s).foldl (fun s w => settleJob w.job (failLate (cMEM_THERMAL, [t]) w s)) s
  (liveHoists s).foldl (fun s h => abortHoist h 1 none s) s

/-- The memory's reading: the parts' own readout where they offer one, the temperature input otherwise; hot_c while that is
masked (R315, R422). -/
def memReading (t : Option Nat) (x : XmuSt) : Option Nat :=
  if x.partTemp then t else if x.mtempMasked then some x.hot else x.mtemp

/-- A reading sets the step (R315). -/
def takeReading (t : Nat) (s : State) : State :=
  let k := nextStep s.xmu t
  let old := s.xmu.step
  let s := modXmu (fun x => { x with temp := t }) s
  if k = old then s
  else
    let s := pushEvent cTHERM_STEP 0 none 0 0 0 [k, t] s
    if k = 3 then pumpAll (enterCritical t s)
    else
      let s := modXmu (fun x => { x with step := k, advDue := none }) s
      let s := if k = 2 then armAdvisory (sendAdvisories s) else s
      if old = 3 then pumpAll s else s

/-- XMU_THERMAL_SAMPLE: `t` is the parts' own readout where they offer one (R315). -/
def execXmuThermalSample (t : Option Nat) (s : State) : Out :=
  match memReading t s.xmu with
  | some v => .next (takeReading v s)
  | none => .next s

/-- ADVISORY_PERIOD_EXPIRY (R315). -/
def execAdvisoryPeriodExpiry (s : State) : Out :=
  afterBoot s <|
  match s.xmu.advDue with
  | some d => if s.xmu.step = 2 then .next (armAdvisory (sendAdvisories (advanceWall d s))) else .next s
  | none => .next s

/-- CH_MTEMP: a strobe delivers a reading; a masked input delivers none (R420, R422). -/
def execChMtemp (t : Nat) (s : State) : Out :=
  .next (modXmu (fun x => { x with mtempAt := s.wall, mtemp := if x.mtempMasked then x.mtemp else some t }) s)

/-- MTEMP_STUCK: no strobe for 1 ms (R420, R422). -/
def execMtempStuck (s : State) : Out :=
  if s.xmu.mtempMasked then .next s
  else
    .next (modXmu (fun x => { x with mtempStuck := true, mtempMasked := true }) (advanceWall (s.xmu.mtempAt + 1000 * usTicks) s))

end Sys2Proof.Machine
end

