-- ==== Sys2Proof/Machine/Xdma.lean ====
section
/-!
DEFINITION. The XDMA engine: XDMA.READ, WRITE and GATHER (R296–R301), the shared-memory commands (R178, R222, R418) and the
stash commands (R92–R99).
-/
namespace Sys2Proof.Machine

/-! ### Starts -/

/-- Whether a transfer is a command of the XDMA class in progress (R299). -/
def JKind.xdma : JKind → Bool
  | .read | .write | .gather | .smRead | .smWrite | .claim | .fetch | .release => true
  | _ => false

/-- The commands of the XDMA class in progress; one that has faulted has retired (R219, R300). -/
def xdmaCount (s : State) : Nat := (s.xfer.jobs.filter (fun j => j.kind.xdma && !j.faulted)).length

/-- A command of the XDMA or LNK class starts: it leaves its queue and becomes a transfer. -/
def beginJob (q : QName) (e : QEnt) (f : Nat → Job) (s : State) : State :=
  let s := addJob f (popQueue q s)
  trace { kind := 3, ctx := some e.ctx, opcode := wd e.words 0 % 256, tag := e.tag, time := s.ec } s

/-- The blame of a command. -/
def blameOf (e : QEnt) : Blame := { ctx := some e.ctx, tag := e.tag }

/-- The first granule of several ranges that a context may not use (R169, R179). -/
def badRange (s : State) (c : Ctx) (rs : List Range) : Option Nat :=
  rs.findSome? (fun r => (granulesOf r.1 r.2).find? (fun g => !mayUse s c g))

/-- The core-memory rows of a transfer command. -/
def cmRows (n cm stride len : Nat) : List Range := (List.range n).map (fun i => (cm + i * stride, len))

/-- The layout conditions of XDMA.READ and XDMA.WRITE (R296, R298). -/
def rwOk (write : Bool) (e : QEnt) : Bool :=
  let ws := e.words
  let w5 := wd ws 5
  decide (e.rsv = 0) && decide (wd ws 1 % 64 = 0) && decide (wd ws 8 % 64 = 0) && decide (bits (wd ws 3) 31 30 ≠ 3)
    && decide (wd ws 4 < 2 ^ 24) && decide (wd ws 4 ≠ 0) && decide (wd ws 4 % 64 = 0) && decide (bits w5 31 17 = 0)
    && (!write || decide (bits w5 16 12 = 0)) && decide (wd ws 6 < 2 ^ 24) && decide (wd ws 6 % 64 = 0)
    && decide (wd ws 7 % 64 = 0)

/-- The layout conditions of XDMA.GATHER (R297, R298). -/
def gatherOk (e : QEnt) : Bool :=
  let ws := e.words
  let len := bits (wd ws 4) 15 0
  decide (e.rsv = 0) && decide (wd ws 1 % 64 = 0) && decide (wd ws 8 % 32 = 0) && decide (bits (wd ws 3) 31 30 ≠ 3)
    && decide (32 ≤ len) && decide (len ≤ 32768) && decide (len % 32 = 0) && decide (wd ws 5 % 4 = 0)
    && decide (bits (wd ws 6) 31 29 = 0) && decide (bits (wd ws 6) 23 0 % 64 = 0) && decide (wd ws 7 % 32 = 0)

/-- Pennant, increment and class of word 3 (R296). -/
def w3Pennant (ws : List Nat) : Nat := bits (wd ws 3) 13 2
def w3Incr (ws : List Nat) : Nat := bits (wd ws 3) 29 14
def w3Prio (ws : List Nat) : Nat := bits (wd ws 3) 31 30

/-- The fault of a command's extents (R169, R288, R316): a critical command while the memory is CRITICAL, a core-memory range
outside the context's regions, an external extent that does not exist or is RETIRED. -/
def xdmaFault (s : State) (c : Ctx) (prio : Nat) (core : List Range) (ext : List Range) : Option (Nat × List Nat) :=
  if prio = 0 ∧ s.xmu.step = 3 then some (cMEM_THERMAL, [s.xmu.temp])
  else
    match badRange s c core with
    | some g => some (cADDR, [g, 0])
    | none => ext.findSome? (fun r => extFault s.xmu r.1 r.2)

/-- XDMA.READ and XDMA.WRITE start. -/
def startRw (write : Bool) (e : QEnt) (s : State) : State :=
  let ws := e.words
  let n := rowCount (bits (wd ws 5) 11 0) 4096
  if rwOk write e = false then startFormat .xdma e s
  else
    let ext := (List.range n).map (fun i => ((wd ws 8 + i * wd ws 7) % 2 ^ 34, wd ws 4))
    match xdmaFault s e.ctx (w3Prio ws) (cmRows n (wd ws 1) (wd ws 6) (wd ws 4)) ext with
    | some f => startFault .xdma e f.1 f.2 s
    | none =>
      pumpAll (beginJob .xdma e (fun id =>
        { id := id, kind := if write then .write else .read, ctx := e.ctx.val, blame := blameOf e, prio := w3Prio ws
          pennant := w3Pennant ws, incr := w3Incr ws, comb := bits (wd ws 5) 15 12, words := ws
          verify := bit (wd ws 5) 16 }) s)

/-- XDMA.GATHER starts.
DEDUCED: log 67. -/
def startGather (e : QEnt) (s : State) : State :=
  let ws := e.words
  let n := rowCount (bits (wd ws 4) 31 16) 65536
  if gatherOk e = false then startFormat .xdma e s
  else
    match xdmaFault s e.ctx (w3Prio ws) ((wd ws 5, 4 * n) :: cmRows n (wd ws 1) (bits (wd ws 6) 23 0) (bits (wd ws 4) 15 0)) [] with
    | some f => startFault .xdma e f.1 f.2 s
    | none =>
      pumpAll (beginJob .xdma e (fun id =>
        { id := id, kind := .gather, ctx := e.ctx.val, blame := blameOf e, prio := w3Prio ws, pennant := w3Pennant ws
          incr := w3Incr ws, comb := bits (wd ws 6) 27 24, words := ws, verify := bit (wd ws 6) 28 }) s)

/-! ### XDMA.WRITE (R296, R300, R302) -/

/-- The XMU accepts one row, granule by granule, up to one that cannot leave core memory; the fault if there is one. A granule
that it has accepted before it does not accept again. -/
def acceptRow (j : Job) (i : Nat) : (n : Nat) → State → State × Option (Nat × List Nat)
  | 0, s => (s, none)
  | n + 1, s =>
    let ext := writeExt j i
    let cm := writeCm j i
    match acceptRow j i n s with
    | (s, some f) => (s, some f)
    | (s, none) =>
      if i * writePer j + n ∈ j.early then (s, none) else
      let s := reachRead ownOut [cm + 64 * n] s
      match outFault s (cm + 64 * n) with
      | some f => (noteRead s (cm + 64 * n), some f)
      | none =>
        (acceptBytes j.id j.blame (ext + 64 * n) (readBytes s (cm + 64 * n) 64) (noteRead s (cm + 64 * n)), none)

/-- The XMU accepts rows until one faults. -/
def acceptRows (j : Job) : (n : Nat) → State → State × Option (Nat × List Nat)
  | 0, s => (s, none)
  | n + 1, s =>
    match acceptRows j n s with
    | (s, some f) => (s, some f)
    | (s, none) =>
      match extFault s.xmu (writeExt j n) (wd j.words 4) with
      | some f => (s, some f)
      | none => acceptRow j n (writePer j) s

/-- The external rows of an XDMA.WRITE before the first that does not exist or is RETIRED. -/
def goodRows (s : State) (j : Job) : List Range :=
  ((List.range (writeRows j)).map (fun i => (writeExt j i, wd j.words 4))).takeWhile (fun r => (extFault s.xmu r.1 r.2).isNone)

/-- An XDMA.WRITE completes: every line is accepted, then its pennant rises (R300). While the lines find no room it waits (R302,
R316), and while timed commands that are done by then are to come (R272).
DEDUCED: log 66. -/
def completeWrite (j : Job) (s : State) : State :=
  if j.faulted then dropJob j.id s
  else if inOrder s (ac s) = false ∨ (goodRows s j ≠ [] ∧ roomForLines s.xmu (goodRows s j) = false) then s
  else
    match acceptRows j (writeRows j) s with
    | (s, some f) => dropJob j.id (jobFault f.1 f.2 j s)
    | (s, none) => raiseJob j (dropJob j.id s)

/-! ### Shared memory (R178, R222, R418) -/

/-- The layout conditions of XDMA.SMREAD and XDMA.SMWRITE. -/
def smOk (write : Bool) (e : QEnt) : Bool :=
  let ws := e.words
  decide (e.rsv = 0) && decide (wd ws 1 % 64 = 0) && decide (wd ws 8 % 64 = 0) && decide (bits (wd ws 3) 31 16 = 0)
    && decide (bits (wd ws 4) 23 0 ≠ 0) && decide (bits (wd ws 4) 23 0 % 64 = 0) && decide (bits (wd ws 4) 31 28 = 0)
    && (!write || decide (bits (wd ws 4) 27 24 = 0)) && decide (bits (wd ws 5) 31 28 = 0) && decide (wd ws 6 = 0)
    && decide (wd ws 7 = 0)

/-- The lowest free tag of the shared-memory port. -/
def smTag (s : State) : Nat :=
  ((List.range (s.xfer.sm.length + 1)).find? (fun t => !s.xfer.sm.any (fun p => decide (p.1 = t)))).getD 0

/-- The granules that the landing store holds or waits for (R178). -/
def landing (s : State) : Nat :=
  (s.xfer.sm.filter (fun p => p.2.dst.isSome)).length
    + (s.xfer.arrivals.filter (fun a => match findJob s a.job with | some j => decide (j.kind = .smRead) | none => false)).length

/-- A shared-memory transfer that can make a request: one that reads core memory comes after the timed commands that are done by
then (R272). -/
def smNext (s : State) : Option Job :=
  s.xfer.jobs.find? (fun j =>
    !j.faulted && decide (j.row < rowsOfJob j) && decide (s.xfer.sm.length < 32768)
      && ((decide (j.kind = .smWrite) && inOrder s (ac s)) || (decide (j.kind = .smRead) && decide (landing s < 31744))))

/-- It makes its next request. -/
def smRequest (j : Job) (s : State) : State :=
  let cm := wd j.words 1 + 64 * j.row
  let addr := (wd j.words 8 + 64 * j.row) % 2 ^ 48
  let t := smTag s
  if j.kind = .smRead then
    let s := modJob j.id (fun k => { k with row := k.row + 1, acks := k.acks + 1 }) s
    emit (.smRead t addr) { s with xfer := { s.xfer with sm := SMap.put s.xfer.sm t ⟨j.id, some cm⟩ } }
  else
    let s := reachRead ownOut [cm] s
    match outFault s cm with
    | some f => settleJob j.id (jobFault f.1 f.2 j (noteRead s cm))
    | none =>
      let s := noteRead s cm
      let s := modJob j.id (fun k => { k with row := k.row + 1, acks := k.acks + 1 }) s
      emit (.smWrite t addr (readBytes s cm 64)) { s with xfer := { s.xfer with sm := SMap.put s.xfer.sm t ⟨j.id, none⟩ } }

/-- Make shared-memory requests while they can be made. -/
def pumpSm : (fuel : Nat) → State → State
  | 0, s => s
  | fuel + 1, s =>
    match smNext s with
    | none => s
    | some j => pumpSm fuel (smRequest j s)

/-! ### Host reads (R348, R414) -/

/-- The lowest free tag of an outbound host read (R414). -/
def readTag (s : State) : Option Nat := (List.range 256).find? (fun t => !s.xfer.hreads.any (fun p => decide (p.1 = t)))

/-- A host read of a line goes out, if a tag is free (R414). -/
def hostRead (addr : Nat) (use : HUse) (s : State) : Option State :=
  (readTag s).map (fun t => emit (.hostRead t addr 64) { s with xfer := { s.xfer with hreads := SMap.put s.xfer.hreads t use } })

/-- The granules of COPYs that are on their way to core memory. -/
def copyLanding (s : State) : Nat :=
  (s.xfer.arrivals.filter (fun a => match findJob s a.job with | some j => decide (j.kind = .copy) | none => false)).length

/-- A COPY from host memory asks for its next lines while tags are free, and while fewer than 256 granules wait to land (R21).
DESIGN CHOICE: log 114. -/
def askHost (id : Nat) : (fuel : Nat) → State → State
  | 0, s => s
  | fuel + 1, s =>
    match findJob s id with
    | none => s
    | some j =>
      if j.faulted || decide (wd j.words 6 ≤ j.col) || decide (256 ≤ copyLanding s) then s
      else
        match hostRead (wd j.words 2 + wd j.words 3 * 2 ^ 32 + j.col) (.copy id j.col) s with
        | none => s
        | some s =>
          askHost id fuel (modJob id (fun k => { k with
            col := k.col + 64, acks := k.acks + 1, row := if wd j.words 6 ≤ j.col + 64 then 1 else 0 }) s)

/-- Every COPY from host memory asks for what it can. -/
def askAll (s : State) : State :=
  ((s.xfer.jobs.filter (fun j => decide (j.kind = .copy) && decide (copySrc j = 0))).map (fun j => j.id)).foldl
    (fun s id => askHost id 256 s) s

/-- A granule has left the arrival path: what waited for room goes on (R21, R178). -/
def afterLanding (s : State) : State := askAll (pumpSm 32768 (pumpAll s))

/-- PLAIN_ARRIVAL: arrival i lands in a DMA-in slot, and its transfer's pennant rises after its last granule (R183). -/
def execPlainArrival (i : Nat) (s : State) : Out := .next (afterLanding (landRow_ false i s))
/-- COMBINED_ARRIVAL: arrival i is read, combined and written back (R157, R158).
DEDUCED: log 55. -/
def execCombinedArrival (i : Nat) (s : State) : Out := .next (afterLanding (landRow_ true i s))

/-- A shared-memory command starts; in the flat hierarchy it faults (R222). -/
def startSm (write : Bool) (e : QEnt) (s : State) : State :=
  let ws := e.words
  let n := bits (wd ws 4) 23 0
  if smOk write e = false then startFormat .xdma e s
  else if s.cm.hier = false then startFault .xdma e cADDR [wd ws 8 % 2 ^ 32, wd ws 8 / 2 ^ 32 % 4] s
  else
    match badRange s e.ctx [(wd ws 1, n)] with
    | some g => startFault .xdma e cADDR [g, 0] s
    | none =>
      pumpSm 32768 (beginJob .xdma e (fun id =>
        { id := id, kind := if write then .smWrite else .smRead, ctx := e.ctx.val, blame := blameOf e
          pennant := bits (wd ws 5) 11 0, incr := bits (wd ws 5) 27 12, comb := bits (wd ws 4) 27 24, words := ws }) s)

/-- SM_RESPONSE (R418): read data go on to core memory, an acknowledgement counts; an error faults the command. -/
def execSmResponse (tag : Nat) (wack err : Bool) (data : List W8) (s : State) : Out :=
  match (s.xfer.sm.find? (fun p => decide (p.1 = tag))).map Prod.snd with
  | none => .next s
  | some r =>
    if s.cm.hier = false ∨ wack = r.dst.isSome then .next s
    else
      let s := { s with xfer := { s.xfer with sm := SMap.erase s.xfer.sm tag } }
      match findJob s r.job with
      | none => .next s
      | some j =>
        let s := modJob j.id (fun k => { k with acks := k.acks - 1 }) s
        let s :=
          if err then jobFault cADDR [wd j.words 8 % 2 ^ 32, wd j.words 8 / 2 ^ 32 % 4] j s
          else match r.dst with
            | some d => deliver j.id j.comb d ((padTo 0#8 64 data).map some) .none s
            | none => s
        .next (pumpSm 32768 (settleJob j.id s))

/-! ### Stash (R92–R99) -/

/-- The number of a layer state in the detail of STASH_STATE: the order of R93. -/
def layerCode : Layer → Nat
  | .absent => 0 | .resident => 1 | .spilled _ _ => 2 | .dropped => 3

/-- The oldest slots that must go until no live slot overlaps the blocks and fewer than 64 remain (R95): how many. -/
def victimCount (slots : List StSlot) (start n : Nat) : (fuel : Nat) → Nat → Nat
  | 0, k => k
  | fuel + 1, k =>
    let rest := slots.drop k
    if rest.any (fun x => decide (x.start < start + n ∧ start < x.start + x.n)) || decide (64 ≤ rest.length)
    then victimCount slots start n fuel (k + 1) else k

/-- Where a slot of n blocks goes, and the victims, oldest first (R95). -/
def placement (t : Stash) (n : Nat) : Nat × List StSlot :=
  let head := if t.slots = [] then 0 else t.head
  let start := if t.size < head + n then 0 else head
  (start, t.slots.take (victimCount t.slots start n (t.slots.length + 1) 0))

/-- Why a placement faults (R95, R97, R288): STASH_FULL, or a spill region that does not exist.
DEDUCED: log 104. -/
def placeFault (s : State) (t : Stash) (layer n : Nat) : Option (Nat × List Nat) :=
  let vs := (placement t n).2
  if t.size < n ∨ vs.any (fun v => decide (v.policy = 2)) ∨ vs.any (fun v => decide (v.policy = 0 ∧ t.stride < v.n)) then
    some (cSTASH_FULL, [layer, n])
  else
    (vs.filter (fun v => decide (v.policy = 0))).findSome? (fun v =>
      match extFault s.xmu ((t.spillBlk + v.layer * t.stride) * 16384) (v.n * 16384) with
      | some f => some f
      | none => (granulesOf ((t.base + v.start) * 16384) (v.n * 16384)).findSome? (outFault s))

/-- Evict a victim under its policy (R95): its bytes leave core memory, and the XMU accepts them afterwards.
DESIGN CHOICE: log 111. -/
def evictSlot (c writer : Nat) (blame : Blame) (s : State) (v : StSlot) : State :=
  let t := stashOf s c
  if v.policy = 0 then
    let ext := (t.spillBlk + v.layer * t.stride) * 16384
    let a := (t.base + v.start) * 16384
    let s := reachRead ownOut (granulesOf a (v.n * 16384)) s
    let s := writeLate writer writer blame ext (readBytes s a (v.n * 16384)) (noteReads s (granulesOf a (v.n * 16384)))
    let s := modStash c (fun t => setLayer v.layer (.spilled v.n v.policy) { t with spills := (t.spills + 1) % 2 ^ 16 }) s
    pushEvent cSTASH_SPILL 0 blame.ctx blame.tag 0 0 [v.layer, t.spillBlk + v.layer * t.stride] s
  else modStash c (fun t => setLayer v.layer .dropped { t with drops := (t.drops + 1) % 2 ^ 16 }) s

/-- Place a slot (R95). -/
def placeSlot (c writer : Nat) (blame : Blame) (layer n policy : Nat) (s : State) : State :=
  let p := placement (stashOf s c) n
  let s := p.2.foldl (evictSlot c writer blame) s
  modStash c (fun t => { t with slots := t.slots.drop p.2.length ++ [⟨layer, p.1, n, policy⟩], head := p.1 + n }) s

/-- The layout conditions of the stash commands (R94). -/
def stashOk (op : Nat) (e : QEnt) : Bool :=
  let ws := e.words
  decide (e.rsv = 0) && decide (bits (wd ws 1) 31 20 = 0) && decide (bits (wd ws 2) 31 11 = 0)
    && decide (bits (wd ws 3) 31 12 = 0) && (slice 4 4 ws).all (fun w => decide (w = 0))
    && (match op with
        | 0x35 => decide (stPolicy ws ≠ 3) && decide (stPred ws = 0) && decide (1 ≤ stSize ws) && decide (stSize ws ≤ 1536)
        | 0x36 => decide (stPolicy ws = 0) && decide (stSize ws = 0)
        | _ => decide (stPolicy ws = 0) && decide (stSize ws = 0) && decide (stPred ws = 0))

/-- A stash command becomes a transfer of a kind. -/
def beginStash (k : JKind) (e : QEnt) (s : State) : State :=
  beginJob .xdma e (fun id =>
    { id := id, kind := k, ctx := e.ctx.val, blame := blameOf e, prio := 1, pennant := stPennant e.words, words := e.words }) s

/-- Whether a stash command of the context is in progress (R94). -/
def stashBusy (s : State) (c : Ctx) : Bool :=
  s.xfer.jobs.any (fun j => decide (j.ctx = c.val) &&
    (decide (j.kind = .claim) || decide (j.kind = .fetch) || decide (j.kind = .release)))

/-- STASH.CLAIM starts (R96). -/
def startClaim (e : QEnt) (s : State) : State :=
  let c := e.ctx.val
  let l := stLayer e.words
  let t := stashOf s c
  match layerOf t l with
  | .absent | .dropped =>
    match placeFault s t l (stSize e.words) with
    | some f => startFault .xdma e f.1 f.2 (noteFault f s)
    | none =>
      let s := placeSlot c s.xfer.nextJob (blameOf e) l (stSize e.words) (stPolicy e.words) s
      beginStash .claim e (modStash c (setLayer l .resident) s)
  | y => startFault .xdma e cSTASH_STATE [l, layerCode y] s

/-- Whether the XMU has still to accept units of an external range (R98). -/
def lateIn (s : State) (a n : Nat) : Bool :=
  s.xfer.late.any (fun w => w.left.any (fun g => decide (g < a + n) && decide (a < g + 64)))

/-- STASH.FETCH starts (R98): it waits until the spill of its layer has been written. -/
def startFetch (e : QEnt) (s : State) : State :=
  let c := e.ctx.val
  let l := stLayer e.words
  let t := stashOf s c
  match layerOf t l with
  | .resident => beginStash .claim e s
  | .dropped => beginStash .release e s
  | .absent => startFault .xdma e cSTASH_STATE [l, 0] s
  | .spilled n policy =>
    match (placeFault s t l n).orElse (fun _ => extFault s.xmu ((t.spillBlk + l * t.stride) * 16384) (n * 16384)) with
    | some f => startFault .xdma e f.1 f.2 (noteFault f s)
    | none =>
      if lateIn s ((t.spillBlk + l * t.stride) * 16384) (n * 16384) then s
      else pumpAll (beginStash .fetch e (placeSlot c s.xfer.nextJob (blameOf e) l n policy s))

/-- Free a layer's slot (R99). -/
def freeSlot (l : Nat) (t : Stash) : Stash :=
  let newest : Bool := match t.slots.getLast? with | some k => decide (k.layer = l) | none => false
  let rest := t.slots.filter (fun k => decide (k.layer ≠ l))
  let head := if newest then (match rest.getLast? with | some k => k.start + k.n | none => 0) else t.head
  { t with slots := rest, head := head }

/-- STASH.RELEASE starts (R99). -/
def startRelease (e : QEnt) (s : State) : State :=
  let c := e.ctx.val
  let l := stLayer e.words
  match layerOf (stashOf s c) l with
  | .absent => startFault .xdma e cSTASH_STATE [l, 0] s
  | _ => beginStash .release e (modStash c (fun t => setLayer l .absent (freeSlot l t)) s)

/-- A stash command at the head of the XDMA queue (R94). -/
def startStash (op : Nat) (e : QEnt) (s : State) : State :=
  if stashBusy s e.ctx then s
  else if stashOk op e = false then startFormat .xdma e s
  else if op = 0x35 then startClaim e s
  else if op = 0x36 then startFetch e s
  else startRelease e s

/-- A stash command that moves no data any more completes: its address register, its predicate bit, its pennant (R96, R98). -/
def completeStash (j : Job) (s : State) : State :=
  if j.faulted then dropJob j.id s
  else
  let c := ctxOf j.ctx
  let op := wd j.words 0 % 256
  let s := dropJob j.id s
  let a := slotAddr (stashOf s j.ctx) (stLayer j.words)
  let s := if j.kind = .claim then modCtx s c (landAreg (ac s) 4 (stAreg j.words) (BitVec.ofNat 64 a)) else s
  let s := if op = 0x36 then modCtx s c (fun x => setPred x (stPred j.words) (decide (j.kind = .claim))) else s
  raise 4 j.pennant 0 1 j.blame (traceDone j s)

/-- A write of STASH_CFG_c: every slot and record of the context is discarded (R92, R109). -/
def stashCfg (c : Ctx) (v : Nat) (s : State) : State :=
  modStash c.val (fun t =>
    { t with base := bits v 11 0, size := Nat.min (bits v 22 12) 1536, slots := [], layers := [], head := 0 }) s

/-- STASH_CFG_WRITE (R92). -/
def execStashCfgWrite (c : Ctx) (v : W32) (s : State) : Out := afterBoot s (.next (stashCfg c v.toNat s))

/-! ### The queue -/

/-- The head of the XDMA queue starts, in queue order, while fewer than 16 commands are in progress (R299). -/
def startXdma (e : QEnt) (s : State) : State :=
  if 16 ≤ xdmaCount s then s
  else
    startInOrder (readyAc s .xdma e) (fun s =>
      match wd e.words 0 % 256 with
      | 0x30 => startRw false e s
      | 0x31 => startRw true e s
      | 0x32 => startGather e s
      | 0x33 => startSm false e s
      | 0x34 => startSm true e s
      | op => startStash op e s) s

/-- XDMA_READ (R296). -/
def execXdmaRead (sl : Slot) (s : State) : Out := issueRow 0x30 false (enqueue .xdma) sl s
/-- XDMA_WRITE (R296). -/
def execXdmaWrite (sl : Slot) (s : State) : Out := issueRow 0x31 false (enqueue .xdma) sl s
/-- XDMA_GATHER (R297). -/
def execXdmaGather (sl : Slot) (s : State) : Out := issueRow 0x32 false (enqueue .xdma) sl s
/-- XDMA_SMREAD (R222). -/
def execXdmaSmread (sl : Slot) (s : State) : Out := issueRow 0x33 false (enqueue .xdma) sl s
/-- XDMA_SMWRITE (R222). -/
def execXdmaSmwrite (sl : Slot) (s : State) : Out := issueRow 0x34 false (enqueue .xdma) sl s
/-- STASH_CLAIM (R96). -/
def execStashClaim (sl : Slot) (s : State) : Out := issueRow 0x35 false (enqueue .xdma) sl s
/-- STASH_FETCH (R98). -/
def execStashFetch (sl : Slot) (s : State) : Out := issueRow 0x36 false (enqueue .xdma) sl s
/-- STASH_RELEASE (R99). -/
def execStashRelease (sl : Slot) (s : State) : Out := issueRow 0x37 false (enqueue .xdma) sl s

end Sys2Proof.Machine
end

