-- ==== Sys2Proof/Machine/Lnk.lean ====
section
/-!
DEFINITION. The LNK engine (R322–R324), the request packets it sends (R325, R328), the responses to them (R329–R332, R335)
and their timeout (R330).
-/
namespace Sys2Proof.Machine

/-! ### Starts (R322–R324) -/

/-- Fields of word 3 of LNK.WRITE and LNK.READ. -/
def lkSpace (ws : List Nat) : Nat := bits (wd ws 3) 3 2
def lkDst (ws : List Nat) : Nat := bits (wd ws 3) 25 4
def lkCtx (ws : List Nat) : Nat := bits (wd ws 3) 28 26
def lkPort (ws : List Nat) : Nat := bits (wd ws 3) 29 29
def lkPrio (ws : List Nat) : Nat := bits (wd ws 3) 31 30
/-- Fields of word 4. -/
def lkBytes (ws : List Nat) : Nat := bits (wd ws 4) 23 0
def lkCombine (ws : List Nat) : Nat := bits (wd ws 4) 27 24
def lkScope (ws : List Nat) : Nat := bits (wd ws 4) 29 28

/-- The conditions that LNK.WRITE and LNK.READ share. -/
def lnkCommonOk (e : QEnt) : Bool :=
  let ws := e.words
  decide (e.rsv = 0) && decide (lkSpace ws ≤ 1) && decide (lkPrio ws ≠ 3) && decide (lkBytes ws ≠ 0)
    && (decide (lkCombine ws = 0) || decide (lkSpace ws = 0)) && decide (bits (wd ws 5) 31 28 = 0) && decide (wd ws 7 = 0)

/-- The layout conditions of LNK.WRITE.
DEDUCED: log 56. -/
def lnkWriteOk (e : QEnt) : Bool :=
  let ws := e.words
  lnkCommonOk e && decide (wd ws 1 % 4 = 0) && decide (wd ws 8 % 4 = 0) && decide (lkBytes ws % 4 = 0)
    && decide (lkScope ws ≠ 3) && !bit (wd ws 4) 31 && decide (bits (wd ws 6) 31 28 = 0)

/-- The layout conditions of LNK.READ. -/
def lnkReadOk (e : QEnt) : Bool :=
  let ws := e.words
  lnkCommonOk e && decide (wd ws 1 % 64 = 0) && decide (wd ws 8 % 64 = 0) && decide (lkBytes ws % 64 = 0)
    && decide (bits (wd ws 4) 31 29 = 0) && decide (wd ws 6 = 0)

/-- The head of the LNK queue starts: it is handed to its port, or faults (R323, R324). -/
def startLnkNow (e : QEnt) (s : State) : State :=
  let ws := e.words
  let write := decide (wd ws 0 % 256 = 0x38)
  if (if write then lnkWriteOk e else lnkReadOk e) = false then startFormat .lnk e s
  else if (port s (lkPort ws)).up = false then startFault .lnk e cLINK_DOWN [lkPort ws] s
  else
    match badRange s e.ctx [(wd ws 1, lkBytes ws)] with
    | some g => startFault .lnk e cADDR [g, 0] s
    | none =>
      let id := s.xfer.nextJob
      let s := beginJob .lnk e (fun id =>
        { id := id, kind := if write then .lnkWrite else .lnkRead, ctx := e.ctx.val, blame := blameOf e, prio := lkPrio ws
          pennant := if write then bits (wd ws 6) 11 0 else bits (wd ws 5) 11 0
          incr := if write then bits (wd ws 6) 27 12 else bits (wd ws 5) 27 12
          comb := lkCombine ws, words := ws, port := lkPort ws }) s
      modPort (lkPort ws) (fun q => { q with jobs := q.jobs ++ [id] }) s

/-- The head of the LNK queue starts once it has arrived. -/
def startLnk (e : QEnt) (s : State) : State := startInOrder (readyAc s .lnk e) (startLnkNow e) s

/-- LNK_WRITE (R322). -/
def execLnkWrite (sl : Slot) (s : State) : Out := issueRow 0x38 false (enqueue .lnk) sl s
/-- LNK_READ (R322). -/
def execLnkRead (sl : Slot) (s : State) : Out := issueRow 0x39 false (enqueue .lnk) sl s

/-! ### Request packets (R325, R328) -/

/-- Whether every request packet of a command has been sent. -/
def lnkSent (j : Job) : Bool := decide (lkBytes j.words ≤ j.row)

/-- Whether the completion of an LNK.WRITE waits for its acknowledgements: at SYSTEM scope, and at CHIP scope on the same chip
(R276). -/
def waitsAck (s : State) (j : Job) : Bool :=
  decide (lkScope j.words = 2) ||
    (decide (lkScope j.words = 1) && decide (bits (lkDst j.words) 13 0 = bits s.pos 13 0))

/-- An LNK.WRITE whose completion pennant has risen stays until its packets are answered (R332). -/
def lnkDone (j : Job) : Bool := decide (j.kind = .lnkWrite) && (j.landed || j.faulted)

/-- A command that is over and has no packet outstanding is forgotten. -/
def forgetLnk (id : Nat) (s : State) : State :=
  match findJob s id with
  | some j => if lnkDone j && decide (j.acks = 0) && (j.faulted || lnkSent j) then dropJob id s else s
  | none => s

/-- The header of the next request packet of a command, its place and its bytes (R325).
DEDUCED: log 59. -/
def nextPacket (s : State) (j : Job) (seq : Nat) : Hdr × Nat × Nat :=
  let ws := j.words
  let off := (wd ws 8 + j.row) % 2 ^ 34
  let n := Nat.min (4096 - off % 4096) (lkBytes ws - j.row)
  let tail := decide (j.row + n = lkBytes ws)
  let write := decide (j.kind = .lnkWrite)
  let h : Hdr :=
    { kind := if write then 1 else 2, prio := j.prio, scope := if write then lkScope ws else 0, combine := j.comb
      ctx := lkCtx ws, tail := tail, incrV := write && (tail || bit (wd ws 4) 30), verify := !write && bit (wd ws 4) 28
      off := off, space := lkSpace ws, dst := redirect s (lkDst ws), src := s.pos, srcPort := j.port
      tag := j.blame.tag, seq := seq, pennant := if write then bits (wd ws 5) 11 0 else 0
      incr := if write then bits (wd ws 5) 27 12 else 0, length := n, ret := if write then 0 else wd ws 1 + j.row }
  (h, wd ws 1 + j.row, n)

/-- The source granule of a write packet that cannot leave core memory (R190). -/
def sourceFault (s : State) (cm n : Nat) : Option (Nat × List Nat) := (granulesOf cm n).findSome? (outFault s)

/-- A command leaves its port's list: it has sent everything, or it has faulted. -/
def leavePort (p id : Nat) (s : State) : State := modPort p (fun q => { q with jobs := q.jobs.filter (fun k => decide (k ≠ id)) }) s

/-- A fault of an LNK command: it sends nothing more. -/
def lnkFault (code : Nat) (detail : List Nat) (j : Job) (s : State) : State := leavePort j.port j.id (jobFault code detail j s)

/-- What a port's REQ channel sends next: a packet again, a new one, or nothing now (R323, R328, R329). -/
inductive NextReq where
  | resend (read : Bool) (i : Nat) (o : OutPkt)
  | fresh (j : Job) (pkt : Packet) (n : Nat)
  | fault (j : Job) (code : Nat) (detail : List Nat)
  | none
deriving DecidableEq, Repr

/-- Position and value of the first packet that is to be sent again. -/
def dueOf (l : List OutPkt) : Option (Nat × OutPkt) := ((List.range l.length).zip l).find? (fun x => x.2.due)

/-- The REQ channel's next packet.
DEDUCED: log 58. -/
def nextOnReq (s : State) (p : Nat) : NextReq :=
  let q := port s p
  match dueOf q.outW, dueOf q.outR with
  | some (i, o), _ => .resend false i o
  | none, some (i, o) => .resend true i o
  | none, none =>
    match q.jobs.head?.bind (findJob s) with
    | none => .none
    | some j =>
      let write := decide (j.kind = .lnkWrite)
      if (if write then decide (1024 ≤ q.outW.length) else decide (512 ≤ q.outR.length)) then .none
      else
        let x := nextPacket s j q.seq
        if write then
          match sourceFault s x.2.1 x.2.2 with
          | some f => .fault j f.1 f.2
          | none => .fresh j (mkPacket x.1 (readBytes s x.2.1 x.2.2)) x.2.2
        else .fresh j (mkPacket x.1 []) x.2.2

/-- A request packet has been sent: it awaits its response.
DEDUCED: log 59. -/
def noteSent (p : Nat) (j : Job) (pkt : Packet) (n : Nat) (s : State) : State :=
  let o : OutPkt := ⟨pkt, j.id, 1, s.wall, false⟩
  let s := modPort p (fun q =>
    if j.kind = .lnkWrite then { q with outW := q.outW ++ [o], seq := (q.seq + 1) % 2 ^ 16 }
    else { q with outR := q.outR ++ [o], seq := (q.seq + 1) % 2 ^ 16 }) s
  let s := if j.kind = .lnkWrite then noteReads s (granulesOf (wd j.words 1 + j.row) n) else s
  let s := modJob j.id (fun k => { k with row := k.row + n, acks := k.acks + 1 }) s
  if lkBytes j.words ≤ j.row + n then leavePort p j.id s else s

/-! ### Responses -/

/-- Take an answered packet away: the packet and the state after. -/
def takeOut (l : List OutPkt) (seq : Nat) : Option OutPkt := l.find? (fun o => decide (o.pkt.seq = seq))

/-- A packet's command has one packet less outstanding. -/
def answered (id : Nat) (s : State) : State := modJob id (fun k => { k with acks := k.acks - 1 }) s

/-- The detail words of a refusal of a remote request, from the request itself; what only the other core knows is open
(R331, R405). -/
def refusalWords (req : Packet) (st : Nat) (s : State) : List Nat × State :=
  let (k, s) := takeFree 2 s
  let f (i : Nat) : Nat := (Config.freeWord (k + i)).toNat
  (match st with
   | 2 => addrDetail req.space req.off
   | 3 => [req.off / 16384]
   | 4 => [req.off / 16384, f 0, f 1]
   | 5 => [f 0]
   | 6 => [req.off % 2 ^ 32, bits (req.w 0) 14 12]
   | _ => [f 0, f 1], s)

/-- A port counts a response. -/
def countRefusal (p : Nat) (st : Nat) (s : State) : State :=
  if st = 0 then s else modPort p (fun q => { q with refusals := (q.refusals + 1) % 2 ^ 16 }) s

/-- A refused or lost WRITE of a command that the refusal does not fault is logged (R329, R332). -/
def rejected (p st : Nat) (j : Job) (s : State) : State := advise cLINK_REJECT j.blame [p, st] s

/-- An ACK has been accepted (R329, R332): it is matched by the port that sent the request. -/
def handleAck (p : Nat) (r : Packet) (s : State) : State :=
  match takeOut (port s r.srcPort).outW r.seq with
  | none => linkUnknown p r s
  | some o =>
    let p := r.srcPort
    let s := countRefusal p r.status s
    let gone := fun s => modPort p (fun q => { q with outW := q.outW.erase o }) s
    match findJob s o.job with
    | none => gone s
    | some j =>
      let ended := j.landed
      if r.status = 1 ∧ ended = false ∧ o.sends < 4 then
        modPort p (fun q => { q with outW := q.outW.map (fun x => if x = o then { x with due := true } else x) }) s
      else
        let s := answered j.id (gone s)
        let s :=
          if r.status = 0 then s
          else if ended then rejected p r.status j s
          else if r.status = 1 then lnkFault cLINK_CRC [p, r.seq] j s
          else if waitsAck s j then
            let d := refusalWords o.pkt r.status s
            lnkFault (statusCode r.status) d.1 j d.2
          else rejected p r.status j s
        forgetLnk j.id s

/-- A READ_REQ is to be sent again, or its command faults (R329). -/
def readAgain (p : Nat) (o : OutPkt) (s : State) : State :=
  match findJob s o.job with
  | none => modPort p (fun q => { q with outR := q.outR.erase o }) s
  | some j =>
    if o.sends < 4 then
      modPort p (fun q => { q with outR := q.outR.map (fun x => if x = o then { x with due := true } else x) }) s
    else
      let s := answered j.id (modPort p (fun q => { q with outR := q.outR.erase o }) s)
      settleJob j.id (lnkFault cLINK_CRC [p, o.pkt.seq] j s)

/-- A READ_DATA has been accepted (R324, R335): its bytes go to core memory under the request's combine code. Its header leaves the
buffer, and each granule as it lands (R21). -/
def handleData (p : Nat) (r : Packet) (hold : Hold) (s : State) : State :=
  match takeOut (port s r.srcPort).outR r.seq with
  | none => giveBack hold r.flits (linkUnknown p r s)
  | some o =>
    let p := r.srcPort
    let s := countRefusal p r.status s
    if r.status = 1 then giveBack hold r.flits (readAgain p o s)
    else
      let s := modPort p (fun q => { q with outR := q.outR.erase o }) s
      match findJob s o.job with
      | none => giveBack hold r.flits s
      | some j =>
        let s := answered j.id s
        if r.status = 0 then settleJob j.id (deliver j.id j.comb (o.pkt.w 7) (r.data.map some) hold (giveBack hold 1 s))
        else
          let d := refusalWords o.pkt r.status s
          settleJob j.id (lnkFault (statusCode r.status) d.1 j (giveBack hold r.flits d.2))

/-- A READ_DATA that fails its check is logged while a resend of its request is left (R404), and the request for its range is sent
again (R329). -/
def badData (p : Nat) (r : Packet) (s : State) : State :=
  match takeOut (port s r.srcPort).outR r.seq with
  | none => badResp p r s
  | some o => readAgain r.srcPort o (if o.sends < 4 then badResp p r s else s)

/-- The WRITE packets of a completed command that wait to be sent again are given up, each logged (R329). -/
def giveUpResends (j : Job) (s : State) : State :=
  ((port s j.port).outW.filter (fun o => decide (o.job = j.id) && o.due)).foldl (fun s o =>
    rejected j.port 1 j (answered j.id (modPort j.port (fun q => { q with outW := q.outW.erase o }) s))) s

/-- An LNK.WRITE completes once its writes are performed at its scope (R276, R324). -/
def completeLnkWrite (j : Job) (s : State) : State :=
  if j.landed || j.faulted || !lnkSent j || (waitsAck s j && decide (j.acks ≠ 0)) then s
  else forgetLnk j.id (giveUpResends j (raiseJob j (modJob j.id (fun k => { k with landed := true }) s)))

/-! ### Timeout (R330) -/

/-- The response timeout in ticks of wall time; 0 acts as 1. -/
def linkTimeoutTicks (s : State) : Nat := Nat.max 1 s.lnk.timeoutUs * usTicks

/-- The count of timeouts. -/
def countTimeout (p : Nat) (s : State) : State := modPort p (fun q => { q with timeouts := (q.timeouts + 1) % 2 ^ 16 }) s

/-- A request packet of a command times out. -/
def timeoutJob (p : Nat) (o : OutPkt) (s : State) : State :=
  match findJob s o.job with
  | none => advise cLINK_TIMEOUT { tag := o.pkt.tag } [p, o.pkt.seq] s
  | some j =>
    let s := answered j.id s
    let s := if j.landed || j.faulted then advise cLINK_TIMEOUT j.blame [p, o.pkt.seq] s
      else lnkFault cLINK_TIMEOUT [p, o.pkt.seq] j s
    forgetLnk j.id (settleJob j.id s)

/-! ### Ports (R326, R415) -/

/-- Take credits of a channel. -/
def takeCredits (vc : VChan) (n : Nat) (c : Credits) : Credits :=
  match vc with
  | .req => { c with req := c.req - n }
  | .rsp => { c with rsp := c.rsp - n }
  | .snp => { c with snp := c.snp - n }

/-- The credits held for a channel. -/
def creditsOf (vc : VChan) (c : Credits) : Nat := match vc with | .req => c.req | .rsp => c.rsp | .snp => c.snp

/-- FLp_EN: the core offers the port (R412, R415): it is enabled, and the core is not isolated. -/
def portEn (s : State) (p : Nat) : Bool := (if p = 0 then s.lnk.en0 else s.lnk.en1) && !s.isolated


/-- A port goes down: its credits are gone. -/
def portDown (p : Nat) (s : State) : State := modPort p PortSt.down s

/-- LINK_PORT_UP (R415): FLp_READY rises; an enabled port is UP, and the fabric returns its allotment. -/
def execLinkPortUp (p : Port) (c : Credits) (s : State) : Out :=
  let s := modPort p (fun q => { q with ready := true }) s
  .next (if portEn s p && !(port s p).up && decide (8 ≤ s.nvs.phase) then portUp p c s else s)

/-- LINK_PORT_DOWN (R415): FLp_READY falls. -/
def execLinkPortDown (p : Port) (s : State) : Out := .next (portDown p (modPort p (fun q => { q with ready := false }) s))

/-- A credit pulse adds one credit. -/
def addCredit (vc : VChan) (c : Credits) : Credits :=
  match vc with
  | .req => { c with req := c.req + 1 }
  | .rsp => { c with rsp := c.rsp + 1 }
  | .snp => { c with snp := c.snp + 1 }

/-- CREDIT_RETURN (R326, R415). -/
def execCreditReturn (p : Port) (vc : VChan) (s : State) : Out :=
  if (port s p).up then .next (modPort p (fun q => { q with cr := addCredit vc q.cr }) s) else .next s

/-- The enables of LNK_CFG are written (R338, R415). -/
def setPortEn (p : Nat) (en : Bool) (s : State) : State :=
  let s := { s with lnk := if p = 0 then { s.lnk with en0 := en } else { s.lnk with en1 := en } }
  if portEn s p then (if (port s p).ready && !(port s p).up then portUp p ⟨0, 0, 0⟩ s else s) else portDown p s

end Sys2Proof.Machine
end

