-- ==== Sys2Proof/Machine/Engine.lean ====
section
/-!
DEFINITION. The engines' commands between queue and retirement: the start of the head of a queue (R28), the completion of a
timed command at its done AC (R33), the completion of an XDMA, stash or LNK command (R219, R300).
-/
namespace Sys2Proof.Machine

/-! ### Start (R28) -/

/-- The head of the MXE queue starts by its opcode; a gated STREAM starts at the gate (R79). -/
def startMxe (e : QEnt) (s : State) : State :=
  match wd e.words 0 % 256 with
  | 0x10 => startFill false e s
  | 0x11 => startFill true e s
  | 0x12 => startSwap e s
  | 0x13 => if bit (wd e.words 5) 23 then s else startStream e s
  | 0x14 => startFtqCvt e s
  | _ => startSct e s

/-- The head of a queue starts once it has arrived and every resource it names is free. -/
def startHead (q : QName) (s : State) : State :=
  match queue s q with
  | [] => s
  | e :: _ =>
    match q with
    | .mxe => startMxe e s
    | .txb => startTxb e s
    | .vxe => startVxe e s
    | .pin => if wd e.words 0 % 256 = 0x24 then startPinRun e s else startAtom e s
    | .xdma => startXdma e s
    | .lnk => startLnk e s

/-- Whether the head of a queue finds rows of STREAMs: a STREAM, a converter or a tile reduction. -/
def findsRows (s : State) (q : QName) : Bool :=
  match q, queue s q with
  | .mxe, e :: _ => decide (wd e.words 0 % 256 = 0x13 ∨ wd e.words 0 % 256 = 0x14)
  | .vxe, e :: _ => isTile e.words
  | _, _ => false

/-- The start of the head of an engine's queue, in the order of the schedule; what finds rows finds those that are visible. -/
def startDueHead (q : QName) (s : State) : State :=
  match headStart s q with
  | none => s
  | some a => if startDue s a then s else startHead q (if findsRows s q && settledAc s a then settleStreams a s else s)

/-- ENGINE_COMMAND_START (R28). -/
def execEngineCommandStart (q : QName) (s : State) : Out :=
  match q with
  | .xdma | .lnk => .next (startHead q s)
  | _ => .next (startDueHead q s)

/-! ### Done (R33) -/

/-- One change of a command at its done AC, with the flags it adds to the per-command summary (R119). -/
def applyEff (r : Run) (e : Eff) (s : State) : State × Flags :=
  match e with
  | .mem a bs => (writeBytes s a bs, fNone)
  | .lane w f => (modCtx s r.ctx (fun x => { x with lane := SMap.mod 0#16 x.lane w (fun g => g ||| f) }), fNone)
  | .summary f => (s, f)
  | .laneClear => (modCtx s r.ctx (fun x => { x with lane := [] }), fNone)
  | .fold k amax nf => (modSct k (sctFold amax nf) s, fNone)
  | .jit k o => (modSct k (installScale o) s, fNone)
  | .sctSet k op v => (modSct k (sctOp op v) s, fNone)
  | .sctRead k sel d => (modCtx s r.ctx (landAreg r.doneAc 0 d (BitVec.ofNat 64 (sctRead (sctSlot s k) sel))), fNone)
  | .fill strip fmt kind rank lines => (applyFill strip ⟨lines, fmt, kind, rank⟩ s, fNone)
  | .swap => (applySwap s, fNone)
  | .sums n stamp acc rows => applySums r n stamp acc rows s
  | .accFlags f =>
    (modMxe (fun m => { m with
      accOverflow := m.accOverflow || f.getLsbD 0, accInvalid := m.accInvalid || f.getLsbD 3 }) s, f)
  | .txb sel off bs => (modMxe (fun m => { m with txb := putTxb m.txb (sel * 524288 + off) bs }) s, fNone)
  | .pennant p op v => (raise (if op = 2 then 1 else 3) p op v { ctx := some r.ctx, tag := r.tag } s, fNone)
  | .atom a op v cmp d =>
    let x := spanOf s r.seat
    let g := a / 64 * 64
    let y := atomOn a op v cmp (granBytes s g)
    let t := x.took.getD (y.1, y.2.2)
    let s := addTot tATOMS 1 (if g ∈ x.landed then s else landAtom r g (writeEc s r g) s)
    (if d < 16 then modCtx s r.ctx (landAreg r.doneAc 3 d (BitVec.ofNat 64 t.1)) else s, t.2)
  | .gen _ _ => (s, fNone)
  | .readsTxb _ => (s, fNone)

/-- Every change of a command, in order, with its summary. -/
def applyEffs (r : Run) (effs : List Eff) (s : State) : State × Flags :=
  effs.foldl (fun p e => let x := applyEff r e p.1; (x.1, p.2 ||| x.2)) (s, fNone)

/-- The order of completions within one AC, by class (R210, R63).
DEDUCED: log 15. -/
def doneOrder (r : Run) : Nat :=
  match r.opcode with
  | 0x20 => 1
  | 0x15 => 2
  | 0x16 => 3
  | 0x18 => 4
  | 0x24 | 0x25 => 5
  | 0x28 => if r.effs.any (fun e => match e with | .pennant _ 2 _ => true | _ => false) then 6 else 7
  | _ => 0

/-- The command that completes next: least done AC, then the order within the AC, then the older.
DEDUCED: log 15. -/
def nextDone (l : List Run) : Option Run :=
  l.foldl (fun b r => match b with
    | none => some r
    | some x => if r.doneAc < x.doneAc ∨ (r.doneAc = x.doneAc ∧ doneOrder r < doneOrder x) then some r else some x) none

/-- The registers that show an engine's last command (R133, R165). -/
def noteLast (r : Run) (f : Flags) (s : State) : State :=
  match r.opcode with
  | 0x20 => { s with vxe := { s.vxe with lastSummary := f.toNat, lastTag := r.tag } }
  | 0x24 | 0x25 => { s with pin := { s.pin with lastSummary := f.toNat, lastTag := r.tag } }
  | _ => s

/-- The block of R381 that a timed command keeps active: the array (0), the VXE (1), the pinions (2). -/
def blockOf : Nat → Option Nat
  | 0x13 => some 0
  | 0x20 => some 1
  | 0x24 | 0x25 => some 2
  | _ => none

/-- The pinions that a command names. -/
def pinsOf (g : Grade) (r : Run) : List Nat :=
  match r.opcode with
  | 0x24 => (pinBanks r.ent.words).map (pinionOf g)
  | 0x25 => [pinionOf g (bankOf g (wd r.ent.words 1))]
  | _ => []

/-- The unit that a timed command keeps from idling: 0 the MXE group, 1 the VXE, 2 + p pinion p (R380). -/
def unitsOf (g : Grade) (r : Run) : List Nat :=
  match r.opcode with
  | 0x10 | 0x11 | 0x12 | 0x13 | 0x14 | 0x15 | 0x16 | 0x18 => [0]
  | 0x20 => [1]
  | _ => (pinsOf g r).map (2 + ·)

/-- A command that is done leaves its active AC to the estimate (R379) and its units idle (R380). -/
def noteActive (r : Run) (s : State) : State :=
  let p := s.pwr
  let act := match blockOf r.opcode with
    | some k => SMap.mod 0 p.active k (· + (r.endAc - Nat.max r.startAc p.estAc))
    | none => p.active
  { s with pwr := { p with
      active := act
      lastBusy := (unitsOf s.grade r).foldl (fun m u => SMap.set 0 m u r.doneAc) p.lastBusy } }

/-- A timed command is done: its results are in place and it retires (R33, R119, R219). No host write of the AC of a SCT.READ comes
after it (R63). -/
def finishRun (r : Run) (s : State) : State :=
  let y := settleRun r (noteActive r (advance (2 * r.doneAc) s))
  let x := applyEffs r y.2.2 { y.1 with runs := y.1.runs.erase y.2.1 }
  let s := noteLast r x.2 (addSummary r.ctx x.2 r.tag x.1)
  let s := if r.opcode = 0x13 then streamDone r s else s
  let s := retireSpan r.seat (landCarried r.seat s)
  let s := trace { kind := 4, ctx := some r.ctx, opcode := r.opcode, tag := r.tag, time := 2 * r.doneAc, argA := x.2.toNat } s
  if r.opcode = 0x16 then advance (2 * r.doneAc + 1) s else s

/-- COMMAND_DONE (R33): no head of a queue that is due to start before it waits still (R272). -/
def execCommandDone (s : State) : Out :=
  match nextDone (liveRuns s) with
  | none => .next s
  | some r => if startDue s r.doneAc then .next s else .next (finishRun r s)

/-! ### Host writes of registers (R63, R440, R444) -/

/-- Whether every completion due by AC k has happened but those of SCT.READ in it, which come after the host writes of their AC
(R63). -/
def settledForHost (s : State) (k : Nat) : Bool :=
  (liveRuns s).all (fun r => decide (k < r.doneAc) || (decide (r.opcode = 0x16) && decide (r.doneAc = k)))

/-- A host write has an EC to itself, after every hardware update of the ECs before it and before every one of the ECs after it:
what is due to complete by its AC is complete, and what is due to start before AC k + `late`, k being its AC, has started (R63,
R440).
DESIGN CHOICE: log 36. -/
def inOwnEc (late : Nat) (f : State → State) (s : State) : State :=
  let t := tick s
  if settledForHost s (ac t) && !startDue s (ac t + late) then tick (f t) else s

/-- SCT_SR_SEED (R444). -/
def execSctSrSeed (v : W32) (s : State) : Out := afterBoot s (.next (inOwnEc 1 (reseed v) s))

end Sys2Proof.Machine
end

