-- ==== Sys2Proof/Machine/Switch.lean ====
section
/-!
DEFINITION. The escapement between timed sections: the release of untimed points, pause, stop and resume of contexts, time
slicing and partition spill (R180, R181, R197–R206, R224–R227, R248, R356).
-/
namespace Sys2Proof.Machine

/-! ### Retirement (R197, R219) -/

/-- The queue entries of a context. -/
def queuedOf (s : State) (c : Ctx) : List QEnt := allQueues.flatMap (fun q => (queue s q).filter (fun e => decide (e.ctx = c)))

/-- The queue entries of its timed commands. -/
def timedQueued (s : State) (c : Ctx) : List QEnt :=
  [QName.mxe, .txb, .vxe, .pin].flatMap (fun q => (queue s q).filter (fun e => decide (e.ctx = c)))

/-- Whether a running timed command is the context's. -/
def runsOf (s : State) (c : Ctx) : Bool := s.runs.any (fun r => decide (r.ctx = c))

/-- Whether a transfer is an XDMA or LNK command of the context that has not retired (R219). -/
def jobsOf (s : State) (c : Ctx) : Bool :=
  s.xfer.jobs.any (fun j => j.kind.local_ && decide (j.ctx = c.val) && !j.faulted && !lnkDone j)

/-- Whether every command a context issued has retired (R197). -/
def drained (s : State) (c : Ctx) : Bool := decide (queuedOf s c = []) && !runsOf s c && !jobsOf s c

/-- A context that is neither stopped nor quiesced. -/
def running (s : State) (c : Ctx) : Bool := decide ((ctx s c).cstate = .running)

/-- Any context runs (R173). -/
def anyRunning (s : State) : Bool := (List.finRange 8).any (running s)

/-! ### Release of untimed points (R248, R252, R224) -/

/-- Whether an outbound halyard entry of the context is held (R252).
DEDUCED: log 18. -/
def outHeld (s : State) (c : Ctx) : Bool := s.syn.out.any (fun o => decide (o.owner = some c))

/-- Whether a context is ready (R224): at its program start once none of its outbound halyard entries is held (R252). One whose partition is being evicted waits until it has gone (R32, R181), and none goes
on during a snapshot stop (R357).
DEDUCED: log 99. -/
def ready (s : State) (c : Ctx) : Bool :=
  let x := ctx s c
  decide (x.cstate = .running) && !x.stopping && !decide (c.val ∈ s.cm.evicting) && decide (s.rsl.snap.phase < 2) &&
    (match x.point with | .start => !outHeld s c | .released _ => true | _ => false)

/-- The contexts after `d` in round-robin order, `d` last; all in order where there is none.
DESIGN CHOICE: log 96. -/
def roundRobin (d : Option Ctx) : List Ctx :=
  match d with
  | some d => (List.range 8).map (fun i => ctxOf (d.val + 1 + i))
  | none => List.finRange 8

/-- Of the ready contexts but the one given, the one of highest priority, ties in round-robin order after it (R224).
DESIGN CHOICE: log 96. -/
def bestReady (s : State) (d : Option Ctx) : Option Ctx :=
  ((roundRobin d).filter (fun c => ready s c && decide (d ≠ some c))).foldl (fun b c => match b with
    | none => some c
    | some a => if (ctx s a).prio < (ctx s c).prio then some c else some a) none

/-- Whether a context whose untimed point has released must give way (R224). -/
def mustYield (s : State) (d : Ctx) : Bool :=
  match bestReady s (some d) with
  | none => false
  | some i => decide ((ctx s d).prio < (ctx s i).prio) || (s.quantumOver && decide ((ctx s d).prio ≤ (ctx s i).prio))

/-- A context's timed section begins: its origin is the EC of the release (R26). -/
def beginSection (c : Ctx) (e : Nat) (s : State) : State :=
  modCtx s c (fun x => { x with point := .inSection, lastIssue := e, fresh := true, slipping := false })

/-- The AC at whose end the wait of a context comes about next: that in which its SYN.WAIT or SYN.HOIST reaches the unit, or the
present one (R28, R247, R259). -/
def waitAc (c : Ctx) (s : State) : Nat :=
  match (ctx s c).point with
  | .pennant => ((s.syn.waits.find? (fun w => decide (w.who = .ctx c))).map (fun w => Nat.max (ac s) (w.at_ / 2))).getD (ac s)
  | _ => ((s.syn.ents.find? (fun n => decide (n.ctx = c))).map (fun n => Nat.max (ac s) n.ac)).getD (ac s)

/-- Whether a context's wait has released. -/
def releasing (s : State) (c : Ctx) : Bool := match (ctx s c).point with | .releasing _ => true | _ => false

/-- The release of a point in EC e: the dispatched context goes on unless it must give way or a switch leaves it (R224). -/
def releaseAt (c : Ctx) (e : Nat) (s : State) : State :=
  if s.dispatched = some c ∧ s.switching = false ∧ mustYield s c = false then beginSection c e s
  else modCtx s c (fun x => { x with point := .released e })

/-- A wait that has released in AC d releases its context in EC 2d + 2, once none of its outbound halyard entries is held
(R248, R252); the bytes that the transposing buffers hold for the dispatched context are gone (R90). -/
def releasePoint (c : Ctx) (s : State) : State :=
  let x := ctx s c
  match x.point with
  | .releasing d =>
    if outHeld s c then s
    else
      let e := Nat.max (2 * d + 2) x.outLeft
      let s := advance e s
      releaseAt c (Nat.max e s.ec) (if s.dispatched = some c then forgetTxb c s else s)
  | .released e => if s.switching then s else releaseAt c (Nat.max e s.ec) s
  | _ => s

/-- UNTIMED_POINT_RELEASE: the AC of the wait of the context ends, once the completions of it are in place, and a wait that releases
in it lets the context go on (R247, R248, R259).
DEDUCED: log 16, log 17. -/
def execUntimedPointRelease (c : Ctx) (s : State) : Out :=
  if (ctx s c).stopping || decide ((ctx s c).cstate ≠ .running) then .next s
  else if (ctx s c).point = .pennant ∨ (ctx s c).point = .hoist then
    let k := waitAc c s
    let t := advance (2 * k + 2) s
    .next (if settledAc s k && releasing t c then releasePoint c t else s)
  else .next (releasePoint c s)

/-- QUANTUM_EXPIRY (R224). -/
def execQuantumExpiry (s : State) : Out :=
  if s.dispatched = none ∨ s.quantumUs = 0 ∨ s.quantumOver = true then .next s
  else .next { (advanceWall (s.dispatchedAt + s.quantumUs * usTicks) s) with quantumOver := true }

/-! ### Pause, stop, resume, clear (R197–R199, R205, R356) -/

/-- The gated STREAM of a context leaves the MXE queue; the gate takes nothing (R81).
DEDUCED: log 20. -/
def withdrawGated (c : Ctx) (s : State) : State :=
  let mine (e : QEnt) : Bool := decide (e.ctx = c) && decide (wd e.words 0 % 256 = 0x13) && bit (wd e.words 5) 23
  let atGate := match gatedHead s with | some e => mine e | none => false
  let s := setQueue s .mxe ((queue s .mxe).filter (fun e => !mine e))
  if atGate then modMxe (fun m => { m with gate := none }) (setHeadAt .mxe (ac s) s) else s

/-- The issue position goes back to the untimed point.
DEDUCED: log 20. -/
def stepBack (c : Ctx) (s : State) : State := modCtx s c (fun x => { x with pos := x.pos - 1 })

/-- Withdraw what a context waits for at its untimed point, so that it is entered again when the context resumes; a hoist
wait whose entry is recorded resumes as WAIT, and one whose entry is still on its way has not entered (R81, R259, R356). -/
def withdrawPoint (c : Ctx) (s : State) : State :=
  match (ctx s c).point with
  | .pennant => stepBack c (modSyn (withdrawWait c (ac s)) s)
  | .hoist =>
    let onWay := s.syn.ents.any (fun n => decide (n.ctx = c))
    let s := { s with syn := { s.syn with
      ents := s.syn.ents.filter (fun n => decide (n.ctx ≠ c))
      hoists := s.syn.hoists.map (fun p =>
        (p.1, { p.2 with waiters := p.2.waiters.filter (fun w => decide (w.ctx ≠ c)) })) } }
    let s := stepBack c s
    let sl := slotAt s (ctx s c) (ctx s c).pos
    modCtx s c (fun x => { x with rejoin := !onWay && decide (hoistMode sl = 0) })
  | .gated => stepBack c (withdrawGated c s)
  | _ => s

/-- A quiesce request (R199): at an untimed point it takes effect at once, inside a section at the next one; a context that
has met ESC.END is ending already. -/
def requestQuiesce (c : Ctx) (s : State) : State :=
  let x := ctx s c
  if x.stopping || decide (x.cstate ≠ .running) then s
  else
    match x.point with
    | .inSection => modCtx s c (fun x => { x with quiesceReq := true })
    | .ending | .pausing => s
    | _ => modCtx (withdrawPoint c s) c (fun x => { x with point := .pausing, quiesceReq := false })

/-- A quiesce request of host software: a snapshot that asked too does not resume the context (R199, R361). -/
def hostQuiesce (c : Ctx) (s : State) : State :=
  requestQuiesce c (if running s c then
    { s with rsl := { s.rsl with snap := { s.rsl.snap with paused := s.rsl.snap.paused.filter (fun n => decide (n ≠ c.val)) } } } else s)

/-- CTX_QUIESCE (R199). -/
def execCtxQuiesce (c : Ctx) (s : State) : Out := afterBoot s (.next (hostQuiesce c s))

/-- CTX_STOP: in the next EC (R199).
DEDUCED: log 29. -/
def execCtxStop (c : Ctx) (s : State) : Out := afterBoot s (.next (hostStop c (advance (s.ec + 1) s)))

/-- A resume of a paused context (R197, R174): its image's slot-map signature must be the active set's; one without a valid
image is started by LAUNCH alone (R365).
DEDUCED: log 21. -/
def resumeCtx (c : Ctx) (s : State) : State :=
  let x := ctx s c
  if x.cstate ≠ .quiesced ∨ x.paused = false ∨ x.stopping = true ∨ x.imageValid = false then s
  else if x.img.sig ≠ mapSig s.cm.active then faultCtx c cSLOTMAP 4 0 [x.img.sig, mapSig s.cm.active] s
  else modCtx s c (fun x => { x with cstate := .running, paused := false, point := .start })

/-- CTX_RESUME (R197).
DEDUCED: log 21. -/
def execCtxResume (c : Ctx) (s : State) : Out := afterBoot s (.next (resumeCtx c s))

/-- A clear of a STOPPED context (R197, R228). -/
def clearCtx (c : Ctx) (s : State) : State :=
  if (ctx s c).cstate = .stopped then
    modCtx s c (fun x => { x with cstate := .quiesced, paused := false, faultCode := 0, faultTag := 0, faultSev := 0 })
  else s

/-- CTX_CLEAR (R197). -/
def execCtxClear (c : Ctx) (s : State) : Out := afterBoot s (.next (clearCtx c s))

/-- A context that no longer runs is no longer dispatched (R224).
DEDUCED: log 19. -/
def undispatch (c : Ctx) (s : State) : State := if s.dispatched = some c then { s with dispatched := none } else s

/-- The LAUNCH or REPLAY of a context completes (R206, R345, R350). -/
def endLaunch (c : Ctx) (status tag : Nat) (s : State) : State :=
  let x := ctx s c
  match x.launch with
  | none => s
  | some r => complete r status tag x.summary.toNat x.firstTag 0 (modCtx s c (fun x => { x with launch := none }))

/-- CONTEXT_STOPPED: the EC after the last queued command of a stopping context has started (R198). -/
def execContextStopped (c : Ctx) (s : State) : Out :=
  let x := ctx s c
  if x.stopping = false ∨ queuedOf s c ≠ [] then .next s
  else
    let s := advance (s.ec + 1) s
    let s := modCtx s c (fun x =>
      { x with cstate := .stopped, stopping := false, paused := false, quiesceReq := false, point := .inSection })
    .next (endLaunch c x.faultCode x.faultTag (undispatch c s))

/-- CONTEXT_QUIESCED: a pausing context, once its timed commands are done (R199); a context at ESC.END, once every command it
issued has retired and no outbound halyard entry of it is held, with its completion record (R206, R252). -/
def execContextQuiesced (c : Ctx) (s : State) : Out :=
  let x := ctx s c
  if x.stopping || decide (x.cstate ≠ .running) then .next s
  else
    match x.point with
    | .pausing =>
      if timedQueued s c ≠ [] ∨ runsOf s c = true then .next s
      else .next (undispatch c (modCtx s c (fun x => { x with cstate := .quiesced, paused := true, quiesceReq := false })))
    | .ending =>
      if drained s c = false ∨ outHeld s c = true then .next s
      else
        let s := modCtx s c (fun x => { x with cstate := .quiesced, paused := false, quiesceReq := false })
        .next (endLaunch c 0 0 (undispatch c s))
    | _ => .next s

/-! ### Partitions (R179–R181, R227) -/

/-- First block and blocks of a context's partition. -/
def partBase (s : State) (c : Nat) : Nat := SMap.get 0 s.cm.partBase c
def partSize (s : State) (c : Nat) : Nat := SMap.get 0 s.cm.partSize c

/-- Whether a partition is resident; one of no size never is (R180). -/
def residentPart (s : State) (c : Nat) : Bool := decide (c ∈ s.cm.resident) && decide (0 < partSize s c)

/-- Whether two partitions overlap.
DEDUCED: log 22. -/
def partsOverlap (s : State) (a b : Nat) : Bool :=
  decide (partBase s a < partBase s b + partSize s b) && decide (partBase s b < partBase s a + partSize s a)

/-- Mark a partition resident or not. -/
def setResident (c : Nat) (on : Bool) (s : State) : State :=
  let l := if on then insertNew c s.cm.resident else s.cm.resident.filter (fun k => decide (k ≠ c))
  { s with cm := { s.cm with resident := l } }

/-! ### The MXE's state at a switch (R225, R226) -/

/-- Whether a context's image uses the MXE (R200). -/
def usesMxe (s : State) (c : Ctx) : Bool := bit (ctx s c).img.engines 0

/-- The FTQ entries a context owns. -/
def ownedFtq (s : State) (c : Ctx) : List (Nat × Ftq) :=
  s.mxe.ftq.filter (fun p => decide (p.2.owner = c.val) && decide (ftqStateAt s (ac s) p.1 ≠ .free))

/-- The bytes of the MXE state with n owned entries (R225). -/
def mxeSaveBytes (g : Grade) (n : Nat) : Nat := 2 * 262144 + (if g = .max then 2 * 65536 else 0) + n * 262144 + 16384

/-- The AC that the state path takes.
DEDUCED: log 25. -/
def saveAc (g : Grade) (n : Nat) : Nat := ceilDiv (mxeSaveBytes g n) 6144

/-- What step 3 saves of context x. -/
def mxeSaveOf (s : State) (x : Ctx) : MxeSave :=
  ⟨s.mxe.active, s.mxe.shadow, s.mxe.stripActive, s.mxe.stripShadow, ownedFtq s x, false⟩

/-- The bytes that a saved MXE state takes in its save area.
DESIGN CHOICE: log 23. -/
def saveImage (g : Grade) (k : MxeSave) : List W8 :=
  let n := mxeSaveBytes g k.ftq.length
  (padTo 0#8 n (Config.saveBytes k)).take n

/-- Where the save area of a context begins: the last save_blk blocks of its partition (R225); none while they are not in core
memory.
DESIGN CHOICE: log 23. -/
def saveArea (s : State) (c : Ctx) : Option Nat :=
  let n := (ctx s c).img.saveBlk
  if n = 0 ∨ partSize s c < n ∨ residentPart s c = false then none else some ((partBase s c + partSize s c - n) * 16384)

/-- Step 3: the MXE state of context x is saved in its save area, or beside it while its partition is not resident, and the sets
are +0 in FP32 again.
DESIGN CHOICE: log 23. -/
def saveMxe (x : Ctx) (s : State) : State :=
  let k := { mxeSaveOf s x with placed := (saveArea s x).isSome }
  let s := match saveArea s x with
    | some a => writeBytes (settleGrans (granulesOf a (mxeSaveBytes s.grade k.ftq.length)) s) a (saveImage s.grade k)
    | none => s
  let s := { s with mxeSaved := SMap.put s.mxeSaved x (some k) }
  modMxe (fun m => { m with
    active := {}, shadow := {}, stripActive := {}, stripShadow := {}
    ftq := m.ftq.filter (fun p => decide (p.2.owner ≠ x.val)), gate := none, owner := none }) s

/-- The state that a save area gives: the one saved there while its bytes are unchanged; one saved beside it is as it was.
DESIGN CHOICE: log 23. -/
def savedOf (s : State) (c : Ctx) (k : MxeSave) : MxeSave :=
  match saveArea s c with
  | none => k
  | some a =>
    let bs := readBytes s a (mxeSaveBytes s.grade k.ftq.length)
    if k.placed = false ∨ bs = saveImage s.grade k then k else Config.loadSaved bs

/-- The MXE holds the saved state of context c: its entries are HELD and its own (R226). -/
def putMxe (c : Ctx) (k : MxeSave) (s : State) : State :=
  let entries := k.ftq.map (fun p => (p.1, { p.2 with st := .held, owner := c.val, freeAt := 0 }))
  modMxe (fun m => { m with
    active := k.active, shadow := k.shadow, stripActive := k.stripActive, stripShadow := k.stripShadow
    ftq := entries.foldl (fun q p => SMap.put q p.1 p.2) m.ftq, owner := some c }) s

/-- Step 5: the saved MXE state of context c is read from its save area and restored.
DESIGN CHOICE: log 23. -/
def restoreMxe (c : Ctx) (s : State) : State :=
  match SMap.get none s.mxeSaved c with
  | none => modMxe (fun m => { m with owner := some c }) s
  | some k =>
    let s := match saveArea s c with
      | some a =>
        let gs := granulesOf a (mxeSaveBytes s.grade k.ftq.length)
        noteReads (settleGrans gs s) gs
      | none => s
    putMxe c (savedOf s c k) { s with mxeSaved := SMap.erase s.mxeSaved c }

/-- The first AC at or after the present EC. -/
def nextAc (s : State) : Nat := (s.ec + 1) / 2

/-- Step 3 of a switch to context i: the AC it takes and the state after.
DEDUCED: log 25. -/
def step3 (i : Ctx) (s : State) : Nat × State :=
  if usesMxe s i = false then (0, s)
  else
    match s.mxe.owner with
    | none => (0, s)
    | some x =>
      if x = i then (0, s)
      else
        let n := saveAc s.grade (ownedFtq s x).length
        (n, saveMxe x (advance (2 * (nextAc s + n)) s))

/-- Step 5. -/
def step5 (i : Ctx) (s : State) : Nat × State :=
  if usesMxe s i = false ∨ s.mxe.owner = some i then (0, s)
  else
    match SMap.get none s.mxeSaved i with
    | none => (0, restoreMxe i s)
    | some k =>
      let n := saveAc s.grade k.ftq.length
      (n, restoreMxe i (advance (2 * (nextAc s + n)) s))

/-- Context i is dispatched: its section begins in this EC (R203, R225).
DEDUCED: log 19. -/
def dispatch (i : Ctx) (s : State) : State :=
  let e := match (ctx s i).point with | .released e => Nat.max e s.ec | _ => s.ec
  beginSection i e (forgetTxb i { s with
    dispatched := some i, lastDisp := some i, dispatchedAt := s.wall, quantumOver := false })

/-- Steps 5 and 6, and the dispatch. -/
def finishSwitch (i : Ctx) (s3 : Nat) (s : State) : State :=
  let r := step5 i s
  let s := advance (2 * (nextAc r.2 + 64)) r.2
  let s := { s with
    switching := false, switchFrom := none, switchTo := none, switchAc := 0, switches := (s.switches + 1) % 2 ^ 32, lastSwitchAc := s3 + r.1 + 64 }
  let s := trace { kind := 7, ctx := s.lastDisp, time := s.ec, argA := i.val } s
  if ready s i then dispatch i s else s

/-! ### The moves of partitions (R180, R181, R227) -/

/-- The external region of a context's spill. -/
def spillExt (s : State) (c : Ctx) : Nat := (ctx s c).spillBlk * 16384

/-- What came of a move of a partition. -/
inductive Moved where
  /-- it has ended -/
  | done
  /-- it waits for room, for a channel or for the parts -/
  | waits
  /-- it has faulted -/
  | faulted
deriving DecidableEq, Repr

/-- The spill of a partition that has begun is over. -/
def endSpill (c : Ctx) (id : Nat) (s : State) : State :=
  { s with
    cm := { s.cm with spilling := s.cm.spilling.filter (fun p => decide (p.1 ≠ c.val)) }
    xfer := { s.xfer with late := s.xfer.late.filter (fun w => decide (w.writer ≠ id)) } }

/-- A partition is written to its spill region, each block sealed, and is no longer resident (R227); the fault of the region
is its context's, with tag 0. Its bytes leave core memory first; until the XMU has accepted the last of them it waits. A granule
with an uncorrectable word, or of a bank that is not ON, goes out as the bytes stored.
DEDUCED: log 24.
DESIGN CHOICE: log 113. -/
def spillPart (c : Ctx) (s : State) : Moved × State :=
  let n := partSize s c * 16384
  let ext := spillExt s c
  match extFault s.xmu ext n, s.cm.spilling.find? (fun p => decide (p.1 = c.val)) with
  | some f, some (_, id) => (.faulted, faultCtx c f.1 3 0 f.2 (endWriter id (endSpill c id s)))
  | some f, none => (.faulted, faultCtx c f.1 3 0 f.2 s)
  | none, none =>
    if inOrder s (ac s) = false then (.waits, s)
    else
      let a := partBase s c * 16384
      let s := reachRead ownOut (granulesOf a n) s
      let id := s.xfer.nextJob
      let s := { s with xfer := { s.xfer with nextJob := id + 1 }, cm := { s.cm with spilling := s.cm.spilling ++ [(c.val, id)] } }
      (.waits, writeLate id id { ctx := some c } ext (readBytes s a n) (noteReads s (granulesOf a n)))
  | none, some (_, id) =>
    let s := flushLate id s
    if lateOf id s then (.waits, s) else (.done, setResident c false (endWriter id (endSpill c id s)))

/-- The blocks of an external range. -/
def blocksOf (ext n : Nat) : List Nat := (List.range (n / 16384)).map (fun i => ext / 16384 + i)

/-- The blocks of a list that a check refuses: the block, the stored and the computed CRC (R294). -/
def badBlocks (x : XmuSt) (bs : List Nat) : List (List Nat) :=
  bs.filterMap (fun b =>
    let e := dirEnt x b
    if e.upset then some [b, e.crc, blockCrc x b]
    else if e.st = .sealed_ ∧ e.crc ≠ blockCrc x b then some [b, e.crc, blockCrc x b] else none)

/-- The blocks of a list that a read does not check are counted, and the entries of it that cannot be read are logged (R292,
R294). -/
def noteBlocks (bs : List Nat) (s : State) : State :=
  let n := (bs.filter (fun b => decide ((dirEnt s.xmu b).st ≠ .sealed_) && !(dirEnt s.xmu b).upset)).length
  let s := (bs.filter (fun b => (dirEnt s.xmu b).upset)).foldl (fun s b => logDirUe b s) s
  modXmu (fun x => { x with unchecked := (x.unchecked + n) % 2 ^ 32 }) s

/-- The mismatches of a restore: each is logged, and the first stops the context (R295). -/
def restoreFaults (c : Ctx) : List (List Nat) → State → State
  | [], s => s
  | d :: ds, s =>
    let s := modXmu (fun x => { x with crcFaults := (x.crcFaults + 1 + ds.length) % 2 ^ 32 }) s
    ds.foldl (fun s d => advise cBLOCK_CRC { ctx := some c } d s) (faultCtx c cBLOCK_CRC 3 0 d s)

/-- Whether the lines of a range can be read with background class: their channels serve, the parts are awake, and the limits
leave room (R305, R306, R311, R315). -/
def canRestore (s : State) (ext n : Nat) : Bool :=
  decide (s.xmu.step ≠ 3) && (blocksOf ext n).all (fun b => chanActive s.xmu (dirEnt s.xmu b).chan) && roomFor s 2 false

/-- A partition is restored from its spill region (R227): its bytes land, and its blocks are checked (R294, R295). One with a
mismatch is not resident.
DEDUCED: log 24. -/
def restorePart (c : Ctx) (s : State) : Moved × State :=
  let n := partSize s c * 16384
  let ext := spillExt s c
  match extFault s.xmu ext n with
  | some f => (.faulted, faultCtx c f.1 3 0 f.2 s)
  | none =>
    if canRestore s ext n = false then (.waits, s)
    else
      let s := meetExt ext n s
      let s := reach ownIn (granulesOf (partBase s c * 16384) n) s
      let bad := badBlocks s.xmu (blocksOf ext n)
      let s := noteBlocks (blocksOf ext n) (addTot tXRD n (writeBytes s (partBase s c * 16384) (extBytes s.xmu ext n)))
      if bad = [] then (.done, setResident c true s) else (.faulted, restoreFaults c bad s)

/-- Spill several partitions, until one does not end. -/
def spillAll : List Ctx → State → Moved × State
  | [], s => (.done, s)
  | c :: cs, s =>
    match spillPart c s with
    | (.done, s) => spillAll cs s
    | r => r

/-- The resident partitions that must go before context i's comes back (R180). -/
def inTheWay (s : State) (i : Ctx) : List Ctx :=
  (List.finRange 8).filter (fun c => decide (c ≠ i) && residentPart s c && partsOverlap s c i)

/-- The switch in progress ends without a dispatch. -/
def endSwitch (s : State) : State := { s with switching := false, switchFrom := none, switchTo := none, switchAc := 0 }

/-- Step 4 of the switch in progress: the partitions move, and the switch ends; a context that faults in it is not
dispatched.
DEDUCED: log 24. -/
def movePartitions (i : Ctx) (s : State) : State :=
  match spillAll (inTheWay s i) s with
  | (.waits, s) => s
  | (.faulted, s) => endSwitch s
  | (.done, s) =>
    match restorePart i s with
    | (.waits, s) => s
    | (.faulted, s) => endSwitch s
    | (.done, s) => finishSwitch i s.switchAc s

/-- An eviction that the host requested (R181): it ends with the spill, or with the fault of it.
DEDUCED: log 24. -/
def evict (s : State) (c : Nat) : State :=
  let ended (s : State) : State := { s with cm := { s.cm with evicting := s.cm.evicting.filter (fun k => decide (k ≠ c)) } }
  if residentPart s c then
    match spillPart (ctxOf c) s with
    | (.waits, s) => s
    | (_, s) => ended s
  else ended s

/-- The evictions that the host requested. -/
def evictAll (s : State) : State := s.cm.evicting.foldl evict s

/-- PARTITION_SPILL (R227): an eviction, or step 4 of a switch. -/
def execPartitionSpill (s : State) : Out :=
  if s.cm.evicting ≠ [] then .next (evictAll s)
  else
    match s.switchFrom, s.switchTo with
    | none, some i => .next (movePartitions i s)
    | _, _ => .next s

/-- CMEM_PART_EVICT (R181): bit by bit, lowest context first. -/
def partEvict (mask : Nat) (s : State) : State :=
  (List.finRange 8).foldl (fun s c =>
    if bit mask c.val = false then s
    else
      let x := ctx s c
      if x.cstate = .running ∨ x.stopping = true ∨ drained s c = false ∨ s.switching = true ∨ s.rsl.snap.phase ≠ 0 ∨ s.rsl.fill.st = 1 then
        { s with cm := { s.cm with evictRefused := true } }
      else if residentPart s c then { s with cm := { s.cm with evicting := insertNew c.val s.cm.evicting } }
      else s) s

/-- CMEM_PART_EVICT. -/
def execCmemPartEvict (mask : W8) (s : State) : Out := afterBoot s (.next (partEvict mask.toNat s))

/-! ### The switch (R224, R225) -/

/-- Whether a context has nothing in an engine any more (step 2). -/
def leftEngines (s : State) (c : Ctx) : Bool := decide (queuedOf s c = []) && !runsOf s c

/-- The dispatched context gives way: its gated STREAM is withdrawn and issues again when it is next dispatched (R81); the context
is ready from the withdrawal on.
DESIGN CHOICE: log 20. -/
def giveWay (d : Ctx) (s : State) : State :=
  if (ctx s d).point = .gated then modCtx (stepBack d (withdrawGated d s)) d (fun x => { x with point := .released s.ec })
  else s

/-- The switch in progress goes on: once the context that it leaves has left the engines, steps 3 to 6; where partitions move,
step 4 is PARTITION_SPILL's (R225). -/
def continueSwitch (s : State) : State :=
  match s.switchFrom, s.switchTo with
  | some d, some i =>
    if leftEngines s d = false then s
    else
      let r := step3 i { s with dispatched := none, switchFrom := none }
      if partSize r.2 i = 0 ∨ residentPart r.2 i = true then finishSwitch i r.1 r.2
      else { r.2 with switchAc := r.1 }
  | _, _ => s

/-- A switch from d to i begins: d issues nothing more (R225). -/
def switchTo_ (d i : Ctx) (s : State) : State :=
  continueSwitch { giveWay d s with switching := true, switchFrom := some d, switchTo := some i }

/-- Whether the escapement leaves the dispatched context for a ready one (R224). -/
def leaves (s : State) (d : Ctx) : Bool :=
  let x := ctx s d
  if x.stopping then false
  else
    match x.point with
    | .inSection => false
    | .released _ => mustYield s d
    | .releasing _ => outHeld s d
    | _ => true

/-- The last context dispatched, or the first of all where none has been. -/
def lastOr (s : State) (i : Ctx) : Ctx := s.lastDisp.getD i

/-- CONTEXT_SWITCH (R224, R225). With no context dispatched, the ready context of highest priority is dispatched: at once if
it was the last one or the first ever and its partition and MXE state are in place, by a switch from the last one
otherwise. -/
def execContextSwitch (s : State) : Out :=
  if s.isolated then .next s
  else if s.switching then .next (continueSwitch s)
  else
    match s.dispatched with
    | some d =>
      match bestReady s (some d) with
      | some i => if leaves s d then .next (switchTo_ d i s) else .next s
      | none => .next s
    | none =>
      match (bestReady s s.lastDisp).orElse (fun _ => s.lastDisp.filter (fun c => ready s c)) with
      | none => .next s
      | some i0 =>
        let i : Ctx := match s.lastDisp with
          | some l => if ready s l && decide ((ctx s i0).prio < (ctx s l).prio) then l else i0
          | none => i0
        let settledPart := decide (partSize s i = 0) || residentPart s i
        let settledMxe := !usesMxe s i || decide (s.mxe.owner = some i) || decide (s.mxe.owner = none)
        if lastOr s i = i ∧ settledPart = true ∧ settledMxe = true then .next (dispatch i (step5 i s).2)
        else .next (switchTo_ (lastOr s i) i s)

end Sys2Proof.Machine
end

