-- ==== Sys2Proof/Machine/Rsl.lean ====
section
/-!
DEFINITION. Health monitor, snapshot and fill, isolation (chapter 16).
-/
namespace Sys2Proof.Machine

/-- Change the RSL block. -/
def modHealth (f : HealthSt → HealthSt) (s : State) : State := { s with rsl := { s.rsl with health := f s.rsl.health } }
def modSnap (f : SnapSt → SnapSt) (s : State) : State := { s with rsl := { s.rsl with snap := f s.rsl.snap } }
def modFill (f : FillSt → FillSt) (s : State) : State := { s with rsl := { s.rsl with fill := f s.rsl.fill } }

/-- Ticks of wall time in a millisecond and a second. -/
def msTicks : Nat := 1000 * usTicks
def secTicks : Nat := 1000 * msTicks

/-! ### The health monitor (R353, R354) -/

/-- Seconds since the last completed snapshot, or since reset. -/
def sinceSnap (s : State) : Nat := (s.wall - s.rsl.health.lastAt) / secTicks

/-- Whether the floor between advisories has passed. -/
def floorPassed (s : State) : Bool := decide (s.rsl.health.lastAt + s.rsl.health.minS * secTicks ≤ s.wall)

/-- Whether the maximum interval has passed. -/
def intervalPassed (s : State) : Bool :=
  decide (s.rsl.health.maxS ≠ 0) && decide (s.rsl.health.lastAt + s.rsl.health.maxS * secTicks ≤ s.wall)

/-- SNAPSHOT_ADVISED is raised, or held: for the floor, and during a stop until it ends (R354, R357). Once raised it is not raised
again until a snapshot completes. -/
def adviseSnap (reason : Nat) (s : State) : State :=
  if s.rsl.health.advised then s
  else if 2 ≤ s.rsl.snap.phase then modHealth (fun h => { h with stopHeld := h.stopHeld.orElse (fun _ => some reason) }) s
  else if floorPassed s then
    advise cADVISED {} [s.rsl.health.risk, reason, sinceSnap s]
      (modHealth (fun h => { h with advised := true, pending := false }) s)
  else modHealth (fun h => { h with pending := true }) s

/-- A held event whose reason still holds is raised; one whose reason has gone is dropped (R354). -/
def retryAdvise (s : State) : State :=
  if s.rsl.health.pending = false then s
  else if s.rsl.health.thresh ≤ s.rsl.health.risk then adviseSnap 0 s
  else if intervalPassed s then adviseSnap 1 s
  else modHealth (fun h => { h with pending := false }) s

/-- At the end of a stop the event that was raised in it is held no more (R357): for its floor it is held still (R354). -/
def adviseHeld (s : State) : State :=
  match s.rsl.health.stopHeld with
  | none => s
  | some r => adviseSnap r (modHealth (fun h => { h with stopHeld := none }) s)

/-- The sums of the counts that the monitor samples. -/
def sumCmem (s : State) : Nat := (s.banks.map (fun p => p.2.ce)).sum % 2 ^ 16
def sumXmu (s : State) : Nat := (s.xmu.chans.map (fun p => p.2.retries + p.2.ce)).sum % 2 ^ 16
def sumLnk (s : State) : Nat := (s.lnk.ports.map (fun p => p.2.resends + p.2.crcBad)).sum % 2 ^ 16

/-- How far a wrapping sum has moved. -/
def moved (now last : Nat) : Nat := (now + 2 ^ 16 - last) % 2 ^ 16

/-- A product of the monitor, saturating (R353). -/
def satMul (a b : Nat) : Nat := Nat.min (a * b) 65535

/-- The die margin (R378). -/
def dieMargin (p : PwrSt) : Nat := p.trip - p.dieTemp

/-- The margin of R353, in °C. -/
def margin (s : State) : Int := min ((s.xmu.crit : Int) - s.xmu.temp) (dieMargin s.pwr)

/-- The risk estimate after a sample (R353).
DEDUCED: log 82. -/
def nextRisk (s : State) : Nat :=
  let h := s.rsl.health
  let r := h.risk - h.risk / 2 ^ Nat.max 1 h.decay
  let r := r + satMul h.wCmem (moved (sumCmem s) h.cmem) + satMul h.wXmu (moved (sumXmu s) h.xmu)
    + satMul h.wLnk (moved (sumLnk s) h.lnk)
    + satMul h.wDroop (moved (s.pwr.episodes % 2 ^ 16) h.droop + (if s.pwr.persist then 64 else 0))
  let r := if margin s < h.marginRef then r + satMul h.wTherm ((h.marginRef : Int) - margin s).toNat else r
  Nat.min r 65535

/-- HEALTH_SAMPLE: at the next whole millisecond of wall time (R353, R354).
DEDUCED: log 82. -/
def execHealthSample (s : State) : Out :=
  afterBoot s <|
  let s := advanceWall ((s.wall / msTicks + 1) * msTicks) s
  let r := nextRisk s
  let s := modHealth (fun h => { h with
    risk := r, cmem := sumCmem s, xmu := sumXmu s, lnk := sumLnk s, droop := s.pwr.episodes % 2 ^ 16 }) s
  .next (if s.rsl.health.thresh ≤ r then adviseSnap 0 s else s)

/-- SNAPSHOT_FLOOR_EXPIRY (R354). -/
def execSnapshotFloorExpiry (s : State) : Out :=
  afterBoot s <|
  .next (retryAdvise (advanceWall (s.rsl.health.lastAt + s.rsl.health.minS * secTicks) s))

/-- SNAPSHOT_INTERVAL_EXPIRY (R354). -/
def execSnapshotIntervalExpiry (s : State) : Out :=
  afterBoot s <|
  if s.rsl.health.maxS = 0 then .next s
  else .next (adviseSnap 1 (advanceWall (s.rsl.health.lastAt + s.rsl.health.maxS * secTicks) s))

/-! ### Snapshot: quiesce (R355, R356) -/

/-- A SNAPSHOT starts: every RUNNING context is asked to quiesce (R356); those that host software has asked already stay paused
after it (R361). -/
def startSnapshot (r : HostRef) (mask : Nat) (full : Bool) (store : Nat) (s : State) : State :=
  let cs := (List.finRange 8).filter (fun (c : Ctx) => running s c && !(ctx s c).stopping)
  let own := cs.filter (fun (c : Ctx) => !(ctx s c).quiesceReq && decide ((ctx s c).point ≠ .pausing))
  let s := modSnap (fun n => { n with
    phase := 1, host := some r, mask := mask, full := full, store := store, paused := own.map (fun (c : Ctx) => c.val)
    due := s.wall + Nat.max 1 n.quiesceMs * msTicks }) s
  cs.foldl (fun s c => requestQuiesce c s) s

/-- A context has come to rest (R356). -/
def atRest (s : State) (c : Ctx) : Bool :=
  decide ((ctx s c).cstate ≠ .running) && !(ctx s c).stopping && drained s c

/-- The SNAPSHOT descriptor completes. -/
def endSnapHost (status bytes : Nat) (s : State) : State :=
  match s.rsl.snap.host with
  | some r => complete r status 0 0 0 bytes (ringDone r s)
  | none => s

/-- The contexts that the snapshot paused go on (R356, R361). A request that has not taken effect is withdrawn, and a context that
has met it and still waits for its commands goes on from its untimed point. -/
def resumePaused (s : State) : State :=
  s.rsl.snap.paused.foldl (fun s n =>
    let c := ctxOf n
    let s := modCtx s c (fun x => { x with
      quiesceReq := false, point := if x.cstate = .running ∧ x.point = .pausing then .releasing (ac s) else x.point })
    resumeCtx c s) s

/-- SNAP_QUIESCE_TIMEOUT (R356). -/
def execSnapQuiesceTimeout (s : State) : Out :=
  if s.rsl.snap.phase ≠ 1 then .next s
  else
    let s := advanceWall s.rsl.snap.due s
    let late := ((List.finRange 8).filter (fun (c : Ctx) => !atRest s c)).foldl (fun m c => m + 2 ^ c.val) 0
    let s := endSnapHost cSNAP_QUIESCE 0 (advise cSNAP_QUIESCE {} [late] s)
    let s := resumePaused s
    .next (modSnap (fun n => { n with phase := 0, host := none, paused := [], lastStatus := cSNAP_QUIESCE }) s)

/-! ### Snapshot: freeze (R357, R358, R360) -/

/-- The on-chip state that a freeze record holds (R358). -/
def freezeOf (s : State) : Frozen :=
  { ctxs := s.ctxs.map (fun p => (p.1, seeLate (2 * ac s + 2) p.2)), stash := s.stash, sct := s.sct, count := s.syn.count, ovf := s.syn.ovf, unf := s.syn.unf
    hoists := s.syn.hoists, child := s.syn.child, active := s.cm.active, staged := s.cm.staged
    partBase := s.cm.partBase, partSize := s.cm.partSize, resident := s.cm.resident
    mxeOwner := s.cm.mxeOwner, mxeValid := s.cm.mxeValid, vxeOwner := s.cm.vxeOwner, vxeValid := s.cm.vxeValid, hier := s.cm.hier
    mxe := s.mxe.owner.map (fun (c : Ctx) => (c.val, mxeSaveOf s c)), saved := s.mxeSaved }

/-- The 8 bytes of a directory entry (R289). -/
def dirBytes (e : DirEnt) : List W8 :=
  leBytes 8 (e.crc % 2 ^ 32 + (match e.st with | .unsealed => 0 | .sealed_ => 1 | .retired => 2) * 2 ^ 32
    + b2n e.exempt * 2 ^ 34 + b2n e.dirty * 2 ^ 35 + e.chan % 4 * 2 ^ 36 + e.blk % 2 ^ 17 * 2 ^ 38)

/-- The entry that 8 bytes of a directory copy give. -/
def dirOfBytes (bs : List W8) : DirEnt :=
  let w := ofLE bs
  { crc := bits w 31 0
    st := match bits w 33 32 with | 1 => .sealed_ | 2 => .retired | _ => .unsealed
    exempt := bit w 34, dirty := bit w 35, chan := bits w 37 36, blk := bits w 54 38 }

/-- Bytes brought to a length: cut, or padded with zero. -/
def sized (n : Nat) (bs : List W8) : List W8 := (padTo 0#8 n bs).take n

/-- Control and MXE state of a freeze record: 256 KiB, then 2,816 KiB (R358).
DESIGN CHOICE: log 83. -/
def stateBytes (f : Frozen) : List W8 := sized 262144 (Config.controlBytes f) ++ sized 2883584 (Config.mxeBytes f.mxe)

/-- What 3 MiB of a freeze record hold: what the core froze, if they are its own.
DESIGN CHOICE: log 83. -/
def thawed (made : List Frozen) (bs : List W8) : Frozen :=
  (made.find? (fun f => decide (stateBytes f = bs))).getD (Config.thaw bs)

/-- The freeze record: 3 MiB of control and MXE state, then the copy of the directory in block order (R358). -/
def freezeRecord (s : State) : List W8 :=
  stateBytes (freezeOf s)
    ++ (List.range 524288).flatMap (fun b => dirBytes (dirEnt s.xmu b))

/-- The blocks of the block segment (R360). -/
def snapBlocks (s : State) : List Nat :=
  let n := s.rsl.snap
  (List.range (installed s.xmu)).filter (fun b =>
    let e := dirEnt s.xmu b
    decide (e.st ≠ .retired) && !e.exempt && (n.full || e.dirty)
      && !(decide (n.freezeBlk ≤ b) && decide (b < n.freezeBlk + 448)))

/-- The contexts that a mask includes. -/
def inMask (mask : Nat) : List Ctx := (List.finRange 8).filter (fun (c : Ctx) => bit mask c.val)

/-- Rounded up to a multiple of 4,096. -/
def pad4k (n : Nat) : Nat := ceilDiv n 4096 * 4096

/-- The bytes of the images segment before its padding (R359). -/
def imageLen (x : CtxSt) : Nat := if x.imageValid then x.codeSize * 40 + x.affSize * 128 else 0
def imagesLen (ctxs : SMap CtxSt) (mask : Nat) : Nat := ((inMask mask).map (fun (c : Ctx) => imageLen (SMap.get {} ctxs c))).sum

/-- Whether a frozen partition is resident (R180). -/
def Frozen.residentPart (f : Frozen) (c : Nat) : Bool := decide (c ∈ f.resident) && decide (0 < SMap.get 0 f.partSize c)

/-- The ranges of the partitions segment of a frozen state, in order (R359). -/
def partRanges (f : Frozen) (mask : Nat) : List Range :=
  (inMask mask).flatMap (fun (c : Ctx) =>
    (if f.residentPart c then [(SMap.get 0 f.partBase c * 16384, SMap.get 0 f.partSize c * 16384)] else [])
    ++ (if f.mxeValid && decide (f.mxeOwner = c.val) then [(mxeBufBase, if f.hier then 262144 else 2097152)] else [])
    ++ (if f.vxeValid && decide (f.vxeOwner = c.val) then [(vxeBufBase, if f.hier then 65536 else 262144)] else []))

/-- The bytes of several ranges. -/
def rangesLen (rs : List Range) : Nat := (rs.map Prod.snd).sum

/-- The resident bits of the header. -/
def residentMask (s : State) (mask : Nat) : Nat :=
  ((inMask mask).filter (fun (c : Ctx) => residentPart s c)).foldl (fun m c => m + 2 ^ c.val) 0

/-- The stream header (R359). -/
def snapHeader (s : State) (blocks : List Nat) (total img : Nat) : List Nat :=
  let n := s.rsl.snap
  let ws := [1 + s.grade.code * 2 ^ 16 + sizeTable s.grade 1 % 256 * 2 ^ 24,
    mapSig s.cm.active + n.mask % 256 * 2 ^ 16 + residentMask s n.mask * 2 ^ 24,
    s.pos % 2 ^ 22 + b2n n.full * 2 ^ 22,
    (n.seq + 1) % 2 ^ 32,
    if n.full then 0 else n.seq,
    blocks.length, total % 2 ^ 32, total / 2 ^ 32, img]
  let ws := padTo 0 1024 ws
  ws.set 1023 (crc32c (bytesOfWords ws))

/-- Whether nothing of the first freeze step is left to wait for, no partition moves, and the record finds room (R302, R357). -/
def freezeReady (s : State) : Bool :=
  decide (s.cm.evicting = []) && !s.switching && decide ((port s 0).heldIn = []) && decide ((port s 1).heldIn = []) && decide (s.xfer.arrivals = [])
    && decide (s.xfer.late = []) && decide (s.xmu.copies = []) && !s.xfer.jobs.any (fun j => decide (j.kind = .linkIn) || decide (j.kind = .serve) || decide (j.kind = .copy) || decide (j.out ≠ []))
    && decide ((drainAll s).xmu.wcb = []) && roomForLines s.xmu [(s.rsl.snap.freezeBlk * 16384, 7340032)]

/-- Freeze: the write-combining buffer drains, the state and the directory are copied, the freeze record is written as one
writer, and the stream is laid out (R357–R360). -/
def freeze (s : State) : State :=
  let s := drainAll s
  let n := s.rsl.snap
  let blocks := snapBlocks s
  let img := pad4k (imagesLen s.ctxs n.mask)
  let total := 4096 + 7340032 + img + pad4k (4 * blocks.length) + rangesLen (partRanges (freezeOf s) n.mask) + 16384 * blocks.length
  let hdr := snapHeader s blocks total img
  let dir := s.xmu.dir
  let frozen := freezeOf s
  let id := s.xfer.nextJob
  let rec_ := freezeRecord s
  let s := { s with xfer := { s.xfer with nextJob := id + 1 }, rsl := { s.rsl with made := frozen :: s.rsl.made } }
  let s := endWriter id (acceptBytes id {} (n.freezeBlk * 16384) rec_ s)
  modSnap (fun n => { n with
    phase := 3, frozen := frozen, dir := dir, blocks := blocks, header := hdr, total := total, sent := 0, acked := 0
    mib := ceilDiv total 1048576 % 2 ^ 16 }) s

/-- The ports withhold REQ credits, or return them again and handle what has come in meanwhile (R337). -/
def setFrozen (on : Bool) (s : State) : State :=
  let f (p : Nat) (s : State) : State := modPort p (fun q => { q with frozen := on }) (returnCredits p .req s)
  let s := f 1 (f 0 s)
  if on then s else pumpAll s

/-! ### Snapshot: close (R361, R362) -/

/-- The stop ends: contexts and credits resume, and a held advisory is due (R357, R361). -/
def closeSnap (status bytes : Nat) (s : State) : State :=
  let s := endSnapHost status bytes s
  let s := modSnap (fun n => { n with
    phase := 0, host := none, lastStatus := status, stopUs := (s.wall - n.stopAt) / usTicks % 2 ^ 32, blocks := [], header := [] }) s
  let s := setFrozen false (resumePaused s)
  adviseHeld (modSnap (fun n => { n with paused := [] }) s)

/-- The stream is complete (R361): the dirty bits of its blocks, its number, its record, and the advisory armed anew. -/
def snapDone (s : State) : State :=
  let n := s.rsl.snap
  let s := modXmu (fun x => n.blocks.foldl (fun x b => modDir b (fun e => { e with dirty := false }) x) x) s
  let s := modSnap (fun n => { n with seq := (n.seq + 1) % 2 ^ 32 }) s
  let s := modHealth (fun h => { h with advised := false, lastAt := s.wall }) s
  closeSnap 0 n.total s

/-- The stream ends without being complete (R362). -/
def snapFail (s : State) : State :=
  let n := s.rsl.snap
  let s := modPort n.port (fun q => { q with outS := [] }) s
  closeSnap cSNAP_STREAM n.acked (advise cSNAP_STREAM {} [n.acked % 2 ^ 32, n.acked / 2 ^ 32] s)

/-- SNAPSHOT_QUIESCE_END: every context is at rest and every COPY has completed; the stop begins with the first freeze step,
and the freeze follows once that has nothing left to wait for (R356, R357). A freeze region that does not exist ends the
snapshot. -/
def execSnapshotQuiesceEnd (s : State) : Out :=
  let n := s.rsl.snap
  if n.phase = 1 ∧ (List.finRange 8).all (atRest s) = true
      ∧ s.xfer.jobs.all (fun j => decide (j.kind ≠ .copy)) = true
      ∧ s.hst.rings.all (fun r => r.2.busy.all (fun b => decide (b.kind ≠ 3))) = true then
    let s := modSnap (fun n => { n with phase := 2, stopAt := s.wall }) (setFrozen true s)
    match extFault s.xmu (n.freezeBlk * 16384) 7340032 with
    | some f => .next (closeSnap f.1 0 (advise f.1 {} f.2 s))
    | none => .next (if freezeReady s then freeze s else s)
  else if n.phase = 2 ∧ freezeReady s = true then .next (freeze s)
  else .next s

/-! ### Snapshot: stream (R359, R361) -/

/-- Byte k of several ranges of core memory laid end to end. -/
def rangeByte (s : State) : List Range → Nat → W8
  | [], _ => 0#8
  | r :: rs, k => if k < r.2 then readByte s (r.1 + k) else rangeByte s rs (k - r.2)

/-- The bytes of a context's image in the stores (R359). -/
def imageBytes (s : State) (x : CtxSt) : List W8 :=
  (List.range x.codeSize).flatMap (fun i =>
    let sl := SMap.get default s.code (x.codeBase + i)
    bytesOfWords (slotWords sl) ++ leBytes 8 sl.irec.toNat)
  ++ (List.range x.affSize).flatMap (fun i => bytesOfWords (padTo 0 32 (SMap.get [] s.aff (x.affBase + i))))

/-- Where the index, the partitions and the blocks of the stream in progress begin (R359). -/
def idxAt (n : SnapSt) : Nat := 4096 + 7340032 + pad4k (imagesLen n.frozen.ctxs n.mask)
def prtAt (n : SnapSt) : Nat := idxAt n + pad4k (4 * n.blocks.length)
def blkAt (n : SnapSt) : Nat := prtAt n + rangesLen (partRanges n.frozen n.mask)

/-- Byte k of the stream in progress: its layout is that of the freeze (R359). -/
def streamByte (s : State) (k : Nat) : W8 :=
  let n := s.rsl.snap
  let idx := idxAt n
  let prt := prtAt n
  let rs := partRanges n.frozen n.mask
  let blk := blkAt n
  if k < 4096 then BitVec.ofNat 8 (n.header.getD (k / 4) 0 / 256 ^ (k % 4))
  else if k < 4096 + 7340032 then extByte s.xmu (n.freezeBlk * 16384 + (k - 4096))
  else if k < idx then
    (((inMask n.mask).filter (fun (c : Ctx) => (SMap.get {} n.frozen.ctxs c).imageValid)).flatMap
      (fun (c : Ctx) => imageBytes s (SMap.get {} n.frozen.ctxs c))).getD (k - 4096 - 7340032) 0#8
  else if k < prt then BitVec.ofNat 8 (n.blocks.getD ((k - idx) / 4) 0 / 256 ^ ((k - idx) % 4))
  else if k < blk then rangeByte s rs (k - prt)
  else extByte s.xmu (n.blocks.getD ((k - blk) / 16384) 0 * 16384 + (k - blk) % 16384)

/-- Whether the parts can be read for the next n bytes of the stream: the freeze record and the blocks come from them (R311,
R316, R417). -/
def snapAwake (s : State) (n : Nat) : Bool :=
  let k := s.rsl.snap
  let hi := k.sent + n
  let a := Nat.max k.sent 4096
  let b := Nat.min hi 7344128
  let c := Nat.max k.sent (blkAt k) - blkAt k
  (decide (b ≤ a) || extAwake s.xmu (k.freezeBlk * 16384 + (a - 4096)) (b - a))
    && (decide (hi ≤ blkAt k + c) || (List.range ((hi - 1 - blkAt k) / 16384 - c / 16384 + 1)).all (fun i =>
      extAwake s.xmu (k.blocks.getD (c / 16384 + i) 0 * 16384) 16384))

/-- The next SNAP_DATA packet of the stream and its bytes; at most 256 await their SNAP_ACK (R357, R361). -/
def nextSnapData (s : State) (p : Nat) : Option (Packet × Nat) :=
  let n := s.rsl.snap
  let off := (bits n.store 33 0 + n.sent) % 2 ^ 34
  let len := Nat.min (4096 - off % 4096) (n.total - n.sent)
  if n.phase ≠ 3 ∨ n.port ≠ p ∨ n.total ≤ n.sent ∨ 256 ≤ (port s p).outS.length ∨ snapAwake s len = false then none
  else
    let dst := bits n.store 57 44 + bits n.store 43 36 * 2 ^ 14
    some (mkPacket { kind := 5, prio := 1, off := off, space := 2, dst := redirect s dst, src := s.pos, srcPort := p
                     tail := decide (n.sent + len = n.total), seq := (port s p).seq, length := len }
      ((List.range len).map (fun i => streamByte s (n.sent + i))), len)

/-- The address at byte k of several ranges laid end to end. -/
def rangeAddr : List Range → Nat → Nat
  | [], _ => 0
  | r :: rs, k => if k < r.2 then r.1 + k else rangeAddr rs (k - r.2)

/-- The granules of core memory that the next n bytes of the stream are read from (R359). -/
def snapGrans (s : State) (n : Nat) : List Nat :=
  let k := s.rsl.snap
  let lo := Nat.max k.sent (prtAt k)
  let hi := Nat.min (k.sent + n) (blkAt k)
  (List.range ((hi - lo + 63) / 64)).map (fun i => rangeAddr (partRanges k.frozen k.mask) ((lo - prtAt k) / 64 * 64 + 64 * i))

/-- Of the next n bytes of the stream, those read from the parts (R385): the freeze record and the blocks. -/
def snapExtBytes (s : State) (n : Nat) : Nat :=
  let k := s.rsl.snap
  (Nat.min (k.sent + n) 7344128 - Nat.max k.sent 4096) + (k.sent + n - Nat.max k.sent (blkAt k))

/-- A SNAP_DATA packet has been sent: what it carries has been read (R189, R385). -/
def noteSnapSent (p : Nat) (pkt : Packet) (n : Nat) (s : State) : State :=
  let s := addTot tXRD (snapExtBytes s n) (noteReads s (snapGrans s n))
  let s := modPort p (fun q => { q with outS := q.outS ++ [⟨pkt, 0, 1, s.wall, false⟩], seq := (q.seq + 1) % 2 ^ 16 }) s
  modSnap (fun k => { k with sent := k.sent + n }) s

/-- A SNAP_ACK has been accepted (R329, R361, R362). -/
def handleSnapAck (p : Nat) (r : Packet) (s : State) : State :=
  match takeOut (port s r.srcPort).outS r.seq with
  | none => linkUnknown p r s
  | some o =>
    let p := r.srcPort
    let s := countRefusal p r.status s
    if r.status = 0 then
      let s := modSnap (fun n => { n with acked := n.acked + o.pkt.data.length })
        (modPort p (fun q => { q with outS := q.outS.erase o }) s)
      if s.rsl.snap.phase = 3 ∧ s.rsl.snap.total ≤ s.rsl.snap.acked then snapDone s else s
    else if r.status = 1 ∧ o.sends < 4 then
      modPort p (fun q => { q with outS := q.outS.map (fun x => if x = o then { x with due := true } else x) }) s
    else snapFail s

/-! ### Fill (R363–R367) -/

/-- An abort of a fill with a reason (R364): what the core's state then holds is open. -/
def abortFill (reason : Nat) (s : State) : State :=
  let (k, s) := takeFree 1 s
  let f := Config.abortedState k
  let s := s.rsl.fill.late.foldl (fun s x => giveBack x.2.2.1 x.2.2.2 s) s
  let s := advise cFILL_ABORTED {} [reason] (modFill (fun n => { n with
    st := 3, reason := reason, pre := [], last := [], late := [], finishing := false }) s)
  { s with
    ctxs := f.ctxs, stash := f.stash, sct := f.sct
    code := (Config.abortedStores k).1, aff := (Config.abortedStores k).2
    syn := { s.syn with count := f.count, ovf := f.ovf, unf := f.unf, hoists := f.hoists, child := f.child, waits := [] }
    cm := { s.cm with
      active := f.active, staged := f.staged, partBase := f.partBase, partSize := f.partSize, resident := f.resident
      mxeOwner := f.mxeOwner, mxeValid := f.mxeValid, vxeOwner := f.vxeOwner, vxeValid := f.vxeValid }
    mxe := Config.abortedMxe k, mxeSaved := f.saved
    mem := putBytes [] 0 ((Config.abortedMem k).take (bankBytes s))
    xmu := { s.xmu with ext := [], gen := k + 1, wcb := [], sealing := [], dir := Config.abortedDir k } }

/-- Whether a fill may start (R363). -/
def fillAllowed (s : State) : Bool :=
  (List.finRange 8).all (fun (c : Ctx) => decide ((ctx s c).cstate ≠ .running) && !(ctx s c).stopping)
    && decide (s.rsl.snap.phase = 0)
    && (List.range s.grade.banks).all (fun b => decide ((bank s b).pw = .on))

/-- A write of start (R363): refused as BUSY, or a fill begins. A start during a fill is refused too. -/
def fillStart (s : State) : State :=
  if s.rsl.fill.st = 1 ∨ fillAllowed s = false then modFill (fun n => { n with reason := 7 }) s
  else modFill (fun n => { n with
    st := 1, reason := 0, off := 0, lastAt := s.wall, pre := [], last := [], streams := 0, seq := 0, finishing := false }) s

/-- FILL_START. -/
def execFillStart (s : State) : Out := afterBoot s (.next (fillStart s))

/-- FILL_ABORT (R364): reason HOST. -/
def fillAbort (s : State) : State := if s.rsl.fill.st = 1 then abortFill 6 s else s
/-- FILL_ABORT. -/
def execFillAbort (s : State) : Out := afterBoot s (.next (fillAbort s))

/-- FILL_TIMEOUT (R363): reason STREAM. -/
def execFillTimeout (s : State) : Out :=
  if s.rsl.fill.st ≠ 1 ∨ s.rsl.fill.finishing = true then .next s
  else .next (abortFill 5 (advanceWall (s.rsl.fill.lastAt + Nat.max 1 s.rsl.fill.timeoutMs * msTicks) s))

/-- Word i of a stream header. -/
def hdrWord (pre : List W8) (i : Nat) : Nat := ofLE (slice (4 * i) 4 pre)
/-- The blocks, the images' bytes and the length of a stream. -/
def hdrBlocks (pre : List W8) : Nat := bits (hdrWord pre 5) 19 0
def hdrImages (pre : List W8) : Nat := hdrWord pre 8
def hdrTotal (pre : List W8) : Nat := hdrWord pre 6 + hdrWord pre 7 * 2 ^ 32

/-- Why a stream's header is refused (R364): 5 STREAM, 1 GRADE, 2 POSITION, 3 CHAIN. -/
def headerReason (s : State) (pre : List W8) : Option Nat :=
  let ws := (List.range 1024).map (hdrWord pre)
  if crc32c (bytesOfWords (ws.set 1023 0)) ≠ ws.getD 1023 0 then some 5
  else if bits (hdrWord pre 0) 23 16 < s.grade.code then some 1
  else if bits (hdrWord pre 2) 21 0 ≠ s.pos % 2 ^ 22 then some 2
  else if (if s.rsl.fill.streams = 0 then !bit (hdrWord pre 2) 22 else decide (hdrWord pre 4 ≠ s.rsl.fill.seq)) then some 3
  else none

/-- The bytes of a stream before its block segment, once its header is known. -/
def preLen (pre : List W8) : Nat := hdrTotal pre - 16384 * hdrBlocks pre

/-- Block i of a stream's index. -/
def idxBlock (pre : List W8) (i : Nat) : Nat := ofLE (slice (4096 + 7340032 + hdrImages pre + 4 * i) 4 pre)

/-- Bytes of the block segment from its byte o on go on their way into external memory, block by block; the answer says whether
none of the blocks was RETIRED (R364). -/
def fillBlocks (pre : List W8) : (fuel o : Nat) → List W8 → State → State × Bool
  | 0, _, _, s => (s, true)
  | _, _, [], s => (s, true)
  | fuel + 1, o, bs, s =>
    let b := idxBlock pre (o / 16384)
    let n := 16384 - o % 16384
    if retired s.xmu b then (s, false)
    else fillBlocks pre fuel (o + n) (bs.drop n) 
      (modFill (fun f => { f with late := f.late ++ [(b * 16384 + o % 16384, bs.take n, .none, 0)] }) s)

/-- The last bytes that wait keep the place of their packet in the port's buffer; where none wait, it is free at once. -/
def holdFill (hold : Hold) (flits : Nat) (s : State) : State :=
  match s.rsl.fill.late.reverse with
  | [] => giveBack hold flits s
  | x :: l => modFill (fun f => { f with late := (l.reverse ++ [(x.1, x.2.1, hold, flits)]) }) s

/-- Bytes of the stream in progress come in, `toPre` of them before its block segment (R363, R364). -/
def fillOn (hold : Hold) (flits toPre : Nat) (bs : List W8) (s : State) : State :=
  let f := s.rsl.fill
  let pre := f.pre ++ bs.take toPre
  let r := fillBlocks pre (bs.length + 1) (f.off + toPre - preLen pre) (bs.drop toPre)
    (modFill (fun n => { n with pre := pre, off := n.off + bs.length }) s)
  let s := if toPre < bs.length then holdFill hold flits r.1 else giveBack hold flits r.1
  let s := flushFill s.rsl.fill.late.length s
  if r.2 = false then abortFill 4 s
  else if hdrTotal pre ≤ f.off + bs.length then
    modFill (fun n => { n with streams := (n.streams + 1) % 2 ^ 16, seq := hdrWord pre 3, last := pre, pre := [], off := 0 }) s
  else s

/-- The bytes of a SNAP_DATA packet of the stream in progress (R363, R364). -/
def fillBytes (hold : Hold) (flits : Nat) (bs : List W8) (s : State) : State :=
  let f := s.rsl.fill
  let total := f.pre ++ bs
  if total.length < 4096 then giveBack hold flits (modFill (fun n => { n with pre := total, off := n.off + bs.length }) s)
  else
    match (if f.pre.length < 4096 then headerReason s total else none) with
    | some r => abortFill r (giveBack hold flits s)
    | none => fillOn hold flits (Nat.min bs.length (preLen total - f.pre.length)) bs s

/-- A SNAP_DATA has been accepted (R336, R363): outside a fill, or from another position than the store's, it is discarded. -/
def handleSnapData (p : Nat) (r : Packet) (hold : Hold) (s : State) : State :=
  let f := s.rsl.fill
  if f.st ≠ 1 ∨ r.src ≠ f.srcChip + f.srcCore * 2 ^ 14 then
    giveBack hold r.flits (respond p r 6 6 [] (advise cSNAP_UNEXP {} [p] s))
  else
    let s := modFill (fun n => { n with lastAt := s.wall }) (respond p r 6 0 [] s)
    if r.off ≠ f.off then abortFill 5 (giveBack hold r.flits s) else fillBytes hold r.flits r.data s

/-! ### Finish (R365–R367) -/

/-- Byte b of the directory copy of a stream. -/
def copyEntry (pre : List W8) (b : Nat) : DirEnt := dirOfBytes (slice (4096 + 3145728 + 8 * b) 8 pre)

/-- The directory entry of block b after a fill; none where it aborts (R365). -/
def filledEntry (s : State) (pre : List W8) (b : Nat) : Option DirEnt :=
  let t := dirEnt s.xmu b
  let k := copyEntry pre b
  let fb := s.rsl.snap.freezeBlk
  let e : DirEnt := { k with chan := t.chan, blk := t.blk, dirty := false }
  if t.st = .retired then (if k.st = .retired then some e else none)
  else if k.st = .retired ∨ k.exempt = true ∨ (fb ≤ b ∧ b < fb + 448) then some { e with st := .unsealed }
  else some e

/-- The directory after a fill. -/
def filledDir (s : State) (pre : List W8) : Option (SMap DirEnt) :=
  (List.range 524288).foldl (fun m b =>
    match m, filledEntry s pre b with
    | some m, some e => some (SMap.set (dirDefault s.xmu b) m b e)
    | _, _ => none) (some [])

/-- A slot from 40 bytes (R207). -/
def slotOfBytes (bs : List W8) : Slot :=
  let w (i : Nat) : W32 := BitVec.ofNat 32 (ofLE (slice (4 * i) 4 bs))
  ⟨w 0, w 1, w 2, w 3, w 4, w 5, w 6, w 7, BitVec.ofNat 64 (ofLE (slice 32 8 bs))⟩

/-- Put command slots into the command store, which has 32,768 (R201). -/
def putSlots (m : SMap Slot) (base n : Nat) (bs : List W8) : SMap Slot :=
  (List.range (Nat.min n (32768 - base))).foldl (fun m i => SMap.set default m (base + i) (slotOfBytes (slice (40 * i) 40 bs))) m

/-- The affine records that the store has from number `base` on: they are numbered from 1 to 2,047 (R201). -/
def affRoom (base : Nat) : Nat := if base = 0 then 0 else 2048 - base

/-- Put affine records into the affine store. -/
def putAffs (m : SMap (List Nat)) (base n : Nat) (bs : List W8) : SMap (List Nat) :=
  (List.range (Nat.min n (affRoom base))).foldl (fun m i => SMap.set [] m (base + i) (wordsOf (slice (128 * i) 128 bs))) m

/-- The images segment is written into the stores at the contexts' bases (R365). -/
def loadImages (ctxs : SMap CtxSt) : List Ctx → List W8 → State → State
  | [], _, s => s
  | c :: cs, bs, s =>
    let x := SMap.get {} ctxs c
    let n := imageLen x
    let s := if x.imageValid then
        { s with
          code := putSlots s.code x.codeBase x.codeSize bs
          aff := putAffs s.aff x.affBase x.affSize (bs.drop (40 * x.codeSize)) }
      else s
    loadImages ctxs cs (bs.drop n) s

/-- Bytes are written to several ranges, one after the other. -/
def loadRanges : List Range → List W8 → State → State
  | [], _, s => s
  | r :: rs, bs, s => loadRanges rs (bs.drop r.2) (writeBytes s r.1 (bs.take r.2))

/-- The control state of a freeze record (R365, R367): `same` when the source has the target's grade. -/
def loadFrozen (f : Frozen) (mask : Nat) (same : Bool) (s : State) : State :=
  let ctxs := (List.finRange 8).foldl (fun m (c : Ctx) =>
    let x := SMap.get {} f.ctxs c
    let y := ctx s c
    SMap.set {} m c (if bit mask c.val then
        { x with cstate := .quiesced, paused := true, stopping := false, point := .start, quiesceReq := false, launch := none
                 imageValid := x.imageValid && same }
      else { y with cstate := .stopped, paused := false, stopping := false, imageValid := false
                    faultCode := 0, faultTag := 0, faultSev := 0, launch := none })) ([] : SMap CtxSt)
  let maps := fun (cm : CmemCtl) => if same then { cm with active := f.active, staged := f.staged } else cm
  let s := { s with
    ctxs := ctxs, stash := f.stash, sct := f.sct, dispatched := none, lastDisp := none
    syn := { s.syn with count := f.count, ovf := f.ovf, unf := f.unf, hoists := f.hoists, child := f.child }
    cm := maps { s.cm with
      partBase := f.partBase, partSize := f.partSize, mxeOwner := f.mxeOwner, mxeValid := f.mxeValid
      vxeOwner := f.vxeOwner, vxeValid := f.vxeValid } }
  if same then
    let s := modMxe (fun m => { m with
      active := {}, shadow := {}, stripActive := {}, stripShadow := {}, ftq := [], gate := none, owner := none }) s
    match f.mxe with
    | none => { s with mxeSaved := f.saved }
    | some (c, k) => putMxe (ctxOf c) k { s with mxeSaved := SMap.erase f.saved c }
  else s

/-- A write of finish (R365, R367): while bytes of the streams wait for room, the fill waits with it. -/
def fillFinish (s0 : State) : State :=
  let s := flushFill s0.rsl.fill.late.length s0
  if s.rsl.fill.st ≠ 1 then s
  else if s.rsl.fill.streams = 0 then abortFill 3 s
  else if s.rsl.fill.late ≠ [] then modFill (fun n => { n with finishing := true }) s
  else
    let pre := s.rsl.fill.last
    let mask := bits (hdrWord pre 1) 23 16
    let res := bits (hdrWord pre 1) 31 24
    let same := decide (bits (hdrWord pre 0) 23 16 = s.grade.code)
    let f := thawed s.rsl.made (slice 4096 3145728 pre)
    let s := drainAll s
    match filledDir s pre with
    | none => abortFill 4 s
    | some d =>
      let s := loadImages f.ctxs (inMask mask) (slice (4096 + 7340032) (hdrImages pre) pre) (loadFrozen f mask same s)
      let s := { s with cm := { s.cm with resident := (inMask res).map (fun (c : Ctx) => c.val) } }
      let at_ := 4096 + 7340032 + hdrImages pre + pad4k (4 * hdrBlocks pre)
      let s := loadRanges (partRanges (freezeOf s) mask) (pre.drop at_) s
      let s := modXmu (fun x => { x with dir := d, sealing := [] }) s
      let s := modSnap (fun n => { n with seq := hdrWord pre 3 }) s
      let s := modFill (fun n => { n with st := 2, reason := 0, pre := [], last := [], finishing := false }) s
      pushEvent cFILL_DONE 0 none 0 0 0 [s.rsl.fill.streams, s.rsl.fill.seq] s

/-- A fill that was to finish goes on once it can (R365). -/
def finishLate (s : State) : State := if s.rsl.fill.finishing then fillFinish s else s

/-- FILL_FINISH. -/
def execFillFinish (s : State) : Out := .next (fillFinish s)

/-! ### Isolation (R368) -/

/-- ISOLATE: the host's bit. -/
def execIsolate (s : State) : Out := afterBoot s (.next (isolate { s with isolateHost := true }))
/-- SV_ISOLATE: the input. -/
def execSvIsolate (s : State) : Out := .next (isolate { s with isolateSeen := true })

end Sys2Proof.Machine
end

