-- ==== Sys2Proof/Machine/Links.lean ====
section
/-!
DEFINITION. The link ports at work: what a port sends (R326, R336), the packets that reach it (R329–R336), response timeouts
(R330), and the completion of the commands that complete outside the timed schedule (R300, R324).
-/
namespace Sys2Proof.Machine

/-! ### Reception -/

/-- A packet that reaches a port takes effect by its kind (R325, R329); `hold` is its place in the port's buffer. -/
def receivePkt (p : Nat) (hold : Hold) (pkt : Packet) (s : State) : State :=
  match pkt.kind with
  | 1 | 2 => pumpAll (recv p pkt hold (badReq p pkt) (acceptReq p pkt hold) s)
  | 3 => recv p pkt hold (badResp p pkt) (fun s => giveBack hold pkt.flits (handleAck p pkt s)) s
  | 4 => pumpAll (recv p pkt hold (badData p pkt) (handleData p pkt hold) s)
  | 5 => recv p pkt hold (badReq p pkt) (handleSnapData p pkt hold) s
  | 6 => recv p pkt hold (badResp p pkt) (fun s => giveBack hold pkt.flits (handleSnapAck p pkt s)) s
  | _ => recv p pkt hold (fun s => s) (giveBack hold pkt.flits) s

/-- The channel of a packet kind (R326). -/
def chanOf (k : Nat) : VChan := if k = 1 ∨ k = 2 then .req else if k = 3 ∨ k = 4 then .rsp else .snp

/-- The credits of a channel that the fabric holds in the present EC (R326, R415). -/
def fabricCredits (s : State) (p : Nat) (vc : VChan) : Nat := ((port (returnCredits p vc s) p).grant vc).held

/-- The fabric spends credits of a channel, as many as it holds of those it needs. -/
def spendCredits (p : Nat) (vc : VChan) (n : Nat) (s : State) : State :=
  modPort p (fun q => q.setGrant vc { q.grant vc with held := (q.grant vc).held - n }) s

/-- A packet comes from the fabric on a channel: where a flit of it comes without a credit it is not whole, and is discarded (R326,
R415). -/
def fromFabric (p : Nat) (vc : VChan) (pkt : Packet) (s : State) : State :=
  if s.isolated ∨ (port s p).up = false then receivePkt p .none pkt s
  else
    let n := fabricCredits s p vc
    let hold := Hold.flit p vc (port s p).ups
    let s := spendCredits p vc pkt.flits (returnCredits p vc s)
    if n < pkt.flits then giveBack hold n (linkUnknown p pkt s) else receivePkt p hold pkt s

/-- A row of a packet kind: a packet of another row's kind is not its own; a reserved kind is dropped by every row.
DESIGN CHOICE: log 2. -/
def packetRow (k : Nat) (port : Port) (pkt : Packet) (s : State) : Out :=
  if pkt.kind = k ∨ pkt.kind = 0 ∨ 6 < pkt.kind then .next (fromFabric port (chanOf k) pkt s) else .fault .notThisRow

/-- WRITE_PACKET (R332). -/
def execWritePacket (port : Port) (pkt : Packet) (s : State) : Out := packetRow 1 port pkt s
/-- READ_REQ (R335). -/
def execReadReq (port : Port) (pkt : Packet) (s : State) : Out := packetRow 2 port pkt s
/-- ACK (R332). -/
def execAck (port : Port) (pkt : Packet) (s : State) : Out := packetRow 3 port pkt s
/-- READ_DATA (R335). -/
def execReadData (port : Port) (pkt : Packet) (s : State) : Out := packetRow 4 port pkt s
/-- SNAP_DATA (R336). -/
def execSnapData (port : Port) (pkt : Packet) (s : State) : Out := packetRow 5 port pkt s
/-- SNAP_ACK (R361). -/
def execSnapAck (port : Port) (pkt : Packet) (s : State) : Out := packetRow 6 port pkt s

/-! ### Sending (R326, R328, R335, R336) -/

/-- What a channel of a port sends next. -/
inductive NextPkt where
  /-- nothing -/
  | none
  /-- a response of the RSP queue, or of the SNP queue -/
  | rsp (pkt : Packet)
  | snpRsp (pkt : Packet)
  /-- a request packet again: a WRITE, a READ_REQ, a SNAP_DATA -/
  | again (list : Nat) (i : Nat) (o : OutPkt)
  /-- a request packet of a command -/
  | req (j : Job) (pkt : Packet) (n : Nat)
  /-- the command faults as its packet is made -/
  | fault (j : Job) (code : Nat) (detail : List Nat)
  /-- the next packet of the snapshot stream -/
  | snap (pkt : Packet) (n : Nat)
deriving DecidableEq, Repr

/-- The next packet of a channel.
DEDUCED: log 58. -/
def nextOn (s : State) (p : Nat) : VChan → NextPkt
  | .rsp => match (port s p).rsp with | [] => .none | r :: _ => .rsp r
  | .req =>
    match nextOnReq s p with
    | .resend false i o => .again 0 i o
    | .resend true i o => .again 1 i o
    | .fresh j pkt n => .req j pkt n
    | .fault j code d => .fault j code d
    | .none => .none
  | .snp =>
    match (port s p).snp, dueOf (port s p).outS, nextSnapData s p with
    | r :: _, _, _ => .snpRsp r
    | [], some (i, o), _ => .again 2 i o
    | [], none, some (pkt, n) => .snap pkt n
    | [], none, none => .none

/-- The packet it is. -/
def NextPkt.pkt? : NextPkt → Option Packet
  | .none | .fault _ _ _ => Option.none
  | .rsp r | .snpRsp r => some r
  | .again _ _ o => some o.pkt
  | .req _ r _ | .snap r _ => some r

/-- Whether a channel can send now: it has a packet, and the port holds a credit for every flit of it; a packet for the
core's own position stays inside and takes none. A command that faults as its packet is made needs no credit (R326, R335).
DEDUCED: log 57. -/
def canSend (s : State) (p : Nat) (vc : VChan) : Bool :=
  match nextOn s p vc with
  | .none => false
  | .fault _ _ _ => true
  | x => match x.pkt? with
    | some r => acceptsPos s r.dst || decide (r.flits ≤ creditsOf vc (port s p).cr)
    | none => false

/-- Whose turn it is: RSP goes first; REQ and SNP alternate packet by packet when both can send (R326).
DEDUCED: log 57. -/
def maySend (s : State) (p : Nat) (vc : VChan) : Bool :=
  canSend s p vc &&
    (match vc with
     | .rsp => true
     | .req => !canSend s p .rsp && !((port s p).turn && canSend s p .snp)
     | .snp => !canSend s p .rsp && !(!(port s p).turn && canSend s p .req))

/-- A packet goes out of a port, or turns round inside it (R335): its flits take credits, and it is counted; payload bytes
count once, not for a packet that is sent again (R385). -/
def putOut (p : Port) (vc : VChan) (again : Bool) (pkt : Packet) (s : State) : State :=
  let s := modPort p (fun q => { q with
    pktsOut := (q.pktsOut + 1) % 2 ^ 32
    resends := if again then (q.resends + 1) % 2 ^ 16 else q.resends
    turn := match vc with | .rsp => q.turn | .req => true | .snp => false }) s
  let s := if again then s else addTot tLTX (flitBytes pkt) s
  if acceptsPos s pkt.dst then receivePkt p .none pkt s
  else emit (.link p pkt) (modPort p (fun q => { q with cr := takeCredits vc pkt.flits q.cr }) s)

/-- A packet that is sent again counts one send more, from now on. -/
def resent (i : Nat) (l : List OutPkt) (w : Nat) : List OutPkt :=
  match l[i]? with
  | some o => l.set i { o with sends := o.sends + 1, sentAt := w, due := false }
  | none => l

/-- The granules of core memory that a packet carries (R21): those of a WRITE, and those of the snapshot stream. -/
def sendGrans (s : State) : NextPkt → List Nat × List Nat
  | .req j _ n => (if j.kind = .lnkWrite then granulesOf (wd j.words 1 + j.row) n else [], [])
  | .snap _ n => ([], snapGrans s n)
  | _ => ([], [])

/-- A channel's packet is sent. A packet of the snapshot stream whose bytes cannot be read ends the stream (R190).
DEDUCED: log 100. -/
def sendOn (p : Port) (vc : VChan) (s0 : State) : State :=
  let s := reachRead ownSvc (sendGrans s0 (nextOn s0 p vc)).2 (reachRead ownOut (sendGrans s0 (nextOn s0 p vc)).1 s0)
  match nextOn s p vc with
  | .none => s
  | .rsp r => putOut p vc false r (modPort p (fun q => { q with rsp := q.rsp.tail }) s)
  | .snpRsp r => putOut p vc false r (modPort p (fun q => { q with snp := q.snp.tail }) s)
  | .again 0 i o => putOut p vc true o.pkt (modPort p (fun q => { q with outW := resent i q.outW s.wall }) s)
  | .again 1 i o => putOut p vc true o.pkt (modPort p (fun q => { q with outR := resent i q.outR s.wall }) s)
  | .again _ i o => putOut p vc true o.pkt (modPort p (fun q => { q with outS := resent i q.outS s.wall }) s)
  | .req j pkt n => putOut p vc false pkt (noteSent p j pkt n s)
  | .snap pkt n =>
    match (snapGrans s n).find? (granUncorrectable s) with
    | some g => snapFail (advise cUNCORR {} [bankOf s.grade g, granOf s.grade g] (noteReads s (snapGrans s n)))
    | none => putOut p vc false pkt (noteSnapSent p pkt n s)
  | .fault j code d =>
    let s := noteReads s (granulesOf (wd j.words 1 + j.row) (Nat.min 4096 (lkBytes j.words - j.row)))
    forgetLnk j.id (settleJob j.id (lnkFault code d j s))

/-- LINK_PACKET_SEND (R326): a port that is UP sends a packet on a channel whose turn it is; an isolated core sends none
(R368). A packet that carries core memory comes after the timed commands that are done by then (R272). -/
def execLinkPacketSend (p : Port) (vc : VChan) (s : State) : Out :=
  if s.isolated || !(port s p).up || !maySend s p vc then .next s
  else if sendGrans s (nextOn s p vc) ≠ ([], []) ∧ inOrder s (ac s) = false then .next s
  else .next (sendOn p vc s)

/-! ### Timeout (R330) -/

/-- The outstanding packet with a sequence number that waits for its response. -/
def waiting (l : List OutPkt) (seq : Nat) : Option OutPkt := l.find? (fun o => decide (o.pkt.seq = seq) && !o.due)

/-- LINK_TIMEOUT (R330): timeout_us after its last send the request is given up and never sent again. -/
def execLinkTimeout (p : Port) (seq : Nat) (s : State) : Out :=
  match waiting (port s p).outW seq, waiting (port s p).outR seq, waiting (port s p).outS seq with
  | some o, _, _ =>
    let s := advanceWall (o.sentAt + linkTimeoutTicks s) s
    .next (timeoutJob p o (countTimeout p (modPort p (fun q => { q with outW := q.outW.erase o }) s)))
  | none, some o, _ =>
    let s := advanceWall (o.sentAt + linkTimeoutTicks s) s
    .next (timeoutJob p o (countTimeout p (modPort p (fun q => { q with outR := q.outR.erase o }) s)))
  | none, none, some o =>
    let s := advanceWall (o.sentAt + linkTimeoutTicks s) s
    .next (snapFail (advise cLINK_TIMEOUT {} [p, seq] (countTimeout p (modPort p (fun q => { q with outS := q.outS.erase o }) s))))
  | none, none, none => .next s

end Sys2Proof.Machine
end

