-- ==== Sys2Proof/Machine/HostRings.lean ====
section
/-!
DEFINITION. The submission, completion and event rings of chapter 15, and the descriptors: LAUNCH and REPLAY (R200–R206),
COPY, SIGNAL, WAIT, SNAPSHOT and FENCE.
-/
namespace Sys2Proof.Machine

/-! ### Rings (R339–R342, R352) -/

/-- Submission ring r. -/
def ring (s : State) (r : Nat) : SRing := SMap.get {} s.hst.rings r
/-- Change the HST block. -/
def modHst (f : HstSt → HstSt) (s : State) : State := { s with hst := f s.hst }
/-- Change submission ring r. -/
def modRing (r : Nat) (f : SRing → SRing) (s : State) : State := modHst (fun h => { h with rings := SMap.mod {} h.rings r f }) s

/-- The entries of a ring. -/
def ringSize (log2 : Nat) : Nat := 2 ^ log2

/-- Whether a ring reads its entry at head: it is enabled and not halted, it is not empty, and nothing of it is held or on its
way (R341, R345). -/
def wantsFetch (s : State) (r : Nat) : Bool :=
  let q := ring s r
  s.hst.enable && q.en && !q.halted && decide (q.head ≠ q.tail) && decide (q.held = none)
    && !s.xfer.hreads.any (fun p => decide (p.2 = .desc r))

/-- Ring r reads its entry at head. -/
def fetchHead (s : State) (r : Nat) : State :=
  if wantsFetch s r then (hostRead ((ring s r).base + 64 * (ring s r).head) (.desc r) s).getD s else s

/-- The rings read their entries at head. -/
def fetchHeads (s : State) : State := (List.range 8).foldl fetchHead s

/-- A ring drops the descriptor it holds, and the one on its way: it is read again when the ring goes on.
DEDUCED: log 78. -/
def dropHeld (r : Nat) (s : State) : State :=
  let s := modRing r (fun q => { q with held := none }) s
  { s with xfer := { s.xfer with hreads := s.xfer.hreads.map (fun p => if p.2 = .desc r then (p.1, HUse.stale) else p) } }

/-- A ring halts with a reason: 1 SEQ_GAP, 2 FETCH, 3 HOST (R342, R346, R352).
DEDUCED: log 78. -/
def haltRing (r reason : Nat) (s : State) : State := modRing r (fun q => { q with halted := true, reason := reason }) (dropHeld r s)

/-- A doorbell (R341): one that leaves the ring empty withdraws the descriptor at head. -/
def sqDoorbell (r v : Nat) (s : State) : State :=
  let s := modRing r (fun q => { q with tail := v % 2 ^ 16 }) s
  fetchHeads (if (ring s r).head = (ring s r).tail then dropHeld r s else s)
/-- HST_SQ_DB (R341). -/
def execHstSqDb (c : Ctx) (v : W32) (s : State) : Out := afterBoot s (.next (sqDoorbell c v.toNat s))

/-- HST_CQ_DB (R340). -/
def execHstCqDb (v : W32) (s : State) : Out :=
  afterBoot s (.next (modHst (fun h => { h with cq := { h.cq with head := v.toNat % 2 ^ 16 } }) s))
/-- HST_EQ_DB (R340). -/
def execHstEqDb (v : W32) (s : State) : Out :=
  afterBoot s (.next (modHst (fun h => { h with eq_ := { h.eq_ with head := v.toNat % 2 ^ 16 } }) s))

/-- A write of stop (R352). -/
def ringStop (r : Nat) (s : State) : State := haltRing r 3 s
/-- RING_STOP (R352). -/
def execRingStop (c : Ctx) (s : State) : Out := afterBoot s (.next (ringStop c s))

/-- A write of resume: the halt is cleared and the entry at head is tried again (R352). -/
def ringResume (r : Nat) (s : State) : State := fetchHeads (modRing r (fun q => { q with halted := false, reason := 0 }) s)
/-- RING_RESUME (R352). -/
def execRingResume (c : Ctx) (s : State) : Out := afterBoot s (.next (ringResume c s))

/-- A write of reset: while halted or disabled, and idle (R352). -/
def ringReset (r : Nat) (s : State) : State :=
  let q := ring s r
  if (q.halted || !q.en) && decide (q.busy = []) then modRing r (fun q => { q with head := 0, tail := 0 }) (dropHeld r s)
  else s
/-- RING_RESET (R352). -/
def execRingReset (c : Ctx) (s : State) : Out := afterBoot s (.next (ringReset c s))

/-! ### Records (R343, R344, R351) -/

/-- How long ago a record's number was taken. -/
def recAge (h : HstSt) (n : Nat) : Nat := (h.nextOut + 2 ^ 32 - n) % 2 ^ 32

/-- Whether the oldest waiting record is one of the event ring (`ev`) or the completion ring. -/
def oldestIs (h : HstSt) (ev : Bool) : Bool :=
  match h.cqQ, h.eqQ with
  | [], [] => false
  | _ :: _, [] => !ev
  | [], _ :: _ => ev
  | a :: _, b :: _ => if recAge h a.number < recAge h b.number then ev else !ev

/-- Whether a record ring has room. -/
def recRoom (q : CRing) : Bool := decide ((q.tail + 1) % ringSize q.log2 ≠ q.head)

/-- Its next slot is written. -/
def pushTail (q : CRing) : CRing := { q with tail := (q.tail + 1) % ringSize q.log2 }

/-- When the event queue has room again, EVENT_OVERFLOW is produced first (R351). -/
def reportLost (s : State) : State :=
  if s.hst.ovCount = 0 ∨ 64 ≤ s.hst.eqQ.length then s
  else
    let d := [s.hst.ovCount, s.hst.ovFirst]
    pushEvent cEV_OVERFLOW 0 none 0 0 0 d (modHst (fun h => { h with ovCount := 0, ovFirst := 0 }) s)

/-- A completion that waited for room in its queue produces its record (R351). -/
def produceLate (h : HstSt) : HstSt :=
  match h.late with
  | [] => h
  | ws :: rest => if 64 ≤ h.cqQ.length then h else pushDone ws { h with late := rest }

/-- RECORD_WRITE: the oldest waiting record goes to its ring, the event ring if `ev`, in the EC after the one in which it was
produced (R344, R402). -/
def execRecordWrite (ev : Bool) (s0 : State) : Out :=
  let s := tick s0
  let h := s.hst
  if !h.enable || !oldestIs h ev then .next s
  else if ev then
    match h.eqQ with
    | [] => .next s
    | r :: rest =>
      if recRoom h.eq_ = false then .next s
      else
        let s := emit (.hostWrite (h.eq_.base + 32 * h.eq_.tail) (bytesOfWords r.words)) s
        .next (reportLost (modHst (fun h => { h with eqQ := rest, eq_ := pushTail h.eq_ }) s))
  else
    match h.cqQ with
    | [] => .next s
    | r :: rest =>
      if recRoom h.cq = false then .next s
      else
        let s := emit (.hostWrite (h.cq.base + 32 * h.cq.tail) (bytesOfWords r.words)) s
        .next (modHst (fun h => produceLate { h with cqQ := rest, cq := pushTail h.cq }) s)

/-! ### Descriptors (R345–R349) -/

/-- The header of a descriptor. -/
def descKind (ws : List Nat) : Nat := bits (wd ws 0) 3 0
def dCmpl (ws : List Nat) : Bool := bit (wd ws 0) 4
def dTag (ws : List Nat) : Nat := bits (wd ws 0) 31 16
def dSeq (ws : List Nat) : Nat := wd ws 1

/-- A descriptor as the records name it. -/
def refOf (r : Nat) (ws : List Nat) : HostRef := ⟨descKind ws, r, dSeq ws, dTag ws, dCmpl ws⟩

/-- Words i to 15 are zero. -/
def restZero (i : Nat) (ws : List Nat) : Bool := (slice i (16 - i) ws).all (fun w => decide (w = 0))

/-- Two words as an address. -/
def addr64 (ws : List Nat) (i : Nat) : Nat := wd ws i + wd ws (i + 1) * 2 ^ 32

/-- The conditions of a COPY descriptor (R347, R348).
DEDUCED: log 77. -/
def copyOk (ws : List Nat) : Bool :=
  let w7 := wd ws 7
  let src := bits w7 1 0
  let dst := bits w7 3 2
  let extOk (sp a : Nat) : Bool := decide (sp ≠ 2) || decide (a < 2 ^ 34)
  decide (addr64 ws 2 % 64 = 0) && decide (addr64 ws 4 % 64 = 0) && decide (wd ws 6 % 64 = 0) && decide (wd ws 6 ≠ 0)
    && decide (src ≠ 3) && decide (dst ≠ 3) && !(decide (src = 0) && decide (dst = 0)) && decide (bits w7 5 4 ≠ 3)
    && decide (bits w7 31 11 = 0) && (decide (bits w7 9 6 = 0) || decide (dst = 1))
    && extOk src (addr64 ws 2) && extOk dst (addr64 ws 4) && decide (bits (wd ws 8) 31 28 = 0) && restZero 9 ws

/-- Whether a descriptor has no reserved kind, value or field (R346, R347). -/
def descOk (ws : List Nat) : Bool :=
  decide (bits (wd ws 0) 15 5 = 0) &&
    (match descKind ws with
     | 1 => decide (wd ws 2 % 64 = 0) && decide (wd ws 4 < 2) && restZero 5 ws
     | 2 => decide (wd ws 2 % 16 = 0) && decide (wd ws 4 ≤ 4096) && restZero 5 ws
     | 3 => copyOk ws
     | 4 => decide (bits (wd ws 2) 31 17 = 0) && decide (bits (wd ws 2) 13 12 ≠ 3) && decide (bits (wd ws 2) 16 15 ≠ 3)
         && decide (bits (wd ws 4) 31 22 = 0) && restZero 5 ws
     | 5 => !dCmpl ws && decide (bits (wd ws 2) 31 16 = 0) && decide (bits (wd ws 2) 14 13 ≠ 3)
         && decide (bits (wd ws 4) 31 20 = 0) && restZero 5 ws
     | 6 => decide (bits (wd ws 2) 31 9 = 0) && decide (bits (wd ws 4) 31 26 = 0) && decide (bits (wd ws 4) 3 2 = 2)
         && restZero 5 ws
     | 7 => restZero 2 ws
     | _ => false)

/-- Whether a WAIT with block = 1 holds the ring (R345).
DEDUCED: log 79. -/
def ringBlocked (s : State) (r : Nat) : Bool :=
  s.syn.waits.any (fun w => match w.who with | .host q _ _ b => decide (q = r) && b | _ => false)

/-- The descriptor that a ring may start now: it holds one, it is not held by a WAIT, completions have room, and no snapshot is
in progress (R345, R351, R356). -/
def startable (s : State) (r : Nat) : Option (List Nat) :=
  let q := ring s r
  if s.hst.enable && q.en && !q.halted && decide (q.head ≠ q.tail) && decide (s.hst.cqQ.length < 64) && decide (s.rsl.snap.phase = 0) && !ringBlocked s r
  then q.held else none

/-- The core takes the descriptor at head (R342, R345). -/
def takeDesc (r : Nat) (s : State) : State :=
  modRing r (fun q => { q with held := none, head := (q.head + 1) % ringSize q.log2, expect := (q.expect + 1) % 2 ^ 32 }) s

/-- The descriptor has started and has not completed. -/
def noteBusy (d : HostRef) (s : State) : State := modRing d.ring (fun q => { q with busy := q.busy ++ [d] }) s

/-- Whom the log names for a descriptor (R403).
DEDUCED: log 76. -/
def descBlame (d : HostRef) : Cause := { ring := some d.ring, hostSeq := d.seq }

/-- A descriptor fails with FORMAT_INVALID (R346, R349), with an entry of advisory severity (R401, R402): a WAIT reports it by the
event record of that entry (R403), any other by its completion record; that of a program carries its context's summary (R350), and
a SNAPSHOT's status is kept (R371).
DEDUCED: log 76. -/
def formatDesc (d : HostRef) (s : State) : State :=
  let (k, s) := takeFree 2 s
  let detail := [(Config.freeWord k).toNat, (Config.freeWord (k + 1)).toNat]
  if d.kind = 5 then advise cFORMAT { descBlame d with waitTag := some d.hostTag } detail s
  else
    let s := if d.kind = 6 then modSnap (fun n => { n with lastStatus := cFORMAT }) s else s
    let x := ctx s (ctxOf d.ring)
    let run : Bool := decide (d.kind = 1 ∨ d.kind = 2)
    complete d cFORMAT 0 (if run then x.summary.toNat else 0) (if run then x.firstTag else 0) 0 (advise cFORMAT (descBlame d) detail s)

/-! ### Start conditions (R345) -/

/-- Whether a program may be started in a context.
DEDUCED: log 79. -/
def mayLaunch (c : Ctx) (s : State) : Bool :=
  let x := ctx s c
  !x.stopping && decide (x.launch = none) &&
    (decide (x.cstate = .stopped) || (decide (x.cstate = .quiesced) && !x.paused))

/-- Whether the previous COPY of a ring has completed. -/
def copyFree (r : Nat) (s : State) : Bool := (ring s r).busy.all (fun d => decide (d.kind ≠ 3))

/-- Whether one of the 4,088 entries of host waits is free (R249). -/
def waitFree (s : State) : Bool :=
  decide ((s.syn.waits.filter (fun w => match w.who with | .host _ _ _ _ => true | _ => false)).length < 4088)

/-- Word i of an image. -/
def imgWord (img : List W8) (i : Nat) : Nat := ofLE (slice (4 * i) 4 img)

/-- The header of an image (R200). -/
def hdrOf (img : List W8) : ImgHdr :=
  { grade := bits (imgWord img 0) 23 16, tver := bits (imgWord img 0) 31 24
    sig := bits (imgWord img 1) 15 0, saveBlk := bits (imgWord img 1) 23 16, engines := bits (imgWord img 1) 31 24
    nSlots := bits (imgWord img 2) 15 0, nAff := bits (imgWord img 2) 31 16, entry := bits (imgWord img 3) 14 0 }

/-- The bytes of an image: header, microprogram table, affine records, slots. -/
def imgLen (h : ImgHdr) : Nat := 256 + 1024 + 128 * h.nAff + 40 * h.nSlots

/-- Where the image of a LAUNCH lies in external memory, and its bytes: those of its header while that cannot be read. -/
def imgExt (s : State) (ws : List Nat) : Range :=
  let a := addr64 ws 2 % 2 ^ 34
  (a, if (extFault s.xmu a 256).isNone && extAwake s.xmu a 256 then imgLen (hdrOf (extBytes s.xmu a 256)) else 256)

/-- Whether the image of a LAUNCH can be read, or faults: one in external memory waits for its channels (R311). -/
def imgReady (s : State) (ws : List Nat) : Bool :=
  !bit (wd ws 4) 0 || (extFault s.xmu (imgExt s ws).1 (imgExt s ws).2).isSome || extAwake s.xmu (imgExt s ws).1 (imgExt s ws).2

/-- The start condition of a descriptor of ring r by its kind (R345, R355). -/
def startsNow (s : State) (r : Nat) (ws : List Nat) : Bool :=
  match descKind ws with
  | 1 => mayLaunch (ctxOf r) s && imgReady s ws
  | 2 => mayLaunch (ctxOf r) s
  | 3 => copyFree r s && (decide (bits (wd ws 7) 1 0 ≠ 1) || inOrder s (ac s))
  | 5 => waitFree s
  | 6 => decide (s.rsl.snap.phase = 0) && decide (s.rsl.fill.st ≠ 1)
  | 7 => decide ((ring s r).busy = []) && decide ((ctx s (ctxOf r)).launch = none)
  | _ => true

/-- Whether ring r has a descriptor that starts, or completes at once, in its turn. -/
def hasTurn (s : State) (r : Nat) : Bool :=
  match startable s r with
  | none => false
  | some ws => !descOk ws || startsNow s r ws

/-- The ring that is served: the first from the turn on that has one (R345). -/
def nextRing (s : State) : Option Nat := ((List.range 8).map (fun i => (s.hst.turn + i) % 8)).find? (hasTurn s)

/-- Ring r has been served. -/
def passTurn (r : Nat) (s : State) : State := modHst (fun h => { h with turn := (r + 1) % 8 }) s

/-- A row that starts a descriptor of one kind, when its ring has its turn: one that breaks its layout completes at once; any
other starts when its condition holds.
DEDUCED: log 78. -/
def startRow (kind r : Nat) (act : List Nat → HostRef → State → State) (s : State) : Out :=
  match startable s r with
  | none => .next s
  | some ws =>
    if descOk ws ∧ descKind ws ≠ kind then .fault .notThisRow
    else if nextRing s ≠ some r then .next s
    else
      let s := takeDesc r (passTurn r s)
      .next (fetchHeads (if descOk ws then act ws (refOf r ws) s else formatDesc (refOf r ws) s))

/-! ### LAUNCH and REPLAY (R202–R204) -/

/-- A program starts (R203): its release comes when the context is dispatched. -/
def startProgram (c : Ctx) (d : HostRef) (s : State) : State :=
  modCtx s c (fun x => { x with
    areg := [], late := [], wroteAt := [], lcIdx := [], lcCnt := [], loops := [], cmps := [], pred := 0x0001#16, summary := 0#16, firstTag := 0
    pos := x.img.entry, cstate := .running, point := .start, paused := false, quiesceReq := false, slipping := false
    rejoin := false, launch := some d })

/-- A LAUNCH or REPLAY ends with a fault of its context with tag 0, and the descriptor completes (R345, R350). -/
def endWithFault (c : Ctx) (d : HostRef) (code sev : Nat) (detail : List Nat) (s : State) : State :=
  let s := faultCtx c code sev 0 detail s
  complete d code 0 (ctx s c).summary.toNat (ctx s c).firstTag 0 s

/-- A check of LAUNCH or REPLAY fails: a fault of context severity (R202).
DEDUCED: log 93. -/
def failLaunch (c : Ctx) (d : HostRef) (code : Nat) (detail : List Nat) (s : State) : State := endWithFault c d code 4 detail s

/-- Grade and table version (R17, R240), and the signature (R174), of an image against the core's.
DEDUCED: log 74, log 93. -/
def imgRefusal (s : State) (h : ImgHdr) : Option (Nat × List Nat) :=
  if h.grade ≠ s.grade.code ∨ h.tver ≠ sizeTable s.grade 1 then
    some (cGRADE, [h.grade + h.tver * 2 ^ 8, s.grade.code + sizeTable s.grade 1 * 2 ^ 8])
  else if h.sig ≠ mapSig s.cm.active then some (cSLOTMAP, [h.sig, mapSig s.cm.active])
  else none

/-- Step 1 of R202: the image is copied into the stores and the context's table. -/
def copyImage (c : Ctx) (h : ImgHdr) (img : List W8) (s : State) : State :=
  let x := ctx s c
  let s := { s with
    aff := putAffs s.aff x.affBase h.nAff (img.drop 1280)
    code := putSlots s.code x.codeBase h.nSlots (img.drop (1280 + 128 * h.nAff)) }
  let prog := sparse 0 ((List.range 256).map (fun i => imgWord img (64 + i)))
  modCtx s c (fun x => { x with uprog := prog, img := h, imageValid := false })

/-- The steps of a LAUNCH of an image (R202).
DEDUCED: log 75. -/
def launchImage (c : Ctx) (d : HostRef) (img : List W8) (s : State) : State :=
  let h := hdrOf img
  if Nat.min (ctx s c).codeSize (32768 - (ctx s c).codeBase) < h.nSlots ∨
      Nat.min (ctx s c).affSize (affRoom (ctx s c).affBase) < h.nAff then failLaunch c d cIMAGE [1, 0] s
  else
    let img := padTo 0#8 (imgLen h) img
    let s := copyImage c h img s
    if crc32c (img.take 252 ++ [0#8, 0#8, 0#8, 0#8] ++ img.drop 256) ≠ imgWord img 63 then failLaunch c d cIMAGE [2, 0] s
    else
      match imgRefusal s h with
      | some f => failLaunch c d f.1 f.2 s
      | none =>
        if partSize s c < h.saveBlk then failLaunch c d cIMAGE [5, 0] s
        else startProgram c d (modCtx s c (fun x => { x with imageValid := true }))

/-- The blocks that an extent covers whole, and those it covers in part. -/
def wholeBlocks (a n : Nat) : List Nat :=
  (List.range ((a + n) / 16384 - (a + 16383) / 16384)).map (fun i => (a + 16383) / 16384 + i)
def partBlocks (a n : Nat) : List Nat :=
  ((List.range ((a + n + 16383) / 16384 - a / 16384)).map (fun i => a / 16384 + i)).filter (fun b => b ∉ wholeBlocks a n)

/-- A LAUNCH of an image in external memory (R202, R288, R294, R295): its extent must exist and hold no RETIRED block, and the
blocks that the read covers whole are checked; a fault of the read is a stream fault, further mismatches are logged (R401).
DEDUCED: log 75. -/
def launchExt (c : Ctx) (d : HostRef) (a n : Nat) (s : State) : State :=
  match extFault s.xmu a n with
  | some f => endWithFault c d f.1 3 f.2 s
  | none =>
    let img := extBytes s.xmu a n
    let bad := badBlocks s.xmu (wholeBlocks a n)
    let s := noteBlocks (wholeBlocks a n) (addTot tXRD (((a + n + 127) / 128 - a / 128) * 128) s)
    let s := modXmu (fun x => { x with unchecked := (x.unchecked + (partBlocks a n).length) % 2 ^ 32 }) s
    match bad with
    | [] => launchImage c d img s
    | f :: fs =>
      let s := modXmu (fun x => { x with crcFaults := (x.crcFaults + bad.length) % 2 ^ 32 }) s
      fs.foldl (fun s f => advise cBLOCK_CRC (descBlame d) f s) (endWithFault c d cBLOCK_CRC 3 f s)

/-- LAUNCH of ring r (R202): `data` is what host memory returns for an image that lies there. -/
def execLaunch (r : Ctx) (data : List W8) (s : State) : Out :=
  startRow 1 r (fun ws d s =>
    if bit (wd ws 4) 0 then
      let s := meetExt (imgExt s ws).1 (imgExt s ws).2 s
      launchExt r d (imgExt s ws).1 (imgExt s ws).2 s
    else launchImage r d data s) s

/-- The entries of a patch list: register and value; none if one is bad (R347). -/
def patches (n : Nat) (bs : List W8) : Option (List (Nat × Nat)) :=
  let es := (List.range n).map (fun i => slice (16 * i) 16 bs)
  if es.all (fun e => decide (ofLE (slice 8 8 e) < 64)) then some (es.map (fun e => (ofLE (slice 8 8 e), ofLE (slice 0 8 e)))) else none

/-- Put a patch into its parameter register. -/
def patchPar (c : Ctx) (p : Nat × Nat) (s : State) : State :=
  modCtx s c (fun x => { x with par := SMap.set 0#64 x.par p.1 (BitVec.ofNat 64 p.2) })

/-- REPLAY (R204): `data` is the patch list. -/
def execReplay (r : Ctx) (data : List W8) (s : State) : Out :=
  startRow 2 r (fun ws d s =>
    match patches (wd ws 4) (padTo 0#8 (16 * wd ws 4) data) with
    | none => formatDesc d s
    | some ps =>
      if (ctx s r).imageValid = false then
        let (k, s) := takeFree 2 s
        failLaunch r d cIMAGE [(Config.freeWord k).toNat, (Config.freeWord (k + 1)).toNat] s
      else
        match imgRefusal s (ctx s r).img with
        | some f => failLaunch r d f.1 f.2 s
        | none => startProgram r d (ps.foldl (fun s p => patchPar r p s) s)) s

/-! ### COPY (R348) -/

/-- The fault of a COPY's extents, before anything moves. -/
def copyFault (s : State) (c : Ctx) (ws : List Nat) : Option (Nat × List Nat) :=
  let n := wd ws 6
  let ends := [(bits (wd ws 7) 1 0, addr64 ws 2), (bits (wd ws 7) 3 2, addr64 ws 4)]
  if bits (wd ws 7) 5 4 = 0 ∧ s.xmu.step = 3 ∧ (ends.any (fun e => decide (e.1 = 2))) = true then some (cMEM_THERMAL, [s.xmu.temp])
  else
    ends.findSome? (fun e =>
      match e.1 with
      | 1 => (badRange s c [(e.2, n)]).map (fun g => (cADDR, [g % 2 ^ 32, g / 2 ^ 32 % 4]))
      | 2 => extFault s.xmu e.2 n
      | _ => none)

/-- A line of a COPY from core memory is read: it lands again in core memory, or waits to be performed outside. -/
def copyOut (id : Nat) (s : State) (k : Nat) : State :=
  match findJob s id with
  | none => s
  | some j =>
    if j.faulted then s
    else
      let g := wd j.words 2 + 64 * k
      let s := reachRead ownOut [g] s
      match outFault s g with
      | some f => jobFault f.1 f.2 j (noteRead s g)
      | none =>
        let bs := readBytes s g 64
        let s := noteRead s g
        if copyDst j = 1 then deliver id j.comb (wd j.words 4 + 64 * k) (bs.map some) .none s
        else modJob id (fun x => { x with buf := putBuf x.buf (64 * k) bs }) s

/-- A COPY starts.
DEDUCED: log 77. -/
def startCopy (r : Ctx) (ws : List Nat) (d : HostRef) (s : State) : State :=
  let id := s.xfer.nextJob
  let dst := bits (wd ws 7) 3 2
  let j : Job :=
    { id := id, kind := .copy, ctx := r.val, blame := descBlame d, prio := bits (wd ws 7) 5 4
      pennant := bits (wd ws 8) 11 0, incr := if dst = 1 then bits (wd ws 8) 27 12 else 0
      comb := bits (wd ws 7) 9 6, words := ws, verify := bit (wd ws 7) 10, host := some d }
  match copyFault s r ws with
  | some f => settleJob id (jobFault f.1 f.2 j (addJob (fun _ => j) (noteBusy d s)))
  | none =>
    let s := addJob (fun _ => j) (noteBusy d s)
    match bits (wd ws 7) 1 0 with
    | 0 => askHost id 256 s
    | 1 =>
      let s := modJob id (fun k => { k with row := 1 }) ((List.range (wd ws 6 / 64)).foldl (copyOut id) s)
      settleJob id (if dst = 0 then flushCopy id (wd ws 6 / 64) s else s)
    | _ => pumpAll s

/-- COPY (R348). -/
def execCopy (r : Ctx) (s : State) : Out := startRow 3 r (startCopy r) s

/-- A line of a COPY from host memory comes back. -/
def copyBack (id off : Nat) (err : Bool) (data : List W8) (s : State) : State :=
  match findJob s id with
  | none => s
  | some j =>
    let s := modJob id (fun k => { k with acks := k.acks - 1 }) s
    let s :=
      if j.faulted then s
      else if err then
        let (k, s) := takeFree 1 s
        jobFault cADDR [(addr64 j.words 2 + off) % 2 ^ 32, (Config.freeWord k).toNat] j s
      else
        let bs := padTo 0#8 64 data
        if copyDst j = 1 then deliver id j.comb (wd j.words 4 + off) (bs.map some) .none s
        else flushCopy id 65536 (modJob id (fun k => { k with buf := putBuf k.buf off bs }) s)
    settleJob id s

/-- A descriptor comes back (R342, R346): an error or a wrong number halts the ring, and nothing is taken. -/
def descBack (r : Nat) (err : Bool) (data : List W8) (s : State) : State :=
  let q := ring s r
  if err then advise cFETCH {} [r, q.head] (haltRing r 2 s)
  else
    let ws := (List.range 16).map (fun i => ofLE (slice (4 * i) 4 (padTo 0#8 64 data)))
    if dSeq ws ≠ q.expect then advise cSEQ_GAP {} [r, q.expect, dSeq ws] (haltRing r 1 s)
    else modRing r (fun q => { q with held := some ws }) s

/-- HOST_READ_COMPLETION (R414). -/
def execHostReadCompletion (tag : Nat) (err : Bool) (data : List W8) (s : State) : Out :=
  match (s.xfer.hreads.find? (fun p => decide (p.1 = tag))).map Prod.snd with
  | none => .next s
  | some u =>
    let s := { s with xfer := { s.xfer with hreads := SMap.erase s.xfer.hreads tag } }
    let s := match u with
      | .stale => s
      | .desc r => descBack r err data s
      | .copy id off => copyBack id off err data s
    .next (fetchHeads (askAll s))

/-! ### SIGNAL, WAIT, SNAPSHOT, FENCE (R345, R349, R355) -/

/-- A SIGNAL applies its update, or posts its message, with which it completes. -/
def startSignal (ws : List Nat) (d : HostRef) (s : State) : State :=
  let p := bits (wd ws 2) 11 0
  let op := bits (wd ws 2) 13 12
  if bit (wd ws 2) 14 then post none (some d) (ac s) (mkMsg s 1 (bits (wd ws 4) 21 0) 0 false p op (wd ws 3)) (noteBusy d s)
  else complete d 0 0 0 0 0 (raise 6 p op (wd ws 3) (descBlame d) s)

/-- SIGNAL (R349). -/
def execSignal (r : Ctx) (s : State) : Out := startRow 4 r startSignal s

/-- A WAIT enters the pennant unit (R246–R250, R349). -/
def startWait (ws : List Nat) (d : HostRef) (s : State) : State :=
  enterWait
    { who := .host d.ring d.seq d.hostTag (bit (wd ws 2) 15), pennant := bits (wd ws 2) 11 0, take := bit (wd ws 2) 12
      value := wd ws 3, due := dueAt s s.ec (bits (wd ws 4) 19 0), act := false, pred := 0, tag := 0, at_ := s.ec }
    (noteBusy d s)

/-- WAIT (R349). -/
def execWait (r : Ctx) (s : State) : Out := startRow 5 r startWait s

/-- SNAPSHOT (R355): no other snapshot and no fill is in progress. -/
def execSnapshot (r : Ctx) (s : State) : Out :=
  startRow 6 r (fun ws d s =>
    startSnapshot d (bits (wd ws 2) 7 0) (bit (wd ws 2) 8) (wd ws 3 + bits (wd ws 4) 25 0 * 2 ^ 32) (noteBusy d s)) s

/-- FENCE (R345): every earlier descriptor of the ring has completed. -/
def execFence (r : Ctx) (s : State) : Out :=
  startRow 7 r (fun _ d s => complete d 0 0 0 0 0 s) s

/-! ### Completions outside the timed schedule (R300, R324) -/

/-- ASYNC_COMMAND_COMPLETE: a transfer that moves its data at its completion, or that waits for room, for timed commands or for its
packets' answers, goes on as far as it can; the XMU accepts what it can of what it writes (R96, R98, R271, R272, R276, R300, R324,
R332).
DESIGN CHOICE: log 66. -/
def execAsyncCommandComplete (job : Nat) (s0 : State) : Out :=
  let s := flushLate job s0
  match findJob s job with
  | none => .next s
  | some j =>
    .next (match j.kind with
      | .write => completeWrite j s
      | .claim | .release => completeStash j s
      | .lnkWrite => completeLnkWrite j s
      | .copy => settleJob job (flushCopy job (wd j.words 6 / 64) s)
      | .linkIn => pumpAll (settleJob job s)
      | .smWrite => pumpSm 32768 s
      | .serve => pumpAll s
      | _ => s)

end Sys2Proof.Machine
end

