-- ==== Sys2Proof/Machine/Cmem.lean ====
section
/-!
DEFINITION. Core memory as host software manages it (chapter 08): slot maps, partitions, bank power, scrubbing and row repair.
-/
namespace Sys2Proof.Machine

/-- Change the CMEM control registers. -/
def modCm (f : CmemCtl → CmemCtl) (s : State) : State := { s with cm := f s.cm }

/-- EC in a turn of the slot wheel, and in a service cycle (R19, R38). -/
def turnEc : Nat := 16
def svcEc : Nat := 16

/-- Time passes up to the next turn that begins. -/
def toTurn (s : State) : State := advance ((s.ec / turnEc + 1) * turnEc) s

/-! ### Slot maps (R172, R173) -/

/-- The reason for which a commit is refused; 0 when it is accepted. -/
def commitReason (s : State) : Nat :=
  let r := mapReason s.grade s.cm.staged
  if r ≠ 0 then r else if anyRunning s then 4 else 0

/-- A commit: the staged set becomes active in the next turn, or the commit is refused with its reason.
DEDUCED: log 80. -/
def mapCommit (s : State) : State :=
  let r := commitReason s
  if r ≠ 0 then modCm (fun c => { c with mapRefused := true, mapReason := r }) s
  else setMaps (toTurn s) s.cm.staged

/-- CMEM_MAP_COMMIT (R173). -/
def execCmemMapCommit (s : State) : Out := afterBoot s (.next (mapCommit s))

/-! ### Partitions (R179, R180) -/

/-- A write of CMEM_PART_c: a partition of some size is resident unless it overlaps one that is. -/
def setPart (c base size : Nat) (s : State) : State :=
  let s := modCm (fun m => { m with
    partBase := SMap.set 0 m.partBase c base, partSize := SMap.set 0 m.partSize c size }) s
  let clash := (List.range 8).any (fun k => decide (k ≠ c) && residentPart s k && partsOverlap s k c)
  setResident c (decide (0 < partSize s c) && !clash) s

/-! ### Bank power (R185, R188) -/

/-- Every byte of a bank is zero, with good check bits. -/
def clearBank (b : Nat) (s : State) : State :=
  let mine (a : Nat) : Bool := decide (a < bankBytes s) && decide (bankOf s.grade a = b)
  { s with
    mem := s.mem.filter (fun p => !mine p.1), ecc := s.ecc.filter (fun p => !mine (8 * p.1))
    cm := { s.cm with scrubWb := s.cm.scrubWb.filter (fun q => decide (q.1 ≠ b)) } }

/-- A stage of a bank's power sequence begins. -/
def beginStage (b : Nat) (p : PwrState) (goal : Nat) (isol : Bool) (s : State) : State :=
  modBank s b (fun k => { k with pw := p, goal := goal, isolated := isol, stageEc := s.ec, stageWall := s.wall })

/-- The request of a bank takes effect when no transition runs: 0 ON, 1 RETAIN, 2 DARK. A bank that is off goes on by way of
ON. -/
def followReq (b : Nat) (s : State) : State :=
  let k := bank s b
  match k.pw, k.req with
  | .on, 0 => s
  | .on, r => beginStage b .draining r false s
  | .retain, 1 => s
  | .dark, 2 => s
  | .retain, _ => beginStage b .waking 1 false s
  | .dark, _ => beginStage b .waking 2 false s
  | .draining, _ | .waking, _ => s

/-- A write of a bank's request: 3 leaves it unchanged; a bank that is not present has none (R194). -/
def pwrReq (b req : Nat) (s : State) : State :=
  if s.grade.banks ≤ b ∨ 2 < req then s else followReq b (modBank s b (fun k => { k with req := req }))

/-- CMEM_PWR_REQ (R185). -/
def execCmemPwrReq (bank req : Nat) (s : State) : Out := afterBoot s (.next (pwrReq bank req s))

/-- Whether a bank is draining and its port is not isolated yet. -/
def draining (s : State) (b : Nat) : Bool := decide ((bank s b).pw = .draining) && !(bank s b).isolated

/-- BANK_DRAIN_END (R185): the outstanding count is 0; the port is isolated, 8 service cycles. -/
def execBankDrainEnd (b : Nat) (s : State) : Out :=
  if draining s b && decide (outstanding s b = 0) then .next (beginStage b .draining (bank s b).goal true (advance (s.ec + 8 * svcEc) s))
  else .next s

/-- BANK_DRAIN_TIMEOUT (R185): the drain timeout, at least 1 µs of wall time. -/
def execBankDrainTimeout (b : Nat) (s : State) : Out :=
  if draining s b then
    let s := advanceWall ((bank s b).stageWall + Nat.max 1 s.cm.pwrTimeout * usTicks) s
    .next (beginStage b .draining (bank s b).goal true (advance (s.ec + 8 * svcEc) s))
  else .next s

/-- BANK_TRANSITION_DONE (R185): the stage of the bank's transition ends after its time, 160 ns, 1 µs, 0.5 µs or 2 µs of wall
time and 8,192 EC (R38), and a request that came meanwhile takes effect. A bank that was DARK comes back zero.
DEDUCED: log 80. -/
def execBankTransitionDone (b : Nat) (s : State) : Out :=
  let k := bank s b
  let stage (ns : Nat) (ec : Nat) (p : PwrState) (s : State) : State :=
    let s := advanceWall (k.stageWall + ns * usTicks / 1000) s
    followReq b (beginStage b p 0 false (advance (s.ec + ec) s))
  match k.pw with
  | .draining =>
    if k.isolated = false then .next s
    else if k.goal = 1 then .next (stage 160 0 .retain s)
    else .next (stage 1000 0 .dark (clearBank b s))
  | .waking => if k.goal = 2 then .next (stage 2000 8192 .on (clearBank b s)) else .next (stage 500 0 .on s)
  | _ => .next s

/-! ### Scrubbing (R191) -/

/-- The check-bit mark of the k-th word of a granule of a bank. -/
def wordOf (s : State) (b g k : Nat) : Nat := granAddr s.grade b g / 8 + k

/-- A change of stored bits: a word that was good or corrected becomes as the change says.
DEDUCED: log 81. -/
def upset (s : State) (u : Upset) : State :=
  if s.grade.banks ≤ u.bank ∨ 8192 ≤ u.granule ∨ 8 ≤ u.word then s
  else
    let w := wordOf s u.bank u.granule u.word
    { s with ecc := SMap.put s.ecc w (if u.uncorrectable then 2 else Nat.max 1 (eccMark s w)) }

/-- The scrubber reads its granule of one bank. -/
def scrubBank (g : Nat) (s : State) (b : Nat) : State :=
  if (bank s b).pw ≠ .on then s
  else
    let a := granAddr s.grade b g
    let ue := granUncorrectable s a
    let ce := granCorrected s a
    let s := noteRead s a
    if ue then advise cSCRUB {} [b, g] s
    else if ce = 0 then s
    else modCm (fun m => { m with scrubWb := m.scrubWb ++ [(b, g)] }) s

/-- SCRUB_TICK (R191): the interval expires and the scrubber reads one granule of each bank that is ON; `upsets` are the
changes of stored bits that have come about.
DEDUCED: log 81. -/
def execScrubTick (upsets : List Upset) (s : State) : Out :=
  afterBoot s <|
  let s := upsets.foldl upset s
  if s.cm.scrubEn = false then .next s
  else
    let (k, s) := takeFree 1 s
    let n := if s.cm.scrubInterval = 0 then Config.freeNat k else s.cm.scrubInterval
    let s := advance (s.scrubAt + n * svcEc) s
    let g := s.cm.scrubGran
    let s := (List.range s.grade.banks).foldl (scrubBank g) { s with scrubAt := s.ec }
    .next (modCm (fun m => { m with
      scrubGran := (g + 1) % 8192
      scrubPasses := if g = 8191 then (m.scrubPasses + 1) % 2 ^ 19 else m.scrubPasses }) s)

/-- The corrected granule is stored again, whole, with good check bits. -/
def cleanGranule (a : Nat) (s : State) : State := { s with ecc := clearEcc s.ecc (a / 8) 8 }

/-- SCRUB_WRITEBACK (R191): the oldest corrected granule that nothing has written since, in a bank that still gives access. -/
def execScrubWriteback (s : State) : Out :=
  match s.cm.scrubWb with
  | [] => .next s
  | (b, g) :: rest =>
    let s := modCm (fun m => { m with scrubWb := rest }) s
    if bankOpen s b then .next (cleanGranule (granAddr s.grade b g) s) else .next s

/-! ### Repair (R192, R193) -/

/-- A repair request: its bank and row are stored; one during a copy does nothing else.
DEDUCED: log 34. -/
def repair (b row : Nat) (s : State) : State :=
  let s := modCm (fun m => { m with repBank := b, repRow := row }) s
  if s.cm.repBusy then s
  else if s.grade.banks ≤ b ∨ 8 ≤ (bank s b).spares ∨ (b, row) ∈ s.cm.repaired then modCm (fun m => { m with repNoSpare := true }) s
  else modCm (fun m => { m with repCopy := (b, row), repBusy := true, repOk := false, repNoSpare := false }) s

/-- CMEM_REPAIR (R192). -/
def execCmemRepair (bank row : Nat) (s : State) : Out := afterBoot s (.next (repair (bank % 128) (row % 512) s))

/-- A row stands on a spare. -/
def onSpare (b row : Nat) (s : State) : State :=
  modBank (modCm (fun m => { m with repaired := m.repaired ++ [(b, row)] }) s) b (fun k => { k with spares := k.spares + 1 })

/-- REPAIR_SWITCH (R192): at a turn boundary; data and check bits of the row are as they were. -/
def execRepairSwitch (s : State) : Out :=
  if s.cm.repBusy = false then .next s
  else .next (modCm (fun m => { m with repBusy := false, repOk := true }) (onSpare s.cm.repCopy.1 s.cm.repCopy.2 (toTurn s)))

end Sys2Proof.Machine
end

