-- ==== Sys2Proof/Machine/Power.lean ====
section
/-!
DEFINITION. Clocks and power (chapter 17): the stretch sources and the effective factor, die temperature, power limit, clock
gating, loss of the root PLL and internal parity.
-/
namespace Sys2Proof.Machine

/-- Change the PWR block. -/
def modPwr (f : PwrSt → PwrSt) (s : State) : State := { s with pwr := f s.pwr }

/-- Ticks of wall time in a root cycle: 3.2 GHz (R372). -/
def rootTicks : Nat := 12

/-! ### The effective factor (R374, R375) -/

/-- The largest factor code that a source requests. -/
def wanted (p : PwrSt) : Nat :=
  Nat.max (Nat.max (if p.held then p.droopFactor + 1 else 0) (if p.persist then 4 else 0))
    (Nat.max (if p.thermal then p.thermFactor + 1 else 0) p.limitCode)

/-- A change of the effective factor, with its STRETCH record (R406). -/
def setFactor (code : Nat) (s : State) : State :=
  let s := modPwr (fun p => { p with stepAt := s.wall }) { s with factor := code }
  trace { kind := 11, time := s.ec, argA := code } s

/-- A rise takes effect at once; a fall waits for its steps. -/
def riseFactor (s : State) : State := if s.factor < wanted s.pwr then setFactor (wanted s.pwr) s else s

/-- STRETCH_FALL_STEP (R375): a code is held for 240 root cycles, then the next lower one applies, no lower than the largest
requested. -/
def execStretchFallStep (s : State) : Out :=
  if s.factor ≤ wanted s.pwr then .next s
  else .next (setFactor (s.factor - 1) (advanceWall (s.pwr.stepAt + 240 * rootTicks) s))

/-! ### Droop (R376, R377) -/

/-- Whether a source asserts the droop signal: the input if it acts, a detector that acts from det_mv below nominal on
(R376, R382). -/
def droopActs (p : PwrSt) : DroopSrc → Bool
  | .input => p.extEn
  | .detector mv => p.detEn && decide (p.detMv ≤ mv)

/-- The source of an assertion: the input while it acts, so that every assertion is accepted; a detector otherwise, and how far its
supply has fallen is open.
DESIGN CHOICE: log 88. -/
def droopSource (p : PwrSt) (k : Nat) : DroopSrc := if p.extEn then .input else .detector (Config.freeNat k)

/-- A source asserts the droop signal (R376): while the request is held the quiet begins anew.
DEDUCED: log 88. -/
def assertDroop (src : DroopSrc) (s : State) : State :=
  if droopActs s.pwr src = false then s
  else if s.pwr.held then modPwr (fun p => { p with droopAt := s.wall }) s
  else riseFactor (modPwr (fun p => { p with
    held := true, heldAt := s.wall, droopAt := s.wall, episodes := (p.episodes + 1) % 2 ^ 32 }) s)

/-- PM_DROOP (R376): an assertion of the droop signal. -/
def execPmDroop (s : State) : Out :=
  let (k, s) := takeFree 1 s
  .next (assertDroop (droopSource s.pwr k) s)

/-- DROOP_RELEASE (R376): the signal has stayed deasserted for 64 root cycles.
DEDUCED: log 88. -/
def execDroopRelease (s : State) : Out :=
  if s.pwr.held = false then .next s
  else
    let s := advanceWall (s.pwr.droopAt + 64 * rootTicks) s
    .next (modPwr (fun p => { p with held := false, heldAt := s.wall }) s)

/-- PERSISTENT_DROOP (R377): the request has been held for 1 ms. -/
def execPersistentDroop (s : State) : Out :=
  if !s.pwr.held || s.pwr.persist then .next s
  else
    let s := advanceWall (s.pwr.heldAt + msTicks) s
    .next (riseFactor (modPwr (fun p => { p with persist := true }) (advise cPERS_DROOP {} [] s)))

/-- DROOP_RECOVERED (R377): it has been released for 1 ms. -/
def execDroopRecovered (s : State) : Out :=
  if s.pwr.held || !s.pwr.persist then .next s
  else
    let s := advanceWall (s.pwr.heldAt + msTicks) s
    .next (modPwr (fun p => { p with persist := false }) (advise cDROOP_REC {} [] s))

/-! ### Die temperature (R378) -/

/-- The pinions of the grade, all gated. -/
def allPins (s : State) : List Nat := List.range s.grade.pinions

/-- The die reaches its trip: fatal, every engine clock gated, the trip output on. -/
def dieTrip (t : Nat) (s : State) : State :=
  let s := coreFault cDIE_TRIP 6 [t] s
  modPwr (fun p => { p with tripped := true, tripEc := s.ec, tripOut := true, mxeGated := true, vxeGated := true, pinsGated := allPins s }) s

/-- DIE_TEMP_SAMPLE: the eight readings, every 10 µs; the hottest counts (R378). -/
def execDieTempSample (ts : List Nat) (s : State) : Out :=
  afterBoot s <|
  let t := ts.foldl Nat.max 0
  let s := advanceWall ((s.wall / (10 * usTicks) + 1) * (10 * usTicks)) s
  let s := modPwr (fun p => { p with dieTemp := t, margin := p.trip - t }) s
  let s :=
    if s.pwr.throttle ≤ t then
      if s.pwr.thermal then s
      else riseFactor (modPwr (fun p => { p with thermal := true }) (advise cDIE_THERMAL {} [t] s))
    else if t + s.pwr.hyst < s.pwr.throttle then modPwr (fun p => { p with thermal := false }) s
    else s
  .next (if s.pwr.trip ≤ t ∧ s.pwr.tripped = false then dieTrip t s else s)

/-! ### Power limit (R379) -/

/-- The average over the last 16 µs. -/
def powerAvg (p : PwrSt) : Nat := if p.hist = [] then 0 else p.hist.sum / p.hist.length

/-- The limit source after a new average: it raises its request when the average comes above the limit and after every further
16 µs above it, and lowers it after every 16 µs below 96% of it. -/
def limitStep (avg : Nat) (s : State) : State :=
  let p := s.pwr
  if p.limit < avg then
    let up := decide (p.above % 16 = 0)
    let s := modPwr (fun p => { p with
      above := p.above + 1, below := 0, limitCode := if up then Nat.min 4 (p.limitCode + 1) else p.limitCode }) s
    riseFactor (if p.above = 0 then advise cPOWER_LIMIT {} [avg, s.pwr.limitCode] s else s)
  else if avg * 100 < p.limit * 96 then
    let down := decide ((p.below + 1) % 16 = 0)
    modPwr (fun p => { p with above := 0, below := p.below + 1, limitCode := if down then p.limitCode - 1 else p.limitCode }) s
  else modPwr (fun p => { p with above := 0, below := 0 }) s

/-- The banks in a power state. -/
def banksIn (s : State) (p : PwrState) : Nat := ((List.range s.grade.banks).filter (fun b => decide ((bank s b).pw = p))).length

/-- The active AC of block k since the last estimate: those of the commands done, and those of the commands that run. -/
def activeAc (s : State) (k : Nat) : Nat :=
  SMap.get 0 s.pwr.active k + ((s.runs.filter (fun r => decide (blockOf r.opcode = some k))).map (fun r =>
    Nat.min (ac s) r.endAc - Nat.max r.startAc s.pwr.estAc)).sum

/-- The active AC of block k since the last estimate, where nothing says which AC are active for it: core memory, the XMU with the
link ports, and the rest of the core. They are open, none more than have passed.
DESIGN CHOICE: log 97. -/
def openActive (s : State) (id k : Nat) : Nat := Config.freeNat (id + k) % (ac s - s.pwr.estAc + 1)

/-- The core's estimate of its power over the last microsecond (R379): a static term for its bank and gating states, and the active
AC of each block of R381 with its weight; `id` is the first of its free numbers.
DESIGN CHOICE: log 97. -/
def estimate (s : State) (id : Nat) : Nat :=
  Config.staticMw s.grade.code (banksIn s .on + banksIn s .draining) (banksIn s .retain) (banksIn s .dark) s.pwr.mxeGated
      s.pwr.vxeGated s.pwr.pinsGated.length
    + ((List.range 3).map (fun k => Config.blockMw s.grade.code k * activeAc s k)).sum
    + ((List.range 3).map (fun k => Config.blockMw s.grade.code (3 + k) * openActive s id k)).sum

/-- POWER_ESTIMATE: the estimate of microsecond `us` of wall time, the one that ends next, and the average it gives (R379). -/
def execPowerEstimate (us : Nat) (s : State) : Out :=
  afterBoot s <|
  if us ≠ s.wall / usTicks + 1 then .next s
  else
  let (id, s) := takeFree 3 (advanceWall (us * usTicks) s)
  let s := modPwr (fun p => { p with hist := (estimate s id :: p.hist).take 16, active := [], estAc := ac s }) s
  .next (limitStep (powerAvg s.pwr) s)

/-! ### Gating (R380) -/

/-- Whether a command of the group is between start and done. -/
def groupRuns (s : State) (ops : List Nat) : Bool := s.runs.any (fun r => decide (r.opcode ∈ ops))

/-- Whether the MXE group, the VXE or a pinion is idle; a pinion for which a command has issued is kept awake for it.
DEDUCED: log 89. -/
def mxeIdle (s : State) : Bool :=
  decide (queue s .mxe = []) && decide (queue s .txb = []) && !groupRuns s [0x10, 0x11, 0x12, 0x13, 0x14, 0x15, 0x16, 0x18]
    && decide (levelAt s.mxe (ac s) = 0)
def vxeIdle (s : State) : Bool := decide (queue s .vxe = []) && !groupRuns s [0x20]
def pinRuns (s : State) (p : Nat) : Bool := s.runs.any (fun r => decide (p ∈ pinsOf s.grade r))
def pinIdle (s : State) (p : Nat) : Bool :=
  SMap.get false s.pin.fenced p ||
    (!pinRuns s p && !(queue s .pin).any (fun e => decide (p ∈ (pinNeeds s (wd e.words 0 % 256) e.words).map (pinionOf s.grade))))

/-- Whether a unit is idle: 0 the MXE group, 1 the VXE, 2 + p pinion p. -/
def unitIdle (s : State) (unit : Nat) : Bool :=
  match unit with
  | 0 => mxeIdle s
  | 1 => vxeIdle s
  | k + 2 => decide (k < s.grade.pinions) && pinIdle s k

/-- Whether its gating is enabled. -/
def unitCg (s : State) (unit : Nat) : Bool :=
  match unit with
  | 0 => s.pwr.mxeCg
  | 1 => s.pwr.vxeCg
  | _ => s.pwr.pinCg

/-- The AC from which an idle unit has been idle: its last command was done, the last entry left its queue, the array's level
had fallen to 0; a fenced pinion is idle from its fence on, also while its last command is not done yet. -/
def idleFrom (s : State) (unit : Nat) : Nat :=
  let last := SMap.get 0 s.pwr.lastBusy unit
  match unit with
  | 0 =>
    Nat.max (Nat.max last (s.mxe.lvlAc + 8 * s.mxe.lvl)) (Nat.max (SMap.get 0 s.headAt (qIdx .mxe)) (SMap.get 0 s.headAt (qIdx .txb)))
  | 1 => Nat.max last (SMap.get 0 s.headAt (qIdx .vxe))
  | p + 2 =>
    let fence := SMap.get 0 s.pin.fencedAt p
    let done := if SMap.get false s.pin.fenced p && (pinRuns s p || decide (fence < last)) then fence else last
    Nat.max done (SMap.get 0 s.pwr.wakeAt p)

/-- CLOCK_GATE: unit 0 is the MXE group, 1 the VXE, 2 + p pinion p; its clock stops once it has been idle for hyst_ac AC
(R380).
DEDUCED: log 89. -/
def execClockGate (unit : Nat) (s : State) : Out :=
  afterBoot s <|
  let a := idleFrom s unit + Nat.max 1 s.pwr.hystAc
  if !unitCg s unit || !unitIdle s unit || !settledAc s a then .next s
  else
    .next (modPwr (fun p =>
      match unit with
      | 0 => { p with mxeGated := true }
      | 1 => { p with vxeGated := true }
      | k + 2 => { p with pinsGated := insertNew k p.pinsGated }) (advance (2 * a) s))

/-! ### Fatal and core faults (R373, R405) -/

/-- PLL_UNLOCK (R373). -/
def execPllUnlock (s : State) : Out :=
  .next (coreFault cPLL 6 [] (modPwr (fun p => { p with pllLock := false, tripOut := true }) s))

/-- INTERNAL_PARITY (R405): 0 is the escapement, 1 to 6 the queues. -/
def execInternalParity (unit : Nat) (s : State) : Out := .next (coreFault cPARITY 5 [unit] s)

end Sys2Proof.Machine
end

