-- ==== Sys2Proof/Machine/Events.lean ====
section
/-!
DEFINITION. Outside events (R420–R423), the error log as host software works it (R402, R408), and the trace and its sinks
(R406, R407).
-/
namespace Sys2Proof.Machine

/-! ### Event inputs -/

/-- Event input i. -/
def evt (s : State) (i : Nat) : EvtIn := SMap.get {} s.evts i
/-- Change event input i. -/
def modEvt (i : Nat) (f : EvtIn → EvtIn) (s : State) : State := { s with evts := SMap.mod {} s.evts i f }

/-- An accepted assertion lasts through the cycle after which three quiet samples have come: the level falls at the fourth. -/
def quietFor : Nat := 4

/-- An input re-arms in service cycle c: its level reads 0, and four high samples are the next assertion. -/
def rearmed (c : Nat) (e : EvtIn) : EvtIn := { e with level := false, armAt := c + quietFor }

/-- Whether the line of event input i has fallen by now, and when, is open: it may have in any service cycle after those through
which its level is known to last.
DESIGN CHOICE: log 90. -/
def settleEvt (s : State) (i : Nat) : State :=
  let e := evt s i
  let c := s.ec / svcEc
  if e.level && decide (e.heldTo < c) then
    let (k, s) := takeFree 2 s
    modEvt i (fun e =>
      if Config.freeChoice k % 2 = 1 then rearmed (e.heldTo + 1 + Config.freeNat (k + 1) % (c - e.heldTo)) e
      else { e with heldTo := c }) s
  else s

/-- The levels of the four inputs as they are now. -/
def settleEvts (s : State) : State := (List.range 4).foldl settleEvt s

/-- Input i takes an assertion in service cycle c. -/
def asserted (c now : Nat) (e : EvtIn) : EvtIn :=
  { e with level := true, heldTo := c + quietFor - 1, since := now, count := (e.count + 1) % 256 }

/-- SV_EVT (R420, R421): an accepted assertion counts, and raises its pennant by 1 in the first AC after the service cycle. An input
whose level was still up re-armed first, so four quiet samples and four high ones lie between two assertions; a masked input raises
nothing.
DEDUCED: log 90. -/
def execSvEvt (i : Nat) (s : State) : Out :=
  afterBoot s <|
  let i := i % 4
  let e := evt s i
  if e.masked then .next s
  else
    let s := advance ((if e.level then e.heldTo + 1 + quietFor else e.armAt) * svcEc) s
    let s := modEvt i (asserted (s.ec / svcEc) s.wall) s
    if e.en then .next (raise 4 e.pennant 0 1 {} (advance ((s.ec / svcEc + 1) * svcEc) s)) else .next s

/-- EVT_STUCK (R420): asserted for stuck_ms of wall time; 0 is no timeout. An input known to have re-armed is not stuck.
DEDUCED: log 90. -/
def execEvtStuck (i : Nat) (s : State) : Out :=
  let i := i % 4
  let e := evt s i
  if !e.level || e.masked || decide (e.stuckMs = 0) then .next s
  else
    let s := advanceWall (e.since + e.stuckMs * msTicks) s
    .next (modEvt i (fun e => { e with stuck := true, masked := true, heldTo := s.ec / svcEc }) s)

/-- An input is unmasked: the next assertion needs a fresh quiet (R421). -/
def evtUnmask (i : Nat) (s : State) : State :=
  let c := s.ec / svcEc
  if (evt s i).masked then
    modEvt i (fun e => { e with
      masked := false, heldTo := Nat.max e.heldTo (c + quietFor - 1), armAt := Nat.max e.armAt (c + 2 * quietFor) }) s
  else s

/-- EVT_UNMASK (R421). -/
def execEvtUnmask (i : Nat) (s : State) : Out := afterBoot s (.next (evtUnmask (i % 4) s))

/-! ### The error log -/

/-- The oldest placed PENDING entry of highest severity becomes ACTIVE (R402). -/
def promote (e : ErrSt) : ErrSt :=
  holdSev { e with active := (worstOf (pendingEntries { e with active := none })).map (fun x => x.slot) }

/-- A write of ack: the ACTIVE entry is freed. -/
def errAck (s0 : State) : State :=
  let s := settleErr s0
  match s.err.active with
  | none => s
  | some k => { s with err := promote { s.err with log := s.err.log.filter (fun x => decide (x.slot ≠ k)), active := none } }

/-- A write of flush: every entry is freed. -/
def errFlush (s : State) : State := { s with err := { (settleErr s).err with log := [], active := none } }

/-- ERR_ACK (R402). -/
def execErrAck (s : State) : Out := .next (inOwnEc 0 errAck s)
/-- ERR_FLUSH (R408). -/
def execErrFlush (s : State) : Out := .next (inOwnEc 0 errFlush s)

/-! ### Trace -/

/-- A write of ERR_TRC_MARK (R406). -/
def trcMark (v : Nat) (s : State) : State := trace { kind := 9, time := s.ec, argB := v } s

/-- ERR_TRC_MARK. -/
def execErrTrcMark (v : W32) (s : State) : Out := .next (inOwnEc 0 (trcMark v.toNat) s)

/-- The writer that the trace is in block b of its ring (R407). -/
def trcWriter (b : Nat) : Nat := 2 ^ 38 + b

/-- One record leaves for its sink: the trace port, or the external ring, whose block is one writer. A record for a block that
does not exist is lost; one that finds no room in the write-combining buffer waits.
DEDUCED: log 91. -/
def sinkRecord (ws : List Nat) (s : State) : Option State :=
  let e := s.err
  if e.trcSink = 2 ∧ 0 < e.trcSize then
    let b := e.trcBase + e.trcRingPos / 1024 % e.trcSize
    let a := b * 16384 + e.trcRingPos % 1024 * 16
    match extFault s.xmu a 16 with
    | some _ => some s
    | none =>
      if roomForLines s.xmu [(a, 16)] then
        let s := acceptBytes (trcWriter b) {} a (bytesOfWords ws) s
        let s := if e.trcRingPos % 1024 = 1023 then endWriter (trcWriter b) s else s
        some { s with err := { s.err with trcRingPos := e.trcRingPos + 1 } }
      else none
  else if e.trcSink = 1 then some (emit (.traceOut ws) s)
  else some s

/-- The records on their way leave, in order.
DESIGN CHOICE: log 3. -/
def drainTrace : (fuel : Nat) → State → State
  | 0, s => s
  | fuel + 1, s =>
    match s.err.trcQ with
    | [] => s
    | r :: rest =>
      match sinkRecord r s with
      | none => s
      | some s => drainTrace fuel { s with err := { s.err with trcQ := rest } }

/-- What happens in an EC in which no command comes: it passes, a fill that waits to finish goes on, and trace records leave.
DESIGN CHOICE: log 3. -/
def idle (s0 : State) : State :=
  let s := settleTrace (finishLate (tick s0))
  drainTrace s.err.trcQ.length s

end Sys2Proof.Machine
end

