-- ==== Sys2Proof/Machine/Sign.lean ====
section
/-!
DEFINITION. The signature of a Bezel report (R392): the SHA-384 digest, ECDSA on curve P-384, and r and s as 48-byte big-endian
integers. The signing key and the nonces are free values; the arithmetic is the one the standards named in R392 define.
PRESUMED: log 115.
-/
namespace Sys2Proof.Machine

/-! ### SHA-384 -/

/-- The largest n below 2^bits with n^k at most x. -/
def rootBelow (k x : Nat) : (bits : Nat) → Nat → Nat
  | 0, n => n
  | b + 1, n => rootBelow k x b (if (n + 2 ^ b) ^ k ≤ x then n + 2 ^ b else n)

/-- The primes up to 409: the first 80. -/
def shaPrimes : List Nat := (List.range 410).filter (fun p => decide (2 ≤ p) && (List.range p).all (fun d => d < 2 || p % d != 0))

/-- The round constants: the first 64 bits of the fractional parts of the primes' cube roots. -/
def shaK : List Nat := shaPrimes.map (fun p => rootBelow 3 (p * 2 ^ 192) 68 0 % 2 ^ 64)

/-- The first hash value: the same of the square roots of the ninth to the sixteenth prime. -/
def shaInit : List Nat := ((shaPrimes.drop 8).take 8).map (fun p => rootBelow 2 (p * 2 ^ 128) 68 0 % 2 ^ 64)

/-- A 64-bit word turned right by n bits. -/
def rotr64 (n x : Nat) : Nat := x / 2 ^ n + x % 2 ^ n * 2 ^ (64 - n)

/-- The exclusive or of three words. -/
def xor3 (a b c : Nat) : Nat := (a ^^^ b) ^^^ c

/-- The next word of the schedule, from the words so far, the latest first. -/
def shaNext (ws : List Nat) : Nat :=
  let a := wd ws 1
  let b := wd ws 14
  (xor3 (rotr64 19 a) (rotr64 61 a) (a / 2 ^ 6) + wd ws 6 + xor3 (rotr64 1 b) (rotr64 8 b) (b / 2 ^ 7) + wd ws 15) % 2 ^ 64

/-- n more words of the schedule. -/
def shaSchedule : Nat → List Nat → List Nat
  | 0, ws => ws
  | n + 1, ws => shaSchedule n (shaNext ws :: ws)

/-- One round on the eight working words. -/
def shaRound (h : List Nat) (kw : Nat × Nat) : List Nat :=
  match h with
  | [a, b, c, d, e, f, g, i] =>
    let t1 := i + xor3 (rotr64 14 e) (rotr64 18 e) (rotr64 41 e) + ((e &&& f) ^^^ ((2 ^ 64 - 1 - e) &&& g)) + kw.1 + kw.2
    let t2 := xor3 (rotr64 28 a) (rotr64 34 a) (rotr64 39 a) + xor3 (a &&& b) (a &&& c) (b &&& c)
    [(t1 + t2) % 2 ^ 64, a, b, c, (d + t1) % 2 ^ 64, e, f, g]
  | h => h

/-- The value of a big-endian list of bytes, and the n bytes of a value. -/
def ofBE (bs : List W8) : Nat := ofLE bs.reverse
def toBE (n x : Nat) : List W8 := (leBytes n x).reverse

/-- A block of 128 bytes into the hash value. -/
def shaBlock (h : List Nat) (bs : List W8) : List Nat :=
  let ws := (List.range 16).map (fun i => ofBE (slice (8 * i) 8 bs))
  List.zipWith (fun a b => (a + b) % 2 ^ 64) h ((shaK.zip (shaSchedule 64 ws.reverse).reverse).foldl shaRound h)

/-- The message with its padding. -/
def shaPad (m : List W8) : List W8 :=
  m ++ [0x80#8] ++ List.replicate ((239 - m.length % 128) % 128) 0#8 ++ toBE 16 (8 * m.length)

/-- The SHA-384 digest. -/
def sha384 (m : List W8) : List W8 :=
  let p := shaPad m
  let h := (List.range (p.length / 128)).foldl (fun h i => shaBlock h (slice (128 * i) 128 p)) shaInit
  (h.take 6).flatMap (toBE 8)

/-! ### ECDSA on P-384 -/

/-- The field of the curve, whose equation is y² = x³ - 3x + b. -/
def p384 : Nat := 2 ^ 384 - 2 ^ 128 - 2 ^ 96 + 2 ^ 32 - 1

/-- The order of the base point. -/
def n384 : Nat := 0xffffffffffffffffffffffffffffffffffffffffffffffffc7634d81f4372ddf581a0db248b0a77aecec196accc52973

/-- The base point. -/
def g384 : Nat × Nat :=
  (0xaa87ca22be8b05378eb1c71ef320ad746e1d3b628ba79b9859f741e082542a385502f25dbf55296c3a545e3872760ab7,
   0x3617de4a96262c6f5d9e98bf9292dc29f8f41dbd289a147ce9da3113b5f0b8c00a60b1ce1d7e819d7a431d7c90ea0e5f)

/-- x^e modulo m, over the bits of e from bit b down. -/
def powMod (m x e : Nat) : (b : Nat) → Nat → Nat
  | 0, a => a
  | b + 1, a => powMod m x e b (a * a % m * (if e.testBit b then x else 1) % m)

/-- The inverse modulo a prime of at most 384 bits. -/
def invMod (m x : Nat) : Nat := powMod m (x % m) (m - 2) 384 1

/-- The difference in the field. -/
def subP (a b : Nat) : Nat := (a + p384 - b % p384) % p384

/-- The sum of two points; none is the point at infinity. -/
def addPt : Option (Nat × Nat) → Option (Nat × Nat) → Option (Nat × Nat)
  | none, q => q
  | p, none => p
  | some (x, y), some (u, v) =>
    if x = u ∧ (y + v) % p384 = 0 then none
    else
      let l := (if x = u then subP (3 * x * x) 3 * invMod p384 (2 * y) else subP v y * invMod p384 (subP u x)) % p384
      let z := subP (l * l) (x + u)
      some (z, subP (l * subP x z) y)

/-- The multiple k of a point, over the bits of k from bit b down. -/
def mulPt (k : Nat) (p : Nat × Nat) : (b : Nat) → Option (Nat × Nat) → Option (Nat × Nat)
  | 0, a => a
  | b + 1, a => mulPt k p b (addPt (addPt a a) (if k.testBit b then some p else none))

/-- r and s of a digest z under key d with the nonce k. -/
def ecdsa (d k z : Nat) : Nat × Nat :=
  let r := match mulPt k g384 384 none with | some p => p.1 % n384 | none => 0
  (r, invMod n384 k * ((z + r * d) % n384) % n384)

/-- A free number brought into 1 to n - 1. -/
def inField (x : Nat) : Nat := 1 + x % (n384 - 1)

/-- The signature of a digest: a nonce that gives a zero is not used. -/
def signWith (d z : Nat) : (fuel id : Nat) → Nat × Nat
  | 0, id => ecdsa d (inField (Config.bezelNonce id)) z
  | f + 1, id =>
    let rs := ecdsa d (inField (Config.bezelNonce id)) z
    if rs.1 = 0 ∨ rs.2 = 0 then signWith d z f (id + 1) else rs

/-- The 96 bytes of the signature of a body (R392) by the key of a Bezel, its nonces numbered from id. -/
def signBody (unit id : Nat) (body : List W8) : List W8 :=
  let rs := signWith (inField (Config.bezelKey unit)) (ofBE (sha384 body) % n384) 8 id
  toBE 48 rs.1 ++ toBE 48 rs.2

end Sys2Proof.Machine
end

