-- ==== Sys2Proof/Machine/Bezel.lean ====
section
/-!
DEFINITION. The Bezel meter (chapter 18): tap frames, counters, reports, the seal log and the mirror.
-/
namespace Sys2Proof.Machine

/-- Change the Bezel. -/
def modBezel (f : BezelSt → BezelSt) (s : State) : State := { s with bezel := f s.bezel }

/-- Whether the grade has a Bezel (R13, R383). -/
def bezelPresent (s : State) : Bool := decide (s.grade ≠ .lean)

/-- Whether it is there and powered. -/
def bezelOn (s : State) : Bool := bezelPresent s && s.bezel.powered

/-! ### Tap frames (R389) -/

/-- The rows of a running STREAM that have not entered the array by AC t, as units of a counter (R386). -/
def notEntered (s : State) (t : Nat) (r : Run) : Nat × Nat :=
  let v := (spanOf s r.seat).view
  let ws := r.ent.words
  let M := if bit (wd ws 5) 23 then v.mxe.lastM else bits (wd ws 5) 11 0
  let trow := (streamRow { s with mxe := v.mxe } ws).getD 1
  macUnits { s with mxe := v.mxe } ws
    ((List.range M).filter (fun m => decide (t < r.startAc + advanceAc v.mxe.lvl 8 0 (m * trow)))).length

/-- The units that a total counts already for rows that have not entered yet. -/
def ahead (s : State) (i : Nat) : Nat :=
  ((s.runs.filter (fun r => decide (r.opcode = 0x13) && decide (r.seat ≠ 0))).map (fun r =>
    let u := notEntered s (ac s) r
    if u.1 = i then u.2 else 0)).sum

/-- A tap frame's words 0 to 30; the first one after reset has totals of zero. -/
def tapWords (s : State) : List Nat :=
  [s.tap.frames % 2 ^ 16 + b2n s.tap.first * 2 ^ 16, s.pos % 2 ^ 22]
    ++ (List.range 19).map (fun i =>
      if s.tap.first then 0 else (SMap.get 0 s.tap.tot i + 2 ^ 32 - ahead s i % 2 ^ 32) % 2 ^ 32) ++ List.replicate 10 0

/-- A tap frame. -/
def tapBytes (s : State) : List W8 :=
  let ws := tapWords s
  bytesOfWords (ws ++ [crc32c (bytesOfWords ws)])

/-- A frame goes to the Bezel; on Lean the tap outputs hold their reset values. -/
def sendTap (s : State) : State :=
  if bezelPresent s then
    let s := emit (.tap (tapBytes s)) s
    { s with tap := { s.tap with frames := (s.tap.frames + 1) % 2 ^ 16, first := false } }
  else s

/-- TAP_FRAME_SEND (R389): every 16 service cycles. -/
def execTapFrameSend (s : State) : Out := afterBoot s (.next (sendTap (advance ((s.ec / 256 + 1) * 256) s)))

/-- Word i of a frame. -/
def frameWord (ws : List W8) (i : Nat) : Nat := ofLE (slice (4 * i) 4 ws)

/-- The totals of a frame. -/
def frameTotals (ws : List W8) : SMap Nat := (List.range 19).foldl (fun m i => SMap.set 0 m i (frameWord ws (2 + i))) []

/-- What the counters become with the differences of a frame (R389). -/
def addFrame (b : BezelSt) (ws : List W8) : SMap Nat :=
  (List.range 19).foldl (fun m i =>
    SMap.set 0 m i ((SMap.get 0 b.counters i + (frameWord ws (2 + i) + 2 ^ 32 - SMap.get 0 b.last i) % 2 ^ 32) % 2 ^ 64)) []

/-- TAP_FRAME: the Bezel takes a frame (R389). -/
def execTapFrame (ws : List W8) (s : State) : Out :=
  if bezelOn s = false then .next s
  else if crc32c (ws.take 124) ≠ frameWord ws 31 then
    .next (modBezel (fun b => { b with tapErrors := (b.tapErrors + 1) % 2 ^ 16 }) s)
  else
    let first : Bool := bit (frameWord ws 0) 16
    .next (modBezel (fun b => { b with
      counters := if first || b.rebase then b.counters else addFrame b ws
      last := frameTotals ws, rebase := false, lastFrame := s.wall
      position := bits (frameWord ws 1) 21 0, coreReset := b.coreReset || first }) s)

/-- TAP_GAP (R389): no frame accepted for 1 ms of Bezel time. -/
def execTapGap (s : State) : Out :=
  if bezelOn s = false then .next s
  else .next (modBezel (fun b => { b with tapGap := true, rebase := true }) (advanceWall (s.bezel.lastFrame + msTicks) s))

/-! ### Reports (R391, R392) -/

/-- Periods of the 25 MHz reference since power-up: 40 ns each. -/
def timeTicks (s : State) : Nat := (s.wall - s.bezel.upAt) / 1536

/-- What the sense inputs showed since the last sample taken: the lowest and the highest voltage of the supply in mV, and the lowest
and the highest average power of a millisecond and the average of them all in µW.
DESIGN CHOICE: log 92. -/
structure Sensed where
  lowMv : Nat
  highMv : Nat
  lowUw : Nat
  highUw : Nat
  meanUw : Nat
deriving DecidableEq, Repr

/-- The free readings numbered from k; the mean lies between the two extremes. -/
def sensedAt (k : Nat) : Sensed :=
  let v := Config.freeNat k
  let p := Config.freeNat (k + 2)
  let r := Config.freeNat (k + 3)
  ⟨v, v + Config.freeNat (k + 1), p, p + r, p + Config.freeNat (k + 4) % (r + 1)⟩

/-- The conditions under which R388 states an accuracy: 0.65 to 0.95 V, and 1 to 70 W over each millisecond. -/
def Sensed.inRange (r : Sensed) : Bool :=
  decide (650 ≤ r.lowMv) && decide (r.highMv ≤ 950) && decide (1000000 ≤ r.lowUw) && decide (r.highUw ≤ 70000000)

/-- The energy a calibration gives for readings over a number of periods, in units of 40 fJ: within 1.5% of the true one inside
the range, and any outside it (R388). -/
def integrated (cal k periods : Nat) (r : Sensed) : Nat :=
  if r.inRange then
    let e := Config.senseError cal k
    (r.meanUw * periods * (1000 + (if -15 ≤ e ∧ e ≤ 15 then e else 0)).toNat) / 1000
  else Config.freeNat (k + 5)

/-- The Bezel brings its energy up to now (R385, R388), with the calibration in force; the counter wraps modulo 2^64 µJ.
DESIGN CHOICE: log 92. -/
def takeSense (s : State) : State :=
  let (k, s) := takeFree 6 s
  let t := timeTicks s
  let r := sensedAt k
  modBezel (fun b => { b with
    energy := (b.energy + integrated b.calId k (t - b.sensed) r) % (2 ^ 64 * 25000000)
    sensed := t
    outOfRange := b.outOfRange || !r.inRange }) s

/-- The low and the high word of a 64-bit value. -/
def words64 (n : Nat) : List Nat := [n % 2 ^ 32, n / 2 ^ 32 % 2 ^ 32]

/-- Words 0 to 103 of a report (R392). -/
def reportWords (s : State) (kind seq ticks : Nat) : List Nat :=
  let b := s.bezel
  padTo 0 104 ([1 + s.grade.code * 2 ^ 16 + kind * 2 ^ 24] ++ words64 (Config.bezelSerial b.unit).toNat ++ [b.epoch % 2 ^ 32, seq % 2 ^ 32]
    ++ words64 ticks
    ++ [b.position % 2 ^ 22, b2n b.outOfRange + b2n b.tapGap * 2 + b2n b.coreReset * 4 + b2n (decide (256 ≤ b.log.length)) * 8,
        b.calId, b.fw, b.log.length, 0, 0, 0, 0]
    ++ (List.range 19).flatMap (fun i => words64 (SMap.get 0 b.counters i)) ++ words64 (b.energy / 25000000))

/-- The publish path (R384, R398): what it puts into the mirror with every rewrite; the generation rises at its start and its end.
DEDUCED: log 35. -/
def publish (now : Nat) (b : BezelSt) : BezelSt :=
  { b with mirror := { b.mirror with
      gen := (b.mirror.gen + 2) % 2 ^ 32, epoch := b.epoch, seq := b.seq, tapErrors := b.tapErrors, retired := b.retired
      log := b.log, cert := Config.bezelCert b.unit, at_ := some now } }

/-- A report of a kind is signed, and the mirror's report block is rewritten: at most one in a millisecond (R391, R392, R398). -/
def signReport (kind ticks : Nat) (s : State) : State :=
  if s.bezel.retired then s
  else
    let s := match s.bezel.signedAt with | some t => advanceWall (t + msTicks) s | none => s
    let (k, s) := takeFree 9 s
    let body := bytesOfWords (reportWords s kind (s.bezel.seq + 1) ticks)
    let rep := body ++ signBody s.bezel.unit k body
    modBezel (fun b => publish s.wall { b with
      seq := b.seq + 1, tapGap := false, coreReset := false, outOfRange := false
      signedAt := some s.wall, latest := rep, mirror := { b.mirror with report := rep } }) s

/-- A report at one sample of now. -/
def reportNow (kind : Nat) (s : State) : State :=
  let s := takeSense s
  signReport kind (timeTicks s) s

/-- When the next periodic report is due. -/
def periodicDue (s : State) : Nat := s.bezel.since + s.bezel.interval * secTicks

/-- The periodic report is signed. -/
def periodic (s : State) : State :=
  let s := advanceWall (periodicDue s) s
  reportNow 0 (modBezel (fun b => { b with since := s.wall }) s)

/-- PERIODIC_REPORT (R391). -/
def execPeriodicReport (s : State) : Out := if bezelOn s && !s.bezel.retired then .next (periodic s) else .next s

/-- The Bezel answers on its management interface. -/
def answer (bs : List W8) (s : State) : State := emit (.report bs) s

/-- Whether the latest report is a periodic one, signed within the last millisecond. -/
def justPeriodic (s : State) : Bool :=
  decide (frameWord s.bezel.latest 0 / 2 ^ 24 % 256 = 0) &&
    (match s.bezel.signedAt with | some t => decide (s.wall < t + msTicks) | none => false)

/-- REPORT (R391): a requested report; within 1 ms of a periodic one that one serves. -/
def execReport (s : State) : Out :=
  if !bezelOn s || s.bezel.retired then .next s
  else if justPeriodic s then .next (answer s.bezel.latest s)
  else
    let s := if periodicDue s < s.wall + msTicks then periodic s else reportNow 1 s
    .next (answer s.bezel.latest s)

/-- SET_INTERVAL (R394): 1 to 3,600 s. -/
def execSetInterval (n : Nat) (s : State) : Out :=
  if bezelOn s && decide (1 ≤ n) && decide (n ≤ 3600) then
    .next (modBezel (fun b => { b with interval := n, since := s.wall }) s)
  else .next s

/-- READ_REPORT (R394). -/
def execReadReport (s : State) : Out := if bezelOn s then .next (answer s.bezel.latest s) else .next s

/-- READ_CERT (R393, R394). -/
def execReadCert (s : State) : Out := if bezelOn s then .next (answer (Config.bezelCert s.bezel.unit) s) else .next s

/-- A seal-log entry of 16 bytes (R395). -/
def sealBytes (e : SealEnt) : List W8 := bytesOfWords [e.kind, e.epoch % 2 ^ 32, e.seq % 2 ^ 32, e.detail]

/-- READ_LOG (R394, R395). -/
def execReadLog (s : State) : Out := if bezelOn s then .next (answer (s.bezel.log.flatMap sealBytes) s) else .next s

/-! ### Seal log, power, packages (R390, R394–R397) -/

/-- An entry is written to the seal log while it has room. -/
def sealEntry (e : SealEnt) (b : BezelSt) : BezelSt := if 256 ≤ b.log.length then b else { b with log := b.log ++ [e] }

/-- BEZEL_SUPPLY_LOSS (R390). -/
def execBezelSupplyLoss (s : State) : Out := .next (modBezel (fun b => { b with powered := false }) s)

/-- The powered Bezel begins its next epoch with counters of zero (R390). -/
def newEpoch (now : Nat) (b : BezelSt) : BezelSt :=
  { b with
    powered := true, epoch := b.epoch + 1, seq := 0, upAt := now, counters := [], last := [], rebase := true
    lastFrame := now, energy := 0, sensed := 0, outOfRange := false, tapGap := false, coreReset := false, tapErrors := 0
    since := now, signedAt := none, latest := [] }

/-- Another Bezel instance comes into service on the same taps (R397): its own epoch, serial, key, certificate and log, and an
opening report first; the core sees no change but what it publishes.
DESIGN CHOICE: log 116. -/
def replaceBezel (s : State) : State :=
  let s := modBezel (fun b => newEpoch s.wall { unit := b.unit + 1, epoch := 0, mirror := b.mirror }) s
  signReport 3 (timeTicks s) s

/-- BEZEL_POWER_UP (R390, R395): a new epoch with counters of zero; the log names the epoch that ended. Where the Bezel on the taps
is retired, what powers up is the instance that replaces it, or, if its own supply was lost, one of the two (R397).
DESIGN CHOICE: log 116. -/
def execBezelPowerUp (s : State) : Out :=
  if !bezelPresent s || (s.bezel.powered && !s.bezel.retired) then .next s
  else
    let (k, s) := takeFree (b2n s.bezel.retired) s
    if s.bezel.retired && (s.bezel.powered || Config.freeChoice k % 2 = 1) then .next (replaceBezel s)
    else .next (modBezel (fun b => newEpoch s.wall (sealEntry ⟨3, b.epoch, b.seq, 0⟩ b)) s)

/-- BEZEL_GLITCH (R395). -/
def execBezelGlitch (s : State) : Out :=
  if bezelOn s then .next (modBezel (fun b => sealEntry ⟨4, b.epoch, b.seq, 0⟩ b) s) else .next s

/-- A package takes effect between a closing and an opening report with equal counters (R396). -/
def install (kind detail : Nat) (f : BezelSt → BezelSt) (s : State) : State :=
  let s := takeSense s
  let ticks := timeTicks s
  let s := signReport 2 ticks s
  let s := modBezel (fun b => f (sealEntry ⟨kind, b.epoch, b.seq, detail⟩ b)) s
  signReport 3 ticks s

/-- Whether a package of a signer is accepted: its check passes, the log has room, and the Bezel still signs (R394, R395). -/
def accepts (s : State) (key : Nat) (pkg : List W8) : Bool :=
  bezelOn s && Config.bezelVerify key pkg && decide (s.bezel.log.length < 256) && !s.bezel.retired

/-- FW_LOAD (R394, R396): its version must exceed the one in force. -/
def execFwLoad (pkg : List W8) (s : State) : Out :=
  let v := (Config.pkgNumber pkg).toNat
  if accepts s 0 pkg && decide (s.bezel.fw < v) then .next (install 1 v (fun b => { b with fw := v }) s) else .next s

/-- CAL_LOAD (R396). -/
def execCalLoad (pkg : List W8) (s : State) : Out :=
  let v := (Config.pkgNumber pkg).toNat
  if accepts s 1 pkg then .next (install 2 v (fun b => { b with calId := v }) s) else .next s

/-- RETIRE (R397): a final report, its entry, and no report any more. -/
def execRetire (pkg : List W8) (s : State) : Out :=
  if bezelOn s && Config.bezelVerify 1 pkg && !s.bezel.retired then
    .next (modBezel (fun b => { sealEntry ⟨5, b.epoch, b.seq, 0⟩ b with retired := true }) (reportNow 4 s))
  else .next s

/-! ### The mirror (R398) -/

/-- BEZEL_LIVE_PUBLISH (R398): every 1 ms of Bezel time words 0 to 63 of a report of kind 5, not signed. -/
def execBezelLivePublish (s : State) : Out :=
  if bezelOn s = false then .next s
  else
    let s := takeSense (advanceWall ((s.wall / msTicks + 1) * msTicks) s)
    let live := bytesOfWords ((reportWords s 5 s.bezel.seq (timeTicks s)).take 64)
    .next (modBezel (fun b => publish s.wall { b with mirror := { b.mirror with live := live } }) s)

end Sys2Proof.Machine
end

