-- ==== Sys2Proof/Machine/RegsRead.lean ====
section
/-!
DEFINITION. What a host read of each register returns (R438, R10, R441): the tables of R13, R59, R85, R109, R133, R165, R194,
R228, R267, R317, R338, R352, R371, R382, R398, R403, R408, R423, R437, R443 and R444. A read changes nothing. Offsets that no
table gives read as zero.
-/
namespace Sys2Proof.Machine

/-- Entry and offset in it of an array of `n` entries of `stride` bytes at `base`. -/
def inArr (base stride n o : Nat) : Option (Nat × Nat) :=
  if base ≤ o ∧ o < base + stride * n then some ((o - base) / stride, (o - base) % stride) else none

/-- The word of a 64-bit value that an offset within it names. -/
def half (v r : Nat) : Nat := if r = 0 then v % 2 ^ 32 else if r = 4 then v / 2 ^ 32 % 2 ^ 32 else 0

/-- Fields of w bits packed from bit 0, field 0 lowest. -/
def packed (w : Nat) (l : List Nat) : Nat := l.foldr (fun x acc => x % 2 ^ w + acc * 2 ^ w) 0

/-- Bits of a predicate on 0 to n − 1. -/
def bitsOf (n : Nat) (p : Nat → Bool) : Nat := packed 1 ((List.range n).map (fun i => b2n (p i)))

/-! ### Block 0: ID (R13, R423, R443) and escapement (R228) -/

/-- ID_EVT_CFG_i. -/
def evtCfgWord (e : EvtIn) : Nat := e.pennant + b2n e.en * 2 ^ 12 + e.stuckMs * 2 ^ 16

/-- The ID and size table block; all but ID_SCRATCH read as zero until the fuses are read. -/
def idReg (s : State) (o : Nat) : Nat :=
  if o = 0x14 then s.scratch
  else if s.nvs.phase < 2 then 0
  else
    match o with
    | 0x00 => 0x00010D41
    | 0x04 => 0x0001 + Config.dieStepping.toNat % 2 ^ 8 * 2 ^ 16
    | 0x08 => Config.dieSerial.toNat % 2 ^ 32
    | 0x0C => Config.dieSerial.toNat / 2 ^ 32
    | 0x10 => 1 + 2 * b2n (decide (8 ≤ s.nvs.phase))
    | 0x410 =>
      bitsOf 4 (fun i => (evt s i).level) + bitsOf 4 (fun i => (evt s i).stuck) * 2 ^ 4
        + bitsOf 4 (fun i => (evt s i).masked) * 2 ^ 8 + b2n s.xmu.mtempStuck * 2 ^ 12 + b2n s.xmu.mtempMasked * 2 ^ 13
        + b2n s.isolateSeen * 2 ^ 14 + b2n s.pwr.held * 2 ^ 15
    | 0x414 => packed 8 ((List.range 4).map (fun i => (evt s i).count))
    | _ =>
      match inArr 0x100 4 27 o with
      | some (n, _) => sizeTable s.grade n
      | none =>
        match inArr 0x400 4 4 o with
        | some (i, _) => evtCfgWord (evt s i)
        | none => 0

/-- The code of a context's state. -/
def cstateCode : CState → Nat
  | .stopped => 0 | .running => 1 | .quiesced => 2

/-- Whether a context is at an untimed point not yet released.
DEDUCED: log 35. -/
def atUntimed (x : CtxSt) : Bool :=
  decide (x.cstate = .running) && (match x.point with | .inSection => false | .released _ => false | _ => true)

/-- The registers of a context.
DEDUCED: log 35. -/
def ctxReg (s : State) (c : Ctx) (r : Nat) : Nat :=
  let x := ctx s c
  match r with
  | 0x00 => x.prio * 2 ^ 4
  | 0x04 => cstateCode x.cstate + b2n x.paused * 2 ^ 2 + b2n (drained s c) * 2 ^ 3 + b2n (atUntimed x) * 2 ^ 4
      + b2n x.imageValid * 2 ^ 5 + b2n x.parRefused * 2 ^ 6
  | 0x08 => x.faultCode + x.faultTag * 2 ^ 16
  | 0x0C => x.summary.toNat + x.firstTag * 2 ^ 16
  | 0x10 => x.codeBase + x.codeSize * 2 ^ 16
  | 0x14 => x.affBase + x.affSize * 2 ^ 16
  | 0x18 => x.spillBlk
  | 0x1C => x.pos % 2 ^ 15
  | 0x20 => x.pred.toNat + x.loops.length * 2 ^ 16 + bitsOf 8 (fun k => (SMap.get {} x.cmps k).armed) * 2 ^ 19
  | 0x24 => x.issued
  | _ => 0

/-- The escapement block. -/
def escReg (s : State) (o : Nat) : Nat :=
  let occ (q : QName) : Nat := (queue s q).length
  match o with
  | 0x1000 => (match s.dispatched with | some c => 1 + 2 * c.val | none => 0) + b2n s.switching * 2 ^ 4
  | 0x1004 => s.quantumUs
  | 0x1008 => s.slips
  | 0x100C => packed 8 [occ .mxe, occ .txb, occ .vxe, occ .pin]
  | 0x1010 => packed 8 [occ .xdma, occ .lnk]
  | 0x1014 => s.switches
  | 0x1018 => s.lastSwitchAc % 2 ^ 12
  | _ =>
    match inArr 0x1100 0x40 8 o with
    | some (c, r) => ctxReg s (ctxOf c) r
    | none =>
      match inArr 0x2000 0x200 8 o with
      | some (c, r) => half (getPar (ctx s (ctxOf c)) (r / 8)).toNat (r % 8)
      | none =>
        match inArr 0x3000 0x80 8 o with
        | some (c, r) => half (getAreg (seeLate (2 * ac s + 2) (ctx s (ctxOf c))) (r / 8)).toNat (r % 8)
        | none =>
          match inArr 0x3400 0x40 8 o with
          | some (c, r) =>
            let x := ctx s (ctxOf c)
            if r % 8 = 0 then SMap.get 0 x.lcIdx (r / 8) else SMap.get 0 x.lcCnt (r / 8)
          | none => 0

/-! ### Block 1: MXE, TXB, SCT (R59, R85, R109, R444) -/

/-- Whether a command of one of the opcodes runs in this AC: until its done AC, or until its end AC. -/
def runsNow (s : State) (ops : List Nat) (toEnd : Bool) (p : Run → Bool) : Bool :=
  s.runs.any (fun r => decide (r.opcode ∈ ops) && (!toEnd || decide (ac s < r.endAc)) && p r)

/-- Whether a command touches a transposing buffer. -/
def txbTouches (sel : Nat) (r : Run) : Bool :=
  r.effs.any (fun e => match e with | .txb k _ _ => decide (k = sel) | .readsTxb k => decide (k = sel) | _ => false)

/-- The stash registers of a context. -/
def stashReg (s : State) (c r : Nat) : Nat :=
  let t := stashOf s c
  match r with
  | 0x00 => t.base + t.size * 2 ^ 12
  | 0x04 => t.spillBlk + t.stride * 2 ^ 19
  | 0x08 => t.slots.length + (t.slots.map (fun k => k.n)).sum * 2 ^ 7 + t.head * 2 ^ 18
  | 0x0C => t.spills % 2 ^ 16 + t.drops % 2 ^ 16 * 2 ^ 16
  | _ => 0

/-- The words of a scale tracker slot. -/
def sctReg (s : State) (n r : Nat) : Nat :=
  let k := sctSlot s n
  if r < 0x10 then sctRead k (r / 4) else if r < 0x50 then sctHist k ((r - 0x10) / 4) else 0

/-- The MXE/TXB/SCT block. A TXB.LOAD runs until its end AC for load_busy, and so does a reader for read_busy.
DESIGN CHOICE: log 109. -/
def mxeReg (s : State) (o : Nat) : Nat :=
  let s := landSums (ac s) (settleStreams (ac s) s)
  let m := s.mxe
  let n8 (f : Nat → Nat) : List Nat := (List.range 8).map f
  match o with
  | 0x00 =>
    levelAt m (ac s) + b2n (runsNow s [0x13] false (fun _ => true)) * 2 ^ 4
      + b2n (runsNow s [0x10, 0x11] true (fun _ => true)) * 2 ^ 5 + b2n m.gate.isSome * 2 ^ 6
      + m.active.fmt * 2 ^ 7 + m.shadow.fmt * 2 ^ 11
      + (match m.gate, gatedHead s with | some _, some e => e.ctx.val | _, _ => 0) * 2 ^ 15
  | 0x04 => packed 2 (n8 (fun n => ftqCode (ftqStateAt s (ac s) n)))
  | 0x08 => packed 3 (n8 (fun n => (ftq s n).owner))
  | 0x0C => b2n m.accOverflow + 2 * b2n m.accInvalid + 4 * b2n m.lateWrite
  | 0x10 => m.lastM + b2n m.lastByDeadline * 2 ^ 9
  | 0x14 => m.releases
  | 0x18 => seedWord s.seed
  | 0x60 =>
    b2n (runsNow s [0x18] true (txbTouches 0)) + 2 * b2n (runsNow s [0x18] true (txbTouches 1))
      + 4 * b2n (runsNow s [0x10, 0x11, 0x13] true (txbTouches 0)) + 8 * b2n (runsNow s [0x10, 0x11, 0x13] true (txbTouches 1))
  | 0x64 =>
    if s.grade ≠ .max then 0
    else m.stripActive.rank + m.stripShadow.rank * 2 ^ 7 + m.stripActive.fmt * 2 ^ 14 + m.stripShadow.fmt * 2 ^ 18
  | _ =>
    match inArr 0x20 4 8 o with
    | some (n, _) => tileAmax (ftq s n).data
    | none =>
      match inArr 0x40 4 8 o with
      | some (n, _) =>
        (ftq s n).tag % 2 ^ 16 + (ftq s n).rows * 2 ^ 16
          + b2n ((tileVals (ftq s n).data).any (fun v => !v.isFin)) * 2 ^ 25
      | none =>
        match inArr 0x100 0x20 8 o with
        | some (c, r) => stashReg s c r
        | none =>
          match inArr 0x8000 0x80 256 o with
          | some (n, r) => sctReg s n r
          | none => 0

/-! ### Blocks 2 and 3: VXE (R133) and PIN (R165) -/

/-- The VXE block. -/
def vxeReg (s : State) (o : Nat) : Nat :=
  match o with
  | 0x00 => b2n (runsNow s [0x20] false (fun _ => true)) + s.vxe.ctx * 2 + s.vxe.vop * 2 ^ 4 + s.vxe.tag * 2 ^ 16
  | 0x04 => s.vxe.lastSummary + s.vxe.lastTag * 2 ^ 16
  | _ =>
    match inArr 0x800 0x100 8 o with
    | some (c, r) => (SMap.get 0#16 (ctx s (ctxOf c)).lane (r / 4)).toNat
    | none => 0

/-- The PIN block; Lean has none. -/
def pinReg (s : State) (o : Nat) : Nat :=
  let p := s.pin
  if s.grade = .lean then 0
  else
    match o with
    | 0x00 => b2n (runsNow s [0x24] false (fun _ => true)) + 2 * b2n (runsNow s [0x25] false (fun _ => true)) + p.ctx * 4
        + p.tag * 2 ^ 16
    | 0x04 => p.lastSummary + p.lastTag * 2 ^ 16
    | 0x30 => p.testPinion + b2n p.testBusy * 2 ^ 8 + b2n p.testPass * 2 ^ 9 + b2n p.testBad * 2 ^ 10
    | 0x34 => p.combines
    | _ =>
      match inArr 0x10 4 4 o with
      | some (i, _) => bitsOf 32 (fun b => SMap.get false p.fenceReq (32 * i + b))
      | none =>
        match inArr 0x20 4 4 o with
        | some (i, _) => bitsOf 32 (fun b => SMap.get false p.fenced (32 * i + b))
        | none =>
          match inArr 0x1000 0x400 8 o with
          | some (c, r) => SMap.get 0 (ctx s (ctxOf c)).uprog (r / 4)
          | none => 0

/-! ### Block 4: CMEM (R194) -/

/-- The code of a bank's power state. -/
def pwrCode : PwrState → Nat
  | .on => 0 | .draining => 1 | .retain => 2 | .dark => 3 | .waking => 4

/-- A bank granule with its valid bit. -/
def granField (g : Option Nat) : Nat := match g with | some n => n % 2 ^ 13 + 2 ^ 13 | none => 0

/-- The registers of a bank; one that is not present reads as zero. -/
def bankReg (s : State) (b r : Nat) : Nat :=
  let k := bank s b
  if s.grade.banks ≤ b then 0
  else
    match r with
    | 0x0 => k.ce + k.ue * 2 ^ 16 + k.spares * 2 ^ 24
    | 0x4 => granField k.ceGran + granField k.ueGran * 2 ^ 16
    | 0x8 => k.arrivals
    | 0xC => outstanding s b % 2 ^ 16 + k.darkDiscards % 2 ^ 16 * 2 ^ 16
    | _ => 0

/-- The CMEM block. -/
def cmemReg (s : State) (o : Nat) : Nat :=
  let c := s.cm
  match o with
  | 0x000 => b2n c.hier + ((List.range s.grade.banks).filter (fun b => decide ((bank s b).pw = .on))).length * 2
      + b2n c.darkAccess * 2 ^ 9
  | 0x064 => mapSig c.active + c.mapReason * 2 ^ 16 + b2n c.mapRefused * 2 ^ 19
  | 0x0A0 => bitsOf 8 (residentPart s)
  | 0x0A4 => c.mxeOwner + b2n c.mxeValid * 2 ^ 3 + c.vxeOwner * 2 ^ 4 + b2n c.vxeValid * 2 ^ 7
  | 0x0A8 => b2n (decide (c.evicting ≠ [])) * 2 ^ 8 + b2n c.evictRefused * 2 ^ 9
  | 0x160 => c.pwrTimeout
  | 0x170 => b2n c.scrubEn + c.scrubInterval * 2
  | 0x174 => c.scrubGran + c.scrubPasses * 2 ^ 13
  | 0x180 => c.repBank + c.repRow * 2 ^ 7 + b2n c.repBusy * 2 ^ 17 + b2n c.repOk * 2 ^ 18 + b2n c.repNoSpare * 2 ^ 19
  | _ =>
    match inArr 0x10 8 4 o with
    | some (m, r) => half (c.staged.maps.getD m 0) r
    | none =>
      match inArr 0x40 4 8 o with
      | some (i, _) => c.staged.sels.getD i 0
      | none =>
        match inArr 0x80 4 8 o with
        | some (k, _) => partBase s k + partSize s k * 2 ^ 12
        | none =>
          match inArr 0x100 4 8 o with
          | some (i, _) => packed 2 ((List.range 16).map (fun j => if 16 * i + j < s.grade.banks then (bank s (16 * i + j)).req else 0))
          | none =>
            match inArr 0x120 4 16 o with
            | some (i, _) =>
              packed 4 ((List.range 8).map (fun j => if 8 * i + j < s.grade.banks then pwrCode (bank s (8 * i + j)).pw else 0))
            | none =>
              match inArr 0x1000 0x10 128 o with
              | some (b, r) => bankReg s b r
              | none => 0

/-! ### Block 5: XMU (R289, R317) -/

/-- The code of a channel's state. -/
def chanCode : ChanSt → Nat
  | .active => 0 | .training => 1 | .mappedOut => 2 | .absent => 3

/-- The code of a block's state. -/
def bstateCode : BState → Nat
  | .unsealed => 0 | .sealed_ => 1 | .retired => 2

/-- Bits [54:32] of a directory entry. -/
def dirHiWord (e : DirEnt) : Nat :=
  bstateCode e.st + b2n e.exempt * 2 ^ 2 + b2n e.dirty * 2 ^ 3 + e.chan * 2 ^ 4 + e.blk * 2 ^ 6

/-- The counters of a channel; those that count EC of the part's own timing are left out of the model and read as zero.
DESIGN CHOICE: log 38. -/
def chanReg (x : XmuSt) (c r : Nat) : Nat :=
  let k := chan x c
  match r with
  | 0x10 => k.retries % 2 ^ 16 + k.ce % 2 ^ 16 * 2 ^ 16
  | 0x14 => k.remaps.length + (4096 - (k.remaps.map (fun p => (p.2.bank, p.2.spare)) ++ k.bad).dedup.length) * 2 ^ 13
  | _ => 0

/-- The XMU block. -/
def xmuReg (s : State) (o : Nat) : Nat :=
  let x := s.xmu
  match o with
  | 0x00 => b2n x.populated + 2 * b2n x.clamshell + x.density * 4 + x.rate * 2 ^ 4
  | 0x04 => installed x
  | 0x08 => usable x
  | 0x0C => readsOut s (fun _ => true) false + readsOut s (fun _ => true) true * 2 ^ 10 + x.wcb.length * 2 ^ 19
  | 0x20 => x.warm + x.hot * 2 ^ 8 + x.crit * 2 ^ 16 + x.hyst * 2 ^ 24
  | 0x24 => x.step + x.temp % 2 ^ 8 * 4 + b2n x.critSeen * 2 ^ 10
  | 0x28 => x.bulkMin + x.bgMin * 2 ^ 4
  | 0x2C => x.advisoryUs
  | 0x30 => x.dirIndex + b2n x.mapRefused * 2 ^ 31
  | 0x34 => (dirEnt x x.dirIndex).crc
  | 0x38 => dirHiWord (dirEnt x x.dirIndex)
  | 0x40 => x.rqChan + x.rqBank * 2 ^ 2 + x.rqRow * 2 ^ 6 + b2n (decide (x.copies ≠ [])) * 2 ^ 23 + x.rqResult * 2 ^ 24
  | 0x44 => x.unchecked
  | 0x48 => x.crcFaults
  | 0x50 => x.devChan + x.devCmd * 2 ^ 2
  | 0x54 => x.devData
  | 0x58 => x.riChan + x.riEntry * 4
  | 0x5C =>
    match (chan x x.riChan).remaps.find? (fun p => decide (p.1 = x.riEntry)) with
    | some (_, r) => 1 + r.bank * 2 + r.row * 2 ^ 5 + r.spare * 2 ^ 21 + r.gen * 2 ^ 29
    | none => 0
  | _ =>
    match inArr 0x10 4 4 o with
    | some (c, _) => chanCode (chan x c).st + (chan x c).fails * 2 ^ 4
    | none =>
      match inArr 0x100 0x20 4 o with
      | some (c, r) => chanReg x c r
      | none => 0

/-! ### Blocks 6 and 7: LNK (R338) and SYN (R267) -/

/-- The registers of a port. -/
def portReg (q : PortSt) (r : Nat) : Nat :=
  match r with
  | 0x00 => b2n q.up + q.cr.req % 2 ^ 10 * 2 + q.cr.rsp % 2 ^ 10 * 2 ^ 11 + q.cr.snp % 2 ^ 10 * 2 ^ 21 + b2n q.frozen * 2 ^ 31
  | 0x04 => q.outW.length + q.outR.length * 2 ^ 11
  | 0x08 => q.pktsOut
  | 0x0C => q.pktsIn
  | 0x10 => q.resends + q.crcBad * 2 ^ 16
  | 0x14 => q.timeouts + q.refusals * 2 ^ 16
  | 0x18 => q.unknown
  | _ => 0

/-- The LNK block. -/
def lnkReg (s : State) (o : Nat) : Nat :=
  if o = 0 then b2n s.lnk.en0 + 2 * b2n s.lnk.en1 + s.lnk.timeoutUs * 4
  else
    match inArr 0x10 0x20 2 o with
    | some (p, r) => portReg (port s p) r
    | none => 0

/-- SYN_HOIST_CFG_h. -/
def hoistCfgWord (x : Hoist) : Nat :=
  x.mask + x.childCount * 2 ^ 9 + x.childBase * 2 ^ 17 + b2n x.root * 2 ^ 28 + b2n x.abortOnTimeout * 2 ^ 29
    + b2n x.notify * 2 ^ 30 + b2n x.enable * 2 ^ 31

/-- The code of a hoist's state. -/
def hstateCode : HState → Nat
  | .open_ => 0 | .sent => 1 | .aborted => 2

/-- The registers of a hoist. -/
def hoistReg (x : Hoist) (r : Nat) : Nat :=
  match r with
  | 0x00 => hoistCfgWord x
  | 0x04 => x.parent
  | 0x08 => x.timeoutUs
  | 0x0C => b2n x.parity + hstateCode x.st * 2 + x.marksN * 2 ^ 3 + x.marksN1 * 2 ^ 12 + b2n x.overrun * 2 ^ 21
  | 0x10 => x.childN.length + x.childN1.length * 2 ^ 8 + x.closed * 2 ^ 16
  | _ => 0

/-- The SYN block. -/
def synReg (s : State) (o : Nat) : Nat :=
  let y := s.syn
  match o with
  | 0x4400 => (y.waits.filter (fun w => w.standsAt (ac s))).length
  | 0x4404 => y.timeouts
  | 0x4410 => y.msgsOut
  | 0x4414 => y.msgsIn
  | 0x4418 => y.crcDrops + y.unkDrops * 2 ^ 16
  | _ =>
    match inArr 0 4 4096 o with
    | some (p, _) => pennant s p
    | none =>
      match inArr 0x4000 4 128 o with
      | some (i, _) => bitsOf 32 (fun b => decide (32 * i + b ∈ y.ovf))
      | none =>
        match inArr 0x4200 4 128 o with
        | some (i, _) => bitsOf 32 (fun b => decide (32 * i + b ∈ y.unf))
        | none =>
          match inArr 0x4800 0x20 256 o with
          | some (h, r) => hoistReg (hoist s h) r
          | none =>
            match inArr 0x8000 4 2048 o with
            | some (k, _) => SMap.get 0 y.child k
            | none => 0

/-! ### Blocks 8 to 10: HST (R352), PWR (R382), RSL (R338, R371) -/

/-- The registers of a completion or event ring. -/
def cringReg (q : CRing) (r : Nat) : Nat :=
  match r with
  | 0x00 => q.base % 2 ^ 32
  | 0x04 => q.base / 2 ^ 32
  | 0x08 => q.log2
  | 0x0C => q.head
  | 0x10 => q.tail
  | _ => 0

/-- The registers of a submission ring. -/
def sringReg (q : SRing) (r : Nat) : Nat :=
  match r with
  | 0x00 => q.base % 2 ^ 32
  | 0x04 => q.base / 2 ^ 32
  | 0x08 => q.log2 + b2n q.en * 2 ^ 5
  | 0x0C => q.tail
  | 0x10 => q.head + b2n q.halted * 2 ^ 16 + b2n (decide (q.busy = [])) * 2 ^ 17 + q.reason * 2 ^ 18
  | 0x14 => q.expect
  | _ => 0

/-- The HST block. -/
def hstReg (s : State) (o : Nat) : Nat :=
  let h := s.hst
  match o with
  | 0x00 => b2n h.enable
  | 0x04 => h.nextOut
  | 0x08 => bitsOf 8 (fun c => (ring s c).halted) + h.cqQ.length * 2 ^ 8 + h.eqQ.length * 2 ^ 15
  | 0x0C => h.lost
  | _ =>
    match inArr 0x10 0x20 2 o with
    | some (k, r) => cringReg (if k = 0 then h.cq else h.eq_) r
    | none =>
      match inArr 0x100 0x40 8 o with
      | some (c, r) => sringReg (ring s c) r
      | none => 0

/-- The PWR block. -/
def pwrReg (s : State) (o : Nat) : Nat :=
  let p := s.pwr
  match o with
  | 0x00 => b2n p.pllLock + s.factor * 2 + b2n p.held * 2 ^ 4 + b2n p.persist * 2 ^ 5 + b2n p.thermal * 2 ^ 6
      + p.limitCode * 2 ^ 7 + b2n p.tripped * 2 ^ 10
  | 0x04 => p.droopFactor + b2n p.detEn * 4 + b2n p.extEn * 8 + p.detMv * 2 ^ 4
  | 0x08 => p.episodes
  | 0x0C => s.stretched / usTicks
  | 0x10 => p.dieTemp % 2 ^ 8 + p.margin % 2 ^ 8 * 2 ^ 8
  | 0x14 => p.throttle + p.trip * 2 ^ 8 + p.hyst * 2 ^ 16 + p.thermFactor * 2 ^ 20
  | 0x18 => p.limit
  | 0x1C => powerAvg p % 2 ^ 17
  | 0x20 => b2n p.mxeCg + 2 * b2n p.vxeCg + 4 * b2n (p.pinCg && decide (s.grade ≠ .lean)) + p.hystAc * 2 ^ 8
  | 0x24 => b2n p.mxeGated + 2 * b2n p.vxeGated + p.pinsGated.length * 4
  | _ => 0

/-- The RSL block. -/
def rslReg (s : State) (o : Nat) : Nat :=
  let h := s.rsl.health
  let n := s.rsl.snap
  let f := s.rsl.fill
  match o with
  | 0x00 => h.risk + b2n h.pending * 2 ^ 16 + b2n h.advised * 2 ^ 17
  | 0x04 => h.thresh + h.decay * 2 ^ 16 + h.marginRef * 2 ^ 20
  | 0x08 => packed 8 [h.wCmem, h.wXmu, h.wLnk, h.wDroop]
  | 0x0C => h.wTherm
  | 0x10 => s.pos
  | 0x14 => b2n s.isolateHost + 2 * b2n s.isolated
  | 0x20 => n.freezeBlk + n.port * 2 ^ 19 + n.quiesceMs * 2 ^ 20
  | 0x24 => h.minS + h.maxS * 2 ^ 16
  | 0x28 => n.seq
  | 0x2C => n.phase + n.lastStatus * 4
  | 0x30 => n.stopUs
  | 0x34 => n.mib % 2 ^ 16
  | 0x40 => f.st * 2 ^ 3 + f.reason * 2 ^ 5
  | 0x44 => f.srcChip + f.srcCore * 2 ^ 14 + f.timeoutMs * 2 ^ 22
  | 0x48 => f.off / 2 ^ 20 % 2 ^ 16 + f.streams * 2 ^ 16
  | 0x4C => f.seq
  | _ =>
    match inArr 0x100 8 64 o with
    | some (k, r) => let e := SMap.get (0, 0) s.alias_ k; if r = 0 then e.1 else e.2
    | none => 0

/-! ### Block 11: ERR (R403, R406, R408) -/

/-- The sixteen words of a log entry (R403). -/
def logWords (e : LogEntry) : List Nat :=
  let k := e.cause
  [e.number, e.code + e.sev * 2 ^ 12 + (match k.ctx with | some c => 2 ^ 15 + c.val * 2 ^ 16 | none => 0),
   k.tag % 2 ^ 16 + e.rep * 2 ^ 16,
   (match k.src with | some p => p + 2 ^ 22 | none => 0) + (match k.ring with | some r => 2 ^ 23 + r * 2 ^ 24 | none => 0),
   e.ecTime % 2 ^ 32, e.ecTime / 2 ^ 32, e.wallUs % 2 ^ 32, e.wallUs / 2 ^ 32]
    ++ padTo 0 4 e.detail ++ [k.hostSeq, 0, 0, 0]

/-- Word r / 4 of log slot k; a FREE slot reads as zero. -/
def logReg (e : ErrSt) (k r : Nat) : Nat :=
  match e.log.find? (fun x => decide (x.slot = k)) with
  | some x => (logWords x).getD (r / 4) 0
  | none => 0

/-- ERR_STATUS. -/
def errStatus (e : ErrSt) : Nat :=
  (match activeEntry e with | some x => 1 + x.sev * 2 + x.slot * 2 ^ 4 | none => 0)
    + (pendingEntries e).length * 2 ^ 10 + (match worstOf (pendingEntries e) with | some x => x.sev | none => 0) * 2 ^ 17
    + b2n (decide (freeSlots e = [])) * 2 ^ 20

/-- The ERR block. -/
def errReg (s : State) (o : Nat) : Nat :=
  let e := flushTrc s.err
  match o with
  | 0x00 => errStatus e
  | 0x04 => e.lost
  | 0x0C => e.ringMinSev + e.outMinSev * 2 ^ 3
  | 0x28 => e.nextNumber
  | 0x100 => b2n e.trcEnable + e.trcSink * 2 + b2n e.trcFrozen * 2 ^ 3 + e.trcStopSev * 2 ^ 4 + e.trcPost * 2 ^ 7
  | 0x104 => e.trcKinds + e.trcCtxs * 2 ^ 16
  | 0x108 => e.trcBase + e.trcSize * 2 ^ 19
  | 0x10C => e.trcIndex + b2n e.trcWrapped * 2 ^ 11 + e.trcRingPos % 2 ^ 20 * 2 ^ 12
  | 0x110 => e.trcLost
  | _ =>
    match inArr 0x10 4 6 o with
    | some (k, _) => SMap.get 0 e.counts (k + 1)
    | none =>
      match inArr 0x1000 0x40 64 o with
      | some (k, r) => logReg e k r
      | none =>
        match inArr 0x8000 0x10 2048 o with
        | some (i, r) => (SMap.get [] e.trcBuf i).getD (r / 4) 0
        | none => 0

/-! ### Blocks 12 and 13: NVS (R437) and BZL (R398) -/

/-- The word at a byte offset of a byte string. -/
def wordAt (bs : List W8) (k : Nat) : Nat := ofLE (slice k 4 bs)

/-- The NVS block. -/
def nvsReg (s : State) (o : Nat) : Nat :=
  let n := s.nvs
  match o with
  | 0x00 => n.current + b2n n.store.isSome * 2 + b2n n.storePending * 4 + b2n (recordsFull n) * 8 + b2n n.lastOk * 2 ^ 4
      + b2n n.lost * 2 ^ 5 + b2n n.copyBad * 2 ^ 6 + b2n n.boardBad * 2 ^ 7
  | 0x04 => generation n
  | 0x08 => storeCount n
  | 0x0C => b2n n.auto_ * 2
  | 0x10 => n.phase
  | 0x20 => n.fwLo
  | 0x24 => n.fwHi
  | 0x28 => b2n n.fwBusy * 2 + n.fwResult * 4
  | 0x2C => fwInForce n % 2 ^ 16 + romVersion * 2 ^ 16
  | _ =>
    match inArr 0x4000 4 4096 o with
    | some (w, _) => stagingWord n w
    | none =>
      match inArr 0x8000 4 128 o with
      | some (w, _) => wordAt n.board (4 * w)
      | none => 0

/-- The mirror of the Bezel: zero on Lean and until it has published. -/
def bzlReg (s : State) (o : Nat) : Nat :=
  let m := s.bezel.mirror
  match (if s.grade = .lean then none else m.at_) with
  | none => 0
  | some t =>
    match o with
    | 0x00 => b2n (decide (s.wall ≤ t + 2 * msTicks)) + 2 * b2n (decide (256 ≤ m.log.length)) + 4 * b2n m.retired
        + m.tapErrors % 2 ^ 16 * 2 ^ 16
    | 0x04 => m.gen
    | 0x08 => m.epoch % 2 ^ 32
    | 0x0C => m.seq % 2 ^ 32
    | 0x10 => Nat.min m.cert.length 2048
    | _ =>
      match inArr 0x100 4 64 o with
      | some (w, _) => wordAt m.live (4 * w)
      | none =>
        match inArr 0x1000 4 128 o with
        | some (w, _) => wordAt m.report (4 * w)
        | none =>
          match inArr 0x2000 4 512 o with
          | some (w, _) => wordAt m.cert (4 * w)
          | none =>
            match inArr 0x3000 0x10 256 o with
            | some (k, r) => match m.log[k]? with | some e => wordAt (sealBytes e) r | none => 0
            | none => 0

/-! ### The window -/

/-- A read of the aligned word at an offset of the register window (R438). -/
def regRead (s : State) (off : Nat) : Nat :=
  let o := off % 2 ^ 16
  (match off / 2 ^ 16 with
   | 0 => if o < 0x1000 then idReg s o else escReg s o
   | 1 => mxeReg s o
   | 2 => vxeReg s o
   | 3 => pinReg s o
   | 4 => cmemReg s o
   | 5 => xmuReg s o
   | 6 => lnkReg s o
   | 7 => synReg s o
   | 8 => hstReg s o
   | 9 => pwrReg s o
   | 10 => rslReg s o
   | 11 => errReg s o
   | 12 => nvsReg s o
   | 13 => bzlReg s o
   | _ => 0) % 2 ^ 32

end Sys2Proof.Machine
end

