-- ==== Sys2Proof/Machine/RegsWrite.lean ====
section
/-!
DEFINITION. What a host write of each register does (R438–R442), block by block: fields marked RW take the value, W1C bits
written 1 clear, WO bits act, and every other field ignores the write. Several action bits of one word act in ascending bit
order, after the fields of the word have been written.
-/
namespace Sys2Proof.Machine

/-- Replace the word of a 64-bit value that an offset within it names. -/
def setHalf (v r w : Nat) : Nat := if r = 0 then v / 2 ^ 32 * 2 ^ 32 + w else if r = 4 then v % 2 ^ 32 + w * 2 ^ 32 else v

/-- `act` if a bit is written as 1. -/
def onBit (v i : Nat) (act : State → State) (s : State) : State := if bit v i then act s else s

/-! ### ID (R423, R443) -/

/-- The temperature input is unmasked: it gives no reading until the next strobe (R422). -/
def mtempUnmask (s : State) : State :=
  if s.xmu.mtempMasked then modXmu (fun x => { x with mtempMasked := false, mtemp := none, mtempAt := s.wall }) s else s

/-- The ID and size table block. -/
def idWrite (o v : Nat) (s : State) : State :=
  if o = 0x14 then { s with scratch := v }
  else if o = 0x410 then
    onBit v 13 mtempUnmask (onBit v 11 (evtUnmask 3) (onBit v 10 (evtUnmask 2) (onBit v 9 (evtUnmask 1) (onBit v 8 (evtUnmask 0) s))))
  else
    match inArr 0x400 4 4 o with
    | some (i, _) => modEvt i (fun e => { e with pennant := bits v 11 0, en := bit v 12, stuckMs := bits v 31 16 }) s
    | none => s

/-! ### ESC (R199, R205, R228) -/

/-- The registers that R205 closes while the context runs: the write is ignored and par_refused set. -/
def parked (c : Ctx) (act : State → State) (s : State) : State :=
  if (ctx s c).cstate = .running then modCtx s c (fun x => { x with parRefused := true }) else act s

/-- ESC_CTX_CTL_c.
DEDUCED: log 32. -/
def ctxCtl (c : Ctx) (v : Nat) (s : State) : State :=
  let s := modCtx s c (fun x => { x with prio := bits v 7 4 })
  onBit v 3 (clearCtx c) (onBit v 2 (resumeCtx c)
    (onBit v 1 (fun s => hostStop c (advance (s.ec + 1) s)) (onBit v 0 (hostQuiesce c) s)))

/-- A write of ESC_CODE_c: the fields are set (R9).
DEDUCED: log 31. -/
def codeWrite (c : Ctx) (v : Nat) (s : State) : State :=
  modCtx s c (fun x => { x with codeBase := bits v 14 0, codeSize := bits v 31 16 })

/-- A write of ESC_AFF_c. -/
def affWrite (c : Ctx) (v : Nat) (s : State) : State :=
  modCtx s c (fun x => { x with affBase := bits v 10 0, affSize := bits v 27 16 })

/-- The registers of a context. -/
def ctxWrite (c : Ctx) (r v : Nat) (s : State) : State :=
  match r with
  | 0x00 => ctxCtl c v s
  | 0x04 => onBit v 6 (fun s => modCtx s c (fun x => { x with parRefused := false })) s
  | 0x10 => parked c (codeWrite c v) s
  | 0x14 => parked c (affWrite c v) s
  | 0x18 => parked c (fun s => modCtx s c (fun x => { x with spillBlk := bits v 18 0 })) s
  | _ => s

/-- A parameter register's word. -/
def parWrite (c : Ctx) (r v : Nat) (s : State) : State :=
  parked c (fun s => modCtx s c (fun x =>
    { x with par := SMap.set 0#64 x.par (r / 8) (BitVec.ofNat 64 (setHalf (getPar x (r / 8)).toNat (r % 8) v)) })) s

/-- The escapement block. -/
def escWrite (o v : Nat) (s : State) : State :=
  if o = 0x1004 then { s with quantumUs := bits v 19 0 }
  else
    match inArr 0x1100 0x40 8 o with
    | some (c, r) => ctxWrite (ctxOf c) r v s
    | none =>
      match inArr 0x2000 0x200 8 o with
      | some (c, r) => parWrite (ctxOf c) r v s
      | none => s

/-! ### MXE, TXB, SCT (R59, R85, R109, R444) -/

/-- The stash registers of a context. -/
def stashWrite (c r v : Nat) (s : State) : State :=
  match r with
  | 0x00 => stashCfg (ctxOf c) v s
  | 0x04 => modStash c (fun t => { t with spillBlk := bits v 18 0, stride := bits v 29 19 }) s
  | _ => s

/-- The MXE/TXB/SCT block. -/
def mxeWrite (o v : Nat) (s : State) : State :=
  match o with
  | 0x0C => modMxe (fun m => { m with
      accOverflow := m.accOverflow && !bit v 0, accInvalid := m.accInvalid && !bit v 1, lateWrite := m.lateWrite && !bit v 2 })
      (landSums (ac s) (settleStreams (ac s) s))
  | 0x18 => reseed (BitVec.ofNat 32 v) s
  | _ =>
    match inArr 0x100 0x20 8 o with
    | some (c, r) => stashWrite c r v s
    | none =>
      match inArr 0x8000 0x80 256 o with
      | some (n, r) => sctPut n r v s
      | none => s

/-! ### VXE and PIN (R133, R153, R155, R165) -/

/-- The VXE block: the lane-flag words clear where 1 is written. -/
def vxeWrite (o v : Nat) (s : State) : State :=
  match inArr 0x800 0x100 8 o with
  | some (c, r) =>
    modCtx s (ctxOf c) (fun x => { x with lane := SMap.mod 0#16 x.lane (r / 4) (fun f => f &&& ~~~ BitVec.ofNat 16 v) })
  | none => s

/-- A write of PIN_SELFTEST; one that starts a test while another runs names the pinion whose test then completes.
DESIGN CHOICE: log 108. -/
def selftestWrite (v : Nat) (s : State) : State :=
  let p := bits v 6 0
  let s := { s with pin := { s.pin with testPinion := p } }
  onBit v 7 (fun s =>
    { s with pin := if SMap.get false s.pin.fenced p then { s.pin with testBusy := true } else { s.pin with testBad := true } }) s

/-- The PIN block; Lean ignores every write of it. -/
def pinWrite (o v : Nat) (s : State) : State :=
  if s.grade = .lean then s
  else if o = 0x30 then selftestWrite v s
  else
    match inArr 0x10 4 4 o with
    | some (i, _) => fenceWrite i v s
    | none => s

/-! ### CMEM (R173, R179, R181, R185, R191, R192, R194) -/

/-- Change the staged set. -/
def modStaged (f : MapSet → MapSet) (s : State) : State := modCm (fun c => { c with staged := f c.staged }) s

/-- The request fields of sixteen banks, lowest bank first. -/
def pwrReqWord (i v : Nat) (s : State) : State :=
  (List.range 16).foldl (fun s j => pwrReq (16 * i + j) (bits v (2 * j + 1) (2 * j)) s) s

/-- A write of CMEM_REPAIR: its bank and row take the value, and start requests a repair. -/
def repairWrite (v : Nat) (s : State) : State :=
  if bit v 16 then repair (bits v 6 0) (bits v 15 7) s
  else modCm (fun c => { c with repBank := bits v 6 0, repRow := bits v 15 7 }) s

/-- A write of CMEM_SCRUB_CFG.
DEDUCED: log 34. -/
def scrubWrite (v : Nat) (s : State) : State :=
  let s := if bit v 0 && !s.cm.scrubEn then { s with scrubAt := s.ec } else s
  modCm (fun c => { c with scrubEn := bit v 0, scrubInterval := bits v 16 1 }) s

/-- A write of CMEM_PART_c.
DEDUCED: log 22. -/
def partWrite (c v : Nat) (s : State) : State := setPart c (bits v 11 0) (bits v 24 12) s

/-- The CMEM block. -/
def cmemWrite (o v : Nat) (s : State) : State :=
  match o with
  | 0x000 => onBit v 9 (modCm (fun c => { c with darkAccess := false })) s
  | 0x060 => onBit v 0 mapCommit s
  | 0x064 => onBit v 19 (modCm (fun c => { c with mapRefused := false })) s
  | 0x0A4 => modCm (fun c => { c with mxeOwner := bits v 2 0, mxeValid := bit v 3, vxeOwner := bits v 6 4, vxeValid := bit v 7 }) s
  | 0x0A8 => partEvict (bits v 7 0) (onBit v 9 (modCm (fun c => { c with evictRefused := false })) s)
  | 0x160 => modCm (fun c => { c with pwrTimeout := bits v 15 0 }) s
  | 0x170 => scrubWrite v s
  | 0x180 => repairWrite v s
  | _ =>
    match inArr 0x10 8 4 o with
    | some (m, r) => modStaged (fun t => { t with maps := t.maps.set m (setHalf (t.maps.getD m 0) r v) }) s
    | none =>
      match inArr 0x40 4 8 o with
      | some (i, _) => if 16 * i < s.grade.banks then modStaged (fun t => { t with sels := t.sels.set i v }) s else s
      | none =>
        match inArr 0x80 4 8 o with
        | some (c, _) => partWrite c v s
        | none =>
          match inArr 0x100 4 8 o with
          | some (i, _) => pwrReqWord i v s
          | none => s

/-! ### XMU (R289, R307, R312–R314, R317, R435) -/

/-- A write of XMU_THERM_CFG: warm_c below hot_c below crit_c, or the register stays. -/
def thermWrite (v : Nat) (s : State) : State :=
  if bits v 7 0 < bits v 15 8 ∧ bits v 15 8 < bits v 23 16 then
    modXmu (fun x => { x with warm := bits v 7 0, hot := bits v 15 8, crit := bits v 23 16, hyst := bits v 27 24 }) s
  else s

/-- A write of XMU_CHAN_c. -/
def chanWrite (c v : Nat) (s : State) : State := onBit v 3 (mapOut c) (onBit v 2 (retrain c) s)

/-- A write of XMU_DEV_CMD; what the part or the PHY answers is open.
DEDUCED: log 37. -/
def devWrite (v : Nat) (s : State) : State :=
  let (k, s) := takeFree 1 s
  devCmd v (Config.freeWord k).toNat s

/-- The XMU block. -/
def xmuWrite (o v : Nat) (s : State) : State :=
  match o with
  | 0x20 => thermWrite v s
  | 0x28 =>
    if bits v 3 0 + bits v 7 4 ≤ 16 then modXmu (fun x => { x with bulkMin := bits v 3 0, bgMin := bits v 7 4 }) s else s
  | 0x2C => modXmu (fun x => { x with advisoryUs := bits v 19 0 }) s
  | 0x30 => modXmu (fun x => { x with dirIndex := bits v 18 0, mapRefused := x.mapRefused && !bit v 31 }) s
  | 0x38 => dirHi v s
  | 0x40 => remapReq v s
  | 0x50 => devWrite v s
  | 0x54 => modXmu (fun x => { x with devData := v }) s
  | 0x58 => modXmu (fun x => { x with riChan := bits v 1 0, riEntry := bits v 13 2 }) s
  | _ =>
    match inArr 0x10 4 4 o with
    | some (c, _) => chanWrite c v s
    | none => s

/-! ### LNK and SYN (R255–R257, R263, R267, R338) -/

/-- A write of LNK_CFG. -/
def lnkCfg (v : Nat) (s : State) : State :=
  let s := { s with lnk := { s.lnk with timeoutUs := bits v 21 2 } }
  let s := if bit v 0 = s.lnk.en0 then s else setPortEn 0 (bit v 0) s
  if bit v 1 = s.lnk.en1 then s else setPortEn 1 (bit v 1) s

/-- The registers of a hoist.
DEDUCED: log 32. -/
def hoistWrite (h r v : Nat) (s : State) : State :=
  match r with
  | 0x00 => hoistCfgWrite h v s
  | 0x04 => if (hoist s h).enable then s else modHoist h (fun x => { x with parent := bits v 29 0 }) s
  | 0x08 => modHoist h (fun x => { x with timeoutUs := bits v 19 0 }) s
  | 0x0C => onBit v 21 (modHoist h (fun x => { x with overrun := false })) s
  | 0x14 => onBit v 0 (hostEnter h) (onBit v 1 (rearm h) s)
  | _ => s

/-- Pennant flags clear where 1 is written. -/
def clearFlags (i v : Nat) (l : List Nat) : List Nat := l.filter (fun p => !(decide (p / 32 = i) && bit v (p % 32)))

/-- The SYN block. -/
def synWrite (o v : Nat) (s : State) : State :=
  match inArr 0 4 4096 o with
  | some (p, _) => raise 2 p 2 v {} s
  | none =>
    match inArr 0x4000 4 128 o with
    | some (i, _) => { s with syn := { s.syn with ovf := clearFlags i v s.syn.ovf } }
    | none =>
      match inArr 0x4200 4 128 o with
      | some (i, _) => { s with syn := { s.syn with unf := clearFlags i v s.syn.unf } }
      | none =>
        match inArr 0x4800 0x20 256 o with
        | some (h, r) => hoistWrite h r v s
        | none =>
          match inArr 0x8000 4 2048 o with
          | some (k, _) => { s with syn := { s.syn with child := SMap.set 0 s.syn.child k (bits v 29 0) } }
          | none => s

/-! ### HST (R340, R341, R352) -/

/-- A write of enable: the rings read their entries at head, or drop what they hold. -/
def hstEnable (on : Bool) (s : State) : State :=
  let s := modHst (fun h => { h with enable := on }) s
  if on then fetchHeads s else iter dropHeld 8 s

/-- A ring base with one of its words replaced. -/
def baseWord (b r v : Nat) : Nat := setHalf b r (if r = 0 then v / 4096 * 4096 else v)

/-- The registers of a completion or event ring: base and size take a write only while enable is 0. -/
def cringWrite (en : Bool) (r v : Nat) (q : CRing) : CRing :=
  match r with
  | 0x00 | 0x04 => if en then q else { q with base := baseWord q.base r v }
  | 0x08 => if en || decide (bits v 4 0 < 4) || decide (16 < bits v 4 0) then q else { q with log2 := bits v 4 0 }
  | 0x0C => { q with head := v % 2 ^ 16 }
  | _ => q

/-- A write of the size and enable of a submission ring: a size outside 4 to 16, or a new one while the ring is not disabled
and idle, leaves the register as it is.
DEDUCED: log 33. -/
def sqSizeWrite (r v : Nat) (s : State) : State :=
  let q := ring s r
  let n := bits v 4 0
  if n < 4 ∨ 16 < n ∨ (n ≠ q.log2 ∧ (q.en = true ∨ q.busy ≠ [])) then s
  else
    let s := modRing r (fun q => { q with log2 := n, en := bit v 5 }) s
    if bit v 5 then fetchHeads s else dropHeld r s

/-- The registers of a submission ring.
DEDUCED: log 33. -/
def sringWrite (r o v : Nat) (s : State) : State :=
  let q := ring s r
  match o with
  | 0x00 | 0x04 => if q.en || decide (q.busy ≠ []) then s else modRing r (fun q => { q with base := baseWord q.base o v }) s
  | 0x08 => sqSizeWrite r v s
  | 0x0C => sqDoorbell r v s
  | 0x14 => if q.halted || !q.en then modRing r (fun q => { q with expect := v }) s else s
  | 0x18 => onBit v 2 (ringReset r) (onBit v 1 (ringResume r) (onBit v 0 (ringStop r) s))
  | _ => s

/-- The HST block. -/
def hstWrite (o v : Nat) (s : State) : State :=
  match o with
  | 0x00 => if bit v 0 = s.hst.enable then s else hstEnable (bit v 0) s
  | 0x04 => if s.hst.enable then s else modHst (fun h => { h with nextOut := v }) s
  | _ =>
    match inArr 0x10 0x20 2 o with
    | some (k, r) =>
      modHst (fun h => if k = 0 then { h with cq := cringWrite h.enable r v h.cq } else { h with eq_ := cringWrite h.enable r v h.eq_ }) s
    | none =>
      match inArr 0x100 0x40 8 o with
      | some (c, r) => sringWrite c r v s
      | none => s

/-! ### PWR (R375–R382) -/

/-- A write of PWR_DROOP_CFG: det_mv from 10 on, or the register stays. -/
def droopWrite (v : Nat) (s : State) : State :=
  if bits v 11 4 < 10 then s
  else riseFactor (modPwr (fun p => { p with
    droopFactor := bits v 1 0, detEn := bit v 2, extEn := bit v 3, detMv := bits v 11 4 }) s)

/-- A write of PWR_TEMP_CFG: throttle_c below die_trip_c, or the register stays. -/
def tempWrite (v : Nat) (s : State) : State :=
  if bits v 15 8 ≤ bits v 7 0 then s
  else riseFactor (modPwr (fun p => { p with
    throttle := bits v 7 0, trip := bits v 15 8, hyst := bits v 19 16, thermFactor := bits v 21 20 }) s)

/-- A write of PWR_GATE_CFG: a group whose gating is disabled has its clock (R380); Lean has no pinion group (R441). -/
def cgWrite (v : Nat) (s : State) : State :=
  let pin := bit v 2 && decide (s.grade ≠ .lean)
  let s := modPwr (fun p => { p with mxeCg := bit v 0, vxeCg := bit v 1, pinCg := pin, hystAc := bits v 15 8 }) s
  if s.pwr.tripped then s
  else modPwr (fun p => { p with
    mxeGated := p.mxeGated && p.mxeCg, vxeGated := p.vxeGated && p.vxeCg
    pinsGated := if p.pinCg then p.pinsGated else [] }) s

/-- The PWR block. -/
def pwrWrite (o v : Nat) (s : State) : State :=
  match o with
  | 0x04 => droopWrite v s
  | 0x14 => tempWrite v s
  | 0x18 => modPwr (fun p => { p with limit := Nat.min (bits v 16 0) (peakMw s.grade) }) s
  | 0x20 => cgWrite v s
  | _ => s

/-! ### RSL (R320, R321, R338, R363–R371) -/

/-- The first word of an alias entry: kind 3 is stored as 0. -/
def aliasWord (v : Nat) : Nat := if bits v 23 22 = 3 then bits v 21 0 else bits v 23 0

/-- A word of an alias entry. -/
def aliasWrite (k r v : Nat) (s : State) : State :=
  { s with alias_ := SMap.mod (0, 0) s.alias_ k (fun e => if r = 0 then (aliasWord v, e.2) else (e.1, bits v 21 0)) }

/-- A snapshot or a fill is in progress. -/
def moving (s : State) : Bool := decide (s.rsl.snap.phase ≠ 0) || decide (s.rsl.fill.st = 1)

/-- The RSL block. -/
def rslWrite (o v : Nat) (s : State) : State :=
  match o with
  | 0x04 => modHealth (fun h => { h with thresh := bits v 15 0, decay := bits v 19 16, marginRef := bits v 27 20 }) s
  | 0x08 => modHealth (fun h => { h with wCmem := bits v 7 0, wXmu := bits v 15 8, wLnk := bits v 23 16, wDroop := bits v 31 24 }) s
  | 0x0C => modHealth (fun h => { h with wTherm := bits v 15 0 }) s
  | 0x10 => { s with pos := bits v 21 0 }
  | 0x14 => onBit v 0 (fun s => isolate { s with isolateHost := true }) s
  | 0x20 => if moving s then s else
      modSnap (fun n => { n with freezeBlk := bits v 18 0, port := bits v 19 19, quiesceMs := bits v 31 20 }) s
  | 0x24 => modHealth (fun h => { h with minS := bits v 15 0, maxS := bits v 31 16 }) s
  | 0x28 => if moving s then s else modSnap (fun n => { n with seq := v }) s
  | 0x40 => onBit v 2 fillAbort (onBit v 1 fillFinish (onBit v 0 fillStart s))
  | 0x44 => if moving s then s else
      modFill (fun f => { f with srcChip := bits v 13 0, srcCore := bits v 21 14, timeoutMs := bits v 31 22 }) s
  | _ =>
    match inArr 0x100 8 64 o with
    | some (k, r) => aliasWrite k r v s
    | none => s

/-! ### ERR (R402, R406–R408) -/

/-- A write of ERR_TRC_CFG: enable while frozen starts the trace again at slot 0 (R407). -/
def trcCfg (v : Nat) (s : State) : State :=
  let e := s.err
  let e := if bit v 0 && e.trcFrozen then { e with trcFrozen := false, trcLeft := none, trcIndex := 0, trcWrapped := false } else e
  { s with err := { e with trcEnable := bit v 0, trcSink := bits v 2 1, trcStopSev := bits v 6 4, trcPost := bits v 17 7 } }

/-- The ERR block. -/
def errWrite (o v : Nat) (s0 : State) : State :=
  let s := settleErr s0
  match o with
  | 0x08 => onBit v 1 errFlush (onBit v 0 errAck s)
  | 0x0C => { s with err := holdSev { s.err with ringMinSev := bits v 2 0, outMinSev := bits v 5 3 } }
  | 0x100 => trcCfg v s
  | 0x104 => { s with err := { s.err with trcKinds := bits v 15 0, trcCtxs := bits v 23 16 } }
  | 0x108 => { s with err := { s.err with trcBase := bits v 18 0, trcSize := bits v 31 19 } }
  | 0x114 => trcMark v s
  | _ => s

/-! ### NVS (R430, R431, R436, R437) -/

/-- The NVS block. -/
def nvsWrite (o v : Nat) (s : State) : State :=
  match o with
  | 0x0C => onBit v 2 nvsReload (onBit v 0 requestStore (modNvs (fun n => { n with auto_ := bit v 1 }) s))
  | 0x20 => modNvs (fun n => { n with fwLo := v }) s
  | 0x24 => modNvs (fun n => { n with fwHi := v }) s
  | 0x28 => onBit v 0 fwLoad s
  | _ =>
    match inArr 0x4000 4 4096 o with
    | some (w, _) => writeStaging w v s
    | none => s

/-! ### The window -/

/-- A write of the aligned word at an offset of the register window. -/
def regPut (off v : Nat) (s : State) : State :=
  let o := off % 2 ^ 16
  match off / 2 ^ 16 with
  | 0 => if o < 0x1000 then idWrite o v s else escWrite o v s
  | 1 => mxeWrite o v s
  | 2 => vxeWrite o v s
  | 3 => pinWrite o v s
  | 4 => cmemWrite o v s
  | 5 => xmuWrite o v s
  | 6 => if o = 0 then lnkCfg v s else s
  | 7 => synWrite o v s
  | 8 => hstWrite o v s
  | 9 => pwrWrite o v s
  | 10 => rslWrite o v s
  | 11 => errWrite o v s
  | 12 => nvsWrite o v s
  | _ => s

/-- Whether host writes reach an offset now: until release only the ERR block and the staging window (R425). -/
def writable (s : State) (off : Nat) : Bool :=
  decide (8 ≤ s.nvs.phase) || decide (off / 2 ^ 16 = 11) || (decide (0xC4000 ≤ off) && decide (off < 0xC8000))

/-- A host write of the aligned word at an offset of the register window (R425, R438). -/
def regWrite (off v : Nat) (s : State) : State := if writable s off then regPut off v s else s

/-- 1 for a write that reaches the seed, which the commands that start in its AC do not see yet (R444). -/
def seedLate (off : Nat) : Nat := b2n (off = 0x10018)

/-- REGISTER_WRITE (R438). -/
def execRegisterWrite (off : Nat) (v : W32) (s : State) : Out := .next (inOwnEc (seedLate off) (regWrite off v.toNat) s)

end Sys2Proof.Machine
end

