-- ==== Sys2Proof/Machine/Window.lean ====
section
/-!
DEFINITION. The target half of the host window (R413): writes and reads of a 64-byte line of the register window or of core
memory.
-/
namespace Sys2Proof.Machine

/-- ADDR_RANGE with tag 0 for a host request (R405, R413). -/
def windowRange (space off : Nat) (s : State) : State := advise cADDR {} (addrDetail space off) s

/-- The enabled bytes of a line. -/
def enabledBytes (data : List W8) (be : List Bool) : List (Option W8) :=
  (List.range 64).map (fun i => if be.getD i false then some (data.getD i 0#8) else none)

/-- Word k of a line of the register window: written if all its bytes are enabled, and logged if only some are. -/
def writeWord (off : Nat) (bs : List (Option W8)) (s : State) (k : Nat) : State :=
  let w := slice (4 * k) 4 bs
  if w.all Option.isSome then regWrite (off + 4 * k) (ofLE (w.map (fun b => b.getD 0#8))) s
  else if w.any Option.isSome then windowRange 0 (off + 4 * k) s
  else s

/-- A host access met a bank that gives none (R186). -/
def noteDark (s : State) : State := modCm (fun c => { c with darkAccess := true }) s

/-- A host write of a line of core memory (R169, R186, R425).
DEDUCED: log 36. -/
def writeCore (off : Nat) (bs : List (Option W8)) (s : State) : State :=
  if s.nvs.phase < 8 then s
  else
    match regionOf s off with
    | none => windowRange 1 off s
    | some .bank =>
      if bankOpen s (bankOf s.grade off) then hostWrite off bs s else noteDark s
    | some _ => writeMasked (reach ownSvc [off] s) off bs

/-- A write of a line of the register window, in an EC of its own (R440). -/
def writeRegs (off : Nat) (bs : List (Option W8)) (s : State) : State :=
  inOwnEc (if (bs.getD 24 none).isSome then seedLate (off + 24) else 0) (fun s => (List.range 16).foldl (writeWord off bs) s) s

/-- HOST_WINDOW_WRITE (R413). -/
def execHostWindowWrite (space off : Nat) (data : List W8) (be : List Bool) (s : State) : Out :=
  let off := off / 64 * 64 % 2 ^ 32
  let bs := enabledBytes data be
  match space with
  | 0 => .next (writeRegs off bs s)
  | 1 => .next (writeCore off bs s)
  | sp => .next (windowRange sp off s)

/-- Sixty-four zero bytes. -/
def zeroLine : List W8 := List.replicate 64 0#8

/-- Answer a host read. -/
def answerRead (err : Bool) (bs : List W8) (s : State) : State := emit (.window err bs) s

/-- A host read of a granule of core memory (R186, R189, R190, R425).
DEDUCED: log 36. -/
def readCore (off : Nat) (s : State) : State :=
  if s.nvs.phase < 8 then answerRead false zeroLine s
  else
    match regionOf s off with
    | none => answerRead false zeroLine (windowRange 1 off s)
    | some .bank =>
      let b := bankOf s.grade off
      if bankOpen s b = false then answerRead false zeroLine (noteDark s)
      else
        let s := reachRead ownSvc [off] s
        if granUncorrectable s off then
          answerRead true zeroLine (advise cUNCORR {} [b, granOf s.grade off] (noteRead s off))
        else answerRead false (readBytes s off 64) (noteRead s off)
    | some _ =>
      let s := reachRead ownSvc [off] s
      answerRead false (readBytes s off 64) s

/-- The bytes of a line of the register window. -/
def regLine (s : State) (off : Nat) : List W8 := (List.range 16).flatMap (fun k => leBytes 4 (regRead s (off + 4 * k)))

/-- A read of a line of the register window, which changes nothing (R438): it answers after every update of the AC in which it
comes (R255), once the completions and starts of that AC are in place. -/
def readRegs (off : Nat) (s : State) : State :=
  if inOrder s (ac s) then
    let s := advance (2 * ac s + 2) s
    let s := if off = 0x400 then settleEvts s else s
    answerRead false (regLine (settleTrace s) off) s
  else s

/-- HOST_WINDOW_READ (R413). -/
def execHostWindowRead (space off : Nat) (s : State) : Out :=
  let off := off / 64 * 64 % 2 ^ 32
  match space with
  | 0 => .next (readRegs off s)
  | 1 => .next (readCore off s)
  | sp => .next (answerRead true zeroLine (windowRange sp off s))

end Sys2Proof.Machine
end

