-- ==== Sys2Proof/Machine/Startup.lean ====
section
/-!
DEFINITION. The core reset (R424–R434): its phases, from the fuses to release.
-/
namespace Sys2Proof.Machine

/-- A row stands on a spare by fuse (R192). -/
def fuseRow (s : State) (p : Nat × Nat) : State :=
  if s.grade.banks ≤ p.1 ∨ p ∈ s.cm.repaired ∨ 8 ≤ (bank s p.1).spares then s else onSpare p.1 p.2 s

/-- Wall time passes, as much as it will up to n ticks: how long a phase takes is open, its longest is not (R424). -/
def phaseTakes (n : Nat) (s : State) : State :=
  let (k, s) := takeFree 1 s
  { s with wall := s.wall + Config.freeNat k % (n + 1) }

/-- The longest times of phases 0 to 2 together, and of phases 3 to 7, in wall ticks; 80 ns are 3,072 (R424). -/
def phaseLongest (n : Nat) : Nat :=
  if n = 2 then 60 * usTicks + 3072
  else if n = 3 then 2 * msTicks else if n = 4 then 100 * usTicks else if n = 5 then 50 * msTicks
  else if n = 6 then 30 * usTicks else 6 * msTicks

/-- Phase 0 to 2: every register at its reset value; what is not the core's own keeps its state: the fuses, the companion
macro, the Bezel, the parts, the levels at the ports, the commands that wait. -/
def afterFuses (r : ResetInput) (s0 : State) : State :=
  let (k, s) := takeFree 1 (phaseTakes (phaseLongest 2) s0)
  let t := s.wall
  let x : XmuSt := if r.keepExt then { ext := s.xmu.ext, gen := s.xmu.gen, mtempAt := t } else { gen := k + 1, mtempAt := t }
  s.fuseRows.foldl fuseRow { State.atRelease s.grade with
    pending := s.pending
    fuseRows := s.fuseRows
    wall := t
    resetAt := t
    resets := s.resets + 1
    free := s.free
    out := s.out
    seed := .entropy (s.resets + 1)
    xmu := { x with chans := s.xmu.chans.map (fun p => (p.1, { phyRdy := p.2.phyRdy })) }
    lnk := { ports := s.lnk.ports.map (fun p => (p.1, { ready := p.2.ready })) }
    rsl := { health := { lastAt := t }, made := s.rsl.made }
    pwr := { limit := peakMw s.grade, heldAt := t, stepAt := t }
    bezel := { s.bezel with mirror := {} }
    nvs := { copy0 := s.nvs.copy0, copy1 := s.nvs.copy1, phase := 2 }
    boot := some r }

/-- A phase runs to its end.
DESIGN CHOICE: log 11. -/
def setPhase (n : Nat) (s : State) : State := phaseTakes (phaseLongest n) (modNvs (fun v => { v with phase := n }) s)

/-! ### Phase 3: self-test (R424, R426) -/

/-- A row that fails is repaired from a spare, and so is one whose spare fails (R193); one that finds none is a failure.
DEDUCED: log 86. -/
def bistRow (s : State) (p : Nat × Nat) : State :=
  if s.grade.banks ≤ p.1 then s
  else if (bank s p.1).spares < 8 then
    if p ∈ s.cm.repaired then modBank s p.1 (fun k => { k with spares := k.spares + 1 }) else onSpare p.1 p.2 s
  else advise cBIST {} [p.1, p.2] (modNvs (fun n => { n with bistFail := true }) s)

/-- A failure of another SRAM that nothing repairs: its unit and row are open. -/
def bistOther (s : State) : State :=
  let (k, s) := takeFree 2 s
  advise cBIST {} [(Config.freeWord k).toNat, (Config.freeWord (k + 1)).toNat] (modNvs (fun n => { n with bistFail := true }) s)

/-- Phase 3: one BIST_FAIL for each failure.
DEDUCED: log 86. -/
def phase3 (r : ResetInput) (s : State) : State :=
  (List.replicate r.bistFails ()).foldl (fun s _ => bistOther s) (r.bistRows.foldl bistRow (setPhase 3 s))

/-! ### Phase 4: settings (R427, R428) -/

/-- The copy that is current, none where the defaults are in force. -/
def chooseCopy (n : NvsSt) : Option Nat :=
  match copyValid n 0, copyValid n 1 with
  | true, true => if copyWord n 1 1 < copyWord n 0 1 then some 0 else some 1
  | true, false => some 0
  | false, true => some 1
  | false, false => none

/-- Phase 4: the staging image is the current copy's or the defaults; hierarchy and auto_store follow its header. -/
def phase4 (s : State) : State :=
  let s := setPhase 4 s
  let n := s.nvs
  let s :=
    match chooseCopy n with
    | some c =>
      let s := modNvs (fun n => loadStaging c { n with current := c }) s
      if copyValid n (1 - c) || copyBlank n (1 - c) then s
      else logErr cNVS_COPY 2 {} [1 - c, copyWord n (1 - c) 1] (modNvs (fun n => { n with copyBad := true }) s)
    | none =>
      let s := modNvs (fun n => { defaultStaging n with current := 1 }) s
      if copyBlank n 0 && copyBlank n 1 then s
      else advise cNVS_LOST {} [] (modNvs (fun n => { n with lost := true }) s)
  let w := stagingWord s.nvs 2
  modCm (fun c => { c with hier := bit w 0 }) (modNvs (fun n => { n with auto_ := bit w 1 }) s)

/-! ### Phase 5: the board record (R433, R434, R284) -/

/-- Word i of the board record. -/
def boardWord (bs : List W8) (i : Nat) : Nat := wordAt bs (4 * i)

/-- Whether a board record is good. -/
def boardGood (bs : List W8) : Bool :=
  decide (bits (boardWord bs 0) 15 0 = 1) && decide (crc32c (bs.take 508) = boardWord bs 127)

/-- The position and aliases of a good record. -/
def boardPlace (bs : List W8) (s : State) : State :=
  let w := boardWord bs 1
  let s := { s with pos := if bit w 22 then bits w 21 0 else 0 }
  (List.range 8).foldl (fun s k =>
    aliasWrite k 4 (boardWord bs (9 + 2 * k)) (aliasWrite k 0 (boardWord bs (8 + 2 * k)) s)) s

/-- The memory that a good record names: one with an unsupported option is not populated. -/
def boardMem (bs : List W8) (s : State) : State :=
  let w := boardWord bs 2
  if bit w 0 = false then s
  else if bits w 3 2 = 3 ∨ 8 < bits w 7 4 then advise cXMU_CONFIG {} [8] s
  else modXmu (fun x => (List.range 4).foldl (fun x c => modChan c (fun k => { k with st := .training }) x)
    { x with populated := true, clamshell := bit w 1, density := bits w 3 2, rate := bits w 7 4
             partTemp := bit w 8, partRepair := bit w 9 }) s

/-- The management-bus address of the board identity memory (R427, R428). -/
def boardTarget (n : NvsSt) : Nat :=
  let a := bits (stagingWord n 2) 8 2
  if a = 0 then 0x50 else a

/-- Phase 5: 512 bytes are read from offset 0 of the target; a transaction of the management bus moves at most 256 (R415, R433). -/
def phase5 (r : ResetInput) (s : State) : State :=
  let s := setPhase 5 s
  let s := emit (.boardRead (boardTarget s.nvs) 256 256) (emit (.boardRead (boardTarget s.nvs) 0 256) s)
  let bs := (r.board.map (padTo 0#8 512)).getD []
  let s := modNvs (fun n => { n with board := bs }) s
  if bs ≠ [] ∧ boardGood bs = true then boardMem bs (boardPlace bs s)
  else advise cBOARD_BAD {} [] (modNvs (fun n => { n with boardBad := true }) s)

/-! ### Phase 6: memory and settings records (R175, R290, R429) -/

/-- A new board record clears the history of the old parts. -/
def newBoard (s : State) : State :=
  let n := s.nvs
  let crc := boardWord n.board 127
  if n.boardBad || decide (stagingWord n 4 = crc) then s
  else
    let keep (r : Nat × Nat) : Bool := !(decide (2 ≤ r.1 % 16) && decide (r.1 % 16 ≤ 4))
    storeReq (modNvs (fun n => setStaging 4 crc (putRecords ((records n).filter keep) n)) s)

/-- A remap record: it fills the next free entry of its channel; a record of a bad spare marks it, and no entry uses it.
DEDUCED: log 69. -/
def remapApply (lo hi : Nat) (x : XmuSt) : XmuSt :=
  let w := lo + hi * 2 ^ 32
  let bank := bits w 9 6
  let spare := bits w 33 26
  modChan (bits w 5 4) (fun k =>
    if bit w 36 then
      { k with bad := k.bad ++ [(bank, spare)]
               remaps := k.remaps.filter (fun p => !decide (p.2.bank = bank ∧ p.2.spare = spare)) }
    else
      match (List.range 4096).find? (fun i => !k.remaps.any (fun p => decide (p.1 = i))) with
      | some i => { k with remaps := SMap.put k.remaps i ⟨bank, bits w 25 10, spare, bits w 35 34⟩ }
      | none => k) x

/-- A preset: as a host write, but not of the ID block. -/
def preset (off v : Nat) (s : State) : State := if off < 0x1000 ∨ off % 4 ≠ 0 then s else regPut off v s

/-- One record (R427, R429). -/
def applyRecord (s : State) (r : Nat × Nat) : State :=
  match r.1 % 16 with
  | 1 =>
    let b := bits r.1 10 4
    let row := bits r.1 19 11
    if s.grade.banks ≤ b ∨ 8 ≤ (bank s b).spares ∨ (b, row) ∈ s.cm.repaired then s else onSpare b row s
  | 2 => modXmu (remapApply r.1 r.2) s
  | 3 => modXmu (modDir (bits r.1 22 4) (fun e => { e with st := .retired })) s
  | 4 => modXmu (mapOutDir (bits r.1 5 4)) s
  | 5 => preset (bits r.1 23 4) r.2 s
  | _ => s

/-- Phase 6: the banks are zero, the directory is as R290 sets it, and the records are applied in order. -/
def phase6 (s : State) : State :=
  let s := newBoard (setPhase 6 s)
  (records s.nvs).foldl applyRecord s

/-! ### Phases 7 and 8: training and release (R312, R424, R426) -/

/-- Whether a channel trains. -/
def trains (s : State) : Bool := (List.finRange 4).any (fun c => decide ((chan s.xmu c).st = .training))

/-- Phase 8: EC 0 begins with every context STOPPED, no fault, and the rings disabled, whatever a preset wrote; a store request
that waited starts its STORE; a core that failed self-test isolates itself. -/
def phase8 (s0 : State) : State :=
  let s := settleTrace (settleErr s0)
  let s := hstEnable false (modNvs (fun v => { v with phase := 8 }) { s with ec := 0, resetAt := s.wall, dispatched := none, boot := none })
  let stop (x : CtxSt) : CtxSt :=
    { x with cstate := .stopped, paused := false, stopping := false, faultCode := 0, faultTag := 0, faultSev := 0 }
  let s := (List.finRange 8).foldl (fun s c => modCtx s c stop) s
  let s := if s.nvs.storePending then startStore (modNvs (fun n => { n with storePending := false }) s) else s
  if s.nvs.bistFail then isolate s else s

/-- The next phase of a reset runs. Phase 7 lasts while a channel trains: TRAINING_ATTEMPT_END ends its attempts (R312), and
release follows.
DESIGN CHOICE: log 11. -/
def bootStep (s : State) : State :=
  let r := s.boot.getD default
  match s.nvs.phase with
  | 2 => phase3 r s
  | 3 => phase4 s
  | 4 => phase5 r s
  | 5 => phase6 s
  | 6 => setPhase 7 s
  | _ => if trains s then s else phase8 s

/-- CORE_RESET (R424): before a reset that host software requests, one final tap frame (R389). The phases up to the fuses run at
once, and the later ones while no command comes (R425); a reset in any phase begins again.
DESIGN CHOICE: log 11. -/
def execCoreReset (r : ResetInput) (s : State) : Out := .next (afterFuses r (if r.hostReq then sendTap s else s))

/-- What happens while no command comes: a reset goes on, or an EC passes. -/
def idleStep (s : State) : State := if s.nvs.phase < 8 then bootStep s else idle s

end Sys2Proof.Machine
end

