-- ==== Sys2Proof/Machine/Dispatch.lean ====
section
/-!
DEFINITION. The dispatch: one arm per command, each one call of that command's meaning.
-/
namespace Sys2Proof.Machine

def exec (i : Instr) (s : State) : Host.Outcome State Fault Refusal :=
  match i with
  | .escNop sl => Sys2Proof.Machine.execEscNop sl s
  | .escSet sl => Sys2Proof.Machine.execEscSet sl s
  | .escLdp sl => Sys2Proof.Machine.execEscLdp sl s
  | .escAlu sl => Sys2Proof.Machine.execEscAlu sl s
  | .escCmp sl => Sys2Proof.Machine.execEscCmp sl s
  | .escPlog sl => Sys2Proof.Machine.execEscPlog sl s
  | .escCmparm sl => Sys2Proof.Machine.execEscCmparm sl s
  | .escLoop sl => Sys2Proof.Machine.execEscLoop sl s
  | .escEndloop sl => Sys2Proof.Machine.execEscEndloop sl s
  | .escEnd sl => Sys2Proof.Machine.execEscEnd sl s
  | .mxeFill sl => Sys2Proof.Machine.execMxeFill sl s
  | .mxeFillA sl => Sys2Proof.Machine.execMxeFillA sl s
  | .mxeSwap sl => Sys2Proof.Machine.execMxeSwap sl s
  | .mxeStream sl => Sys2Proof.Machine.execMxeStream sl s
  | .ftqCvt sl => Sys2Proof.Machine.execFtqCvt sl s
  | .sctWriteCfg sl => Sys2Proof.Machine.execSctWriteCfg sl s
  | .sctWriteScale sl => Sys2Proof.Machine.execSctWriteScale sl s
  | .sctClear sl => Sys2Proof.Machine.execSctClear sl s
  | .sctRoll sl => Sys2Proof.Machine.execSctRoll sl s
  | .sctRead sl => Sys2Proof.Machine.execSctRead sl s
  | .txbLoad sl => Sys2Proof.Machine.execTxbLoad sl s
  | .vxeAdd sl => Sys2Proof.Machine.execVxeAdd sl s
  | .vxeSub sl => Sys2Proof.Machine.execVxeSub sl s
  | .vxeMul sl => Sys2Proof.Machine.execVxeMul sl s
  | .vxeFma sl => Sys2Proof.Machine.execVxeFma sl s
  | .vxeMin sl => Sys2Proof.Machine.execVxeMin sl s
  | .vxeMax sl => Sys2Proof.Machine.execVxeMax sl s
  | .vxeAbs sl => Sys2Proof.Machine.execVxeAbs sl s
  | .vxeNeg sl => Sys2Proof.Machine.execVxeNeg sl s
  | .vxeCmpEq sl => Sys2Proof.Machine.execVxeCmpEq sl s
  | .vxeCmpNe sl => Sys2Proof.Machine.execVxeCmpNe sl s
  | .vxeCmpLt sl => Sys2Proof.Machine.execVxeCmpLt sl s
  | .vxeCmpLe sl => Sys2Proof.Machine.execVxeCmpLe sl s
  | .vxeSelect sl => Sys2Proof.Machine.execVxeSelect sl s
  | .vxeCvt sl => Sys2Proof.Machine.execVxeCvt sl s
  | .flagsStore sl => Sys2Proof.Machine.execFlagsStore sl s
  | .flagsClear sl => Sys2Proof.Machine.execFlagsClear sl s
  | .vxeExp sl => Sys2Proof.Machine.execVxeExp sl s
  | .vxeExp2 sl => Sys2Proof.Machine.execVxeExp2 sl s
  | .vxeLog sl => Sys2Proof.Machine.execVxeLog sl s
  | .vxeLog2 sl => Sys2Proof.Machine.execVxeLog2 sl s
  | .vxeRcp sl => Sys2Proof.Machine.execVxeRcp sl s
  | .vxeDiv sl => Sys2Proof.Machine.execVxeDiv sl s
  | .vxeSqrt sl => Sys2Proof.Machine.execVxeSqrt sl s
  | .vxeRsqrt sl => Sys2Proof.Machine.execVxeRsqrt sl s
  | .vxeTanh sl => Sys2Proof.Machine.execVxeTanh sl s
  | .vxeSigmoid sl => Sys2Proof.Machine.execVxeSigmoid sl s
  | .vxeSilu sl => Sys2Proof.Machine.execVxeSilu sl s
  | .vxeGelu sl => Sys2Proof.Machine.execVxeGelu sl s
  | .vxeErf sl => Sys2Proof.Machine.execVxeErf sl s
  | .vxeSin sl => Sys2Proof.Machine.execVxeSin sl s
  | .vxeCos sl => Sys2Proof.Machine.execVxeCos sl s
  | .vxePermute sl => Sys2Proof.Machine.execVxePermute sl s
  | .vxeReverse sl => Sys2Proof.Machine.execVxeReverse sl s
  | .vxeRotate sl => Sys2Proof.Machine.execVxeRotate sl s
  | .vxeInterleave sl => Sys2Proof.Machine.execVxeInterleave sl s
  | .vxeDeinterleave sl => Sys2Proof.Machine.execVxeDeinterleave sl s
  | .vxePack sl => Sys2Proof.Machine.execVxePack sl s
  | .vxeUnpack sl => Sys2Proof.Machine.execVxeUnpack sl s
  | .vxeSum sl => Sys2Proof.Machine.execVxeSum sl s
  | .vxeRedMax sl => Sys2Proof.Machine.execVxeRedMax sl s
  | .vxeRedMin sl => Sys2Proof.Machine.execVxeRedMin sl s
  | .vxeAmax sl => Sys2Proof.Machine.execVxeAmax sl s
  | .vxeSumsq sl => Sys2Proof.Machine.execVxeSumsq sl s
  | .vxeTileSum sl => Sys2Proof.Machine.execVxeTileSum sl s
  | .vxeTileMax sl => Sys2Proof.Machine.execVxeTileMax sl s
  | .vxeTileMin sl => Sys2Proof.Machine.execVxeTileMin sl s
  | .vxeTileAmax sl => Sys2Proof.Machine.execVxeTileAmax sl s
  | .vxeTileSumsq sl => Sys2Proof.Machine.execVxeTileSumsq sl s
  | .tstate sl => Sys2Proof.Machine.execTstate sl s
  | .smxState sl => Sys2Proof.Machine.execSmxState sl s
  | .smxMerge sl => Sys2Proof.Machine.execSmxMerge sl s
  | .smxFinal sl => Sys2Proof.Machine.execSmxFinal sl s
  | .smxNorm sl => Sys2Proof.Machine.execSmxNorm sl s
  | .pinRun sl => Sys2Proof.Machine.execPinRun sl s
  | .atomLoad sl => Sys2Proof.Machine.execAtomLoad sl s
  | .atomSwap sl => Sys2Proof.Machine.execAtomSwap sl s
  | .atomCas sl => Sys2Proof.Machine.execAtomCas sl s
  | .atomAddI32 sl => Sys2Proof.Machine.execAtomAddI32 sl s
  | .atomAddF32 sl => Sys2Proof.Machine.execAtomAddF32 sl s
  | .atomMaxI32 sl => Sys2Proof.Machine.execAtomMaxI32 sl s
  | .atomMinI32 sl => Sys2Proof.Machine.execAtomMinI32 sl s
  | .atomMaxU32 sl => Sys2Proof.Machine.execAtomMaxU32 sl s
  | .atomMinU32 sl => Sys2Proof.Machine.execAtomMinU32 sl s
  | .atomMaxF32 sl => Sys2Proof.Machine.execAtomMaxF32 sl s
  | .atomMinF32 sl => Sys2Proof.Machine.execAtomMinF32 sl s
  | .atomAnd sl => Sys2Proof.Machine.execAtomAnd sl s
  | .atomOr sl => Sys2Proof.Machine.execAtomOr sl s
  | .atomXor sl => Sys2Proof.Machine.execAtomXor sl s
  | .atomIncWrap sl => Sys2Proof.Machine.execAtomIncWrap sl s
  | .synSignal sl => Sys2Proof.Machine.execSynSignal sl s
  | .synWait sl => Sys2Proof.Machine.execSynWait sl s
  | .hoistArriveWait sl => Sys2Proof.Machine.execHoistArriveWait sl s
  | .hoistArrive sl => Sys2Proof.Machine.execHoistArrive sl s
  | .hoistWait sl => Sys2Proof.Machine.execHoistWait sl s
  | .xdmaRead sl => Sys2Proof.Machine.execXdmaRead sl s
  | .xdmaWrite sl => Sys2Proof.Machine.execXdmaWrite sl s
  | .xdmaGather sl => Sys2Proof.Machine.execXdmaGather sl s
  | .xdmaSmread sl => Sys2Proof.Machine.execXdmaSmread sl s
  | .xdmaSmwrite sl => Sys2Proof.Machine.execXdmaSmwrite sl s
  | .stashClaim sl => Sys2Proof.Machine.execStashClaim sl s
  | .stashFetch sl => Sys2Proof.Machine.execStashFetch sl s
  | .stashRelease sl => Sys2Proof.Machine.execStashRelease sl s
  | .lnkWrite sl => Sys2Proof.Machine.execLnkWrite sl s
  | .lnkRead sl => Sys2Proof.Machine.execLnkRead sl s
  | .engineCommandStart q => Sys2Proof.Machine.execEngineCommandStart q s
  | .commandDone => Sys2Proof.Machine.execCommandDone s
  | .asyncCommandComplete job => Sys2Proof.Machine.execAsyncCommandComplete job s
  | .arrayLevelFall => Sys2Proof.Machine.execArrayLevelFall s
  | .gateArrival => Sys2Proof.Machine.execGateArrival s
  | .gateDeadlineExpiry => Sys2Proof.Machine.execGateDeadlineExpiry s
  | .gateRelease => Sys2Proof.Machine.execGateRelease s
  | .untimedPointRelease c => Sys2Proof.Machine.execUntimedPointRelease c s
  | .quantumExpiry => Sys2Proof.Machine.execQuantumExpiry s
  | .contextSwitch => Sys2Proof.Machine.execContextSwitch s
  | .partitionSpill => Sys2Proof.Machine.execPartitionSpill s
  | .contextStopped c => Sys2Proof.Machine.execContextStopped c s
  | .contextQuiesced c => Sys2Proof.Machine.execContextQuiesced c s
  | .plainArrival idx => Sys2Proof.Machine.execPlainArrival idx s
  | .combinedArrival idx => Sys2Proof.Machine.execCombinedArrival idx s
  | .syncTimeout idx => Sys2Proof.Machine.execSyncTimeout idx s
  | .hoistWaitTimeout c => Sys2Proof.Machine.execHoistWaitTimeout c s
  | .halyardSend => Sys2Proof.Machine.execHalyardSend s
  | .signalMessage m => Sys2Proof.Machine.execSignalMessage m s
  | .arriveMessage m => Sys2Proof.Machine.execArriveMessage m s
  | .releaseMessage m => Sys2Proof.Machine.execReleaseMessage m s
  | .abortMessage m => Sys2Proof.Machine.execAbortMessage m s
  | .thermalAdvisory m => Sys2Proof.Machine.execThermalAdvisory m s
  | .linkPacketSend port vc => Sys2Proof.Machine.execLinkPacketSend port vc s
  | .writePacket port pkt => Sys2Proof.Machine.execWritePacket port pkt s
  | .readReq port pkt => Sys2Proof.Machine.execReadReq port pkt s
  | .ack port pkt => Sys2Proof.Machine.execAck port pkt s
  | .readData port pkt => Sys2Proof.Machine.execReadData port pkt s
  | .snapData port pkt => Sys2Proof.Machine.execSnapData port pkt s
  | .snapAck port pkt => Sys2Proof.Machine.execSnapAck port pkt s
  | .linkTimeout port seq => Sys2Proof.Machine.execLinkTimeout port seq s
  | .linkPortUp port cr => Sys2Proof.Machine.execLinkPortUp port cr s
  | .linkPortDown port => Sys2Proof.Machine.execLinkPortDown port s
  | .xmuReadReturn job idx ret => Sys2Proof.Machine.execXmuReadReturn job idx ret s
  | .wcbLineDrain idx => Sys2Proof.Machine.execWcbLineDrain idx s
  | .smResponse tag wack err data => Sys2Proof.Machine.execSmResponse tag wack err data s
  | .xmuRowFault ch bank row => Sys2Proof.Machine.execXmuRowFault ch bank row s
  | .remapCopyDone => Sys2Proof.Machine.execRemapCopyDone s
  | .xmuRemapReq v => Sys2Proof.Machine.execXmuRemapReq v s
  | .retrain ch => Sys2Proof.Machine.execRetrain ch s
  | .mapOut ch => Sys2Proof.Machine.execMapOut ch s
  | .trainingAttemptEnd ch pass => Sys2Proof.Machine.execTrainingAttemptEnd ch pass s
  | .xmuDirHi v => Sys2Proof.Machine.execXmuDirHi v s
  | .xmuDevCmd v result => Sys2Proof.Machine.execXmuDevCmd v result s
  | .xmuThermalSample t => Sys2Proof.Machine.execXmuThermalSample t s
  | .advisoryPeriodExpiry => Sys2Proof.Machine.execAdvisoryPeriodExpiry s
  | .launch r data => Sys2Proof.Machine.execLaunch r data s
  | .replay r data => Sys2Proof.Machine.execReplay r data s
  | .copy r => Sys2Proof.Machine.execCopy r s
  | .signal r => Sys2Proof.Machine.execSignal r s
  | .wait r => Sys2Proof.Machine.execWait r s
  | .snapshot r => Sys2Proof.Machine.execSnapshot r s
  | .fence r => Sys2Proof.Machine.execFence r s
  | .hstSqDb c v => Sys2Proof.Machine.execHstSqDb c v s
  | .hstCqDb v => Sys2Proof.Machine.execHstCqDb v s
  | .hstEqDb v => Sys2Proof.Machine.execHstEqDb v s
  | .ringStop c => Sys2Proof.Machine.execRingStop c s
  | .ringResume c => Sys2Proof.Machine.execRingResume c s
  | .ringReset c => Sys2Proof.Machine.execRingReset c s
  | .hostReadCompletion tag err data => Sys2Proof.Machine.execHostReadCompletion tag err data s
  | .recordWrite ring => Sys2Proof.Machine.execRecordWrite ring s
  | .hostWindowWrite space off data be => Sys2Proof.Machine.execHostWindowWrite space off data be s
  | .hostWindowRead space off => Sys2Proof.Machine.execHostWindowRead space off s
  | .registerWrite off v => Sys2Proof.Machine.execRegisterWrite off v s
  | .ctxQuiesce c => Sys2Proof.Machine.execCtxQuiesce c s
  | .ctxStop c => Sys2Proof.Machine.execCtxStop c s
  | .ctxResume c => Sys2Proof.Machine.execCtxResume c s
  | .ctxClear c => Sys2Proof.Machine.execCtxClear c s
  | .pennantSet p v => Sys2Proof.Machine.execPennantSet p v s
  | .synHoistCfgWrite h v => Sys2Proof.Machine.execSynHoistCfgWrite h v s
  | .hostArrive h => Sys2Proof.Machine.execHostArrive h s
  | .rearm h => Sys2Proof.Machine.execRearm h s
  | .stashCfgWrite c v => Sys2Proof.Machine.execStashCfgWrite c v s
  | .cmemMapCommit => Sys2Proof.Machine.execCmemMapCommit s
  | .cmemPartEvict mask => Sys2Proof.Machine.execCmemPartEvict mask s
  | .cmemPwrReq bank req => Sys2Proof.Machine.execCmemPwrReq bank req s
  | .bankDrainEnd bank => Sys2Proof.Machine.execBankDrainEnd bank s
  | .bankDrainTimeout bank => Sys2Proof.Machine.execBankDrainTimeout bank s
  | .bankTransitionDone bank => Sys2Proof.Machine.execBankTransitionDone bank s
  | .cmemRepair bank row => Sys2Proof.Machine.execCmemRepair bank row s
  | .repairSwitch => Sys2Proof.Machine.execRepairSwitch s
  | .scrubTick upsets => Sys2Proof.Machine.execScrubTick upsets s
  | .scrubWriteback => Sys2Proof.Machine.execScrubWriteback s
  | .pinFence idx v => Sys2Proof.Machine.execPinFence idx v s
  | .pinFenceApply p => Sys2Proof.Machine.execPinFenceApply p s
  | .pinSelftest p => Sys2Proof.Machine.execPinSelftest p s
  | .selftestDone pass => Sys2Proof.Machine.execSelftestDone pass s
  | .sctSrSeed v => Sys2Proof.Machine.execSctSrSeed v s
  | .healthSample => Sys2Proof.Machine.execHealthSample s
  | .snapshotFloorExpiry => Sys2Proof.Machine.execSnapshotFloorExpiry s
  | .snapshotIntervalExpiry => Sys2Proof.Machine.execSnapshotIntervalExpiry s
  | .snapshotQuiesceEnd => Sys2Proof.Machine.execSnapshotQuiesceEnd s
  | .snapQuiesceTimeout => Sys2Proof.Machine.execSnapQuiesceTimeout s
  | .fillStart => Sys2Proof.Machine.execFillStart s
  | .fillFinish => Sys2Proof.Machine.execFillFinish s
  | .fillAbort => Sys2Proof.Machine.execFillAbort s
  | .fillTimeout => Sys2Proof.Machine.execFillTimeout s
  | .isolate => Sys2Proof.Machine.execIsolate s
  | .svIsolate => Sys2Proof.Machine.execSvIsolate s
  | .coreReset r => Sys2Proof.Machine.execCoreReset r s
  | .nvsStore => Sys2Proof.Machine.execNvsStore s
  | .storeComplete ok => Sys2Proof.Machine.execStoreComplete ok s
  | .nvsReload => Sys2Proof.Machine.execNvsReload s
  | .firmwareLoad => Sys2Proof.Machine.execFirmwareLoad s
  | .firmwareLoadDone img => Sys2Proof.Machine.execFirmwareLoadDone img s
  | .pmDroop => Sys2Proof.Machine.execPmDroop s
  | .droopRelease => Sys2Proof.Machine.execDroopRelease s
  | .persistentDroop => Sys2Proof.Machine.execPersistentDroop s
  | .droopRecovered => Sys2Proof.Machine.execDroopRecovered s
  | .stretchFallStep => Sys2Proof.Machine.execStretchFallStep s
  | .dieTempSample ts => Sys2Proof.Machine.execDieTempSample ts s
  | .powerEstimate us => Sys2Proof.Machine.execPowerEstimate us s
  | .pllUnlock => Sys2Proof.Machine.execPllUnlock s
  | .internalParity unit => Sys2Proof.Machine.execInternalParity unit s
  | .clockGate unit => Sys2Proof.Machine.execClockGate unit s
  | .svEvt idx => Sys2Proof.Machine.execSvEvt idx s
  | .evtStuck idx => Sys2Proof.Machine.execEvtStuck idx s
  | .evtUnmask idx => Sys2Proof.Machine.execEvtUnmask idx s
  | .chMtemp t => Sys2Proof.Machine.execChMtemp t s
  | .mtempStuck => Sys2Proof.Machine.execMtempStuck s
  | .errAck => Sys2Proof.Machine.execErrAck s
  | .errFlush => Sys2Proof.Machine.execErrFlush s
  | .errTrcMark v => Sys2Proof.Machine.execErrTrcMark v s
  | .tapFrameSend => Sys2Proof.Machine.execTapFrameSend s
  | .tapFrame ws => Sys2Proof.Machine.execTapFrame ws s
  | .tapGap => Sys2Proof.Machine.execTapGap s
  | .bezelPowerUp => Sys2Proof.Machine.execBezelPowerUp s
  | .bezelGlitch => Sys2Proof.Machine.execBezelGlitch s
  | .periodicReport => Sys2Proof.Machine.execPeriodicReport s
  | .bezelLivePublish => Sys2Proof.Machine.execBezelLivePublish s
  | .report => Sys2Proof.Machine.execReport s
  | .setInterval n => Sys2Proof.Machine.execSetInterval n s
  | .readReport => Sys2Proof.Machine.execReadReport s
  | .readCert => Sys2Proof.Machine.execReadCert s
  | .readLog => Sys2Proof.Machine.execReadLog s
  | .fwLoad pkg => Sys2Proof.Machine.execFwLoad pkg s
  | .calLoad pkg => Sys2Proof.Machine.execCalLoad pkg s
  | .retire pkg => Sys2Proof.Machine.execRetire pkg s
  | .reservedOpcode sl => Sys2Proof.Machine.execReservedOpcode sl s
  | .creditReturn port vc => Sys2Proof.Machine.execCreditReturn port vc s
  | .chWerr w => Sys2Proof.Machine.execChWerr w s
  | .chPhyRdy ch rdy => Sys2Proof.Machine.execChPhyRdy ch rdy s
  | .bezelSupplyLoss => Sys2Proof.Machine.execBezelSupplyLoss s

end Sys2Proof.Machine
end

