-- ==== Sys2Proof/Machine/Pins.lean ====
section
/-!
DEFINITION. The output pins that hold a level (chapter 20), as functions of the state. What leaves in packets, messages,
requests and frames is recorded in the field out.
DESIGN CHOICE: log 105.
-/
namespace Sys2Proof.Machine

/-- CK_LOCK: the root PLL is locked (R373, R409). -/
def ckLock (s : State) : Bool := s.pwr.pllLock
/-- PM_TRIP: from a PLL_UNLOCK or DIE_TRIP until the reset (R373, R378). -/
def pmTrip (s : State) : Bool := s.pwr.tripOut
/-- PM_LEVEL: the array's activity level in the present AC (R34). -/
def pmLevel (s : State) : Nat := levelAt s.mxe (ac s)
/-- HW_IRQ: bit 0 while the completion ring's tail differs from its head, bit 1 likewise for the event ring (R414). -/
def hwIrq (s : State) : Nat := b2n (decide (s.hst.cq.tail ≠ s.hst.cq.head)) + 2 * b2n (decide (s.hst.eq_.tail ≠ s.hst.eq_.head))
/-- FLp_EN: the core offers link port p (R412, R415). -/
def flEn (s : State) (p : Port) : Bool := portEn s p
/-- SV_ERR: the severity that the service port shows (R408). -/
def svErr (s : State) : Nat := outSev s.err

end Sys2Proof.Machine
end

