-- ==== Sys2Proof/Safety.lean ====
section
/-!
DEFINITION. The vocabulary of the statements: the invariant of core memory, what a step never undoes, when a command slot is due,
what an issue leaves in its context, and what a command does not touch.
-/
namespace Sys2Proof.Machine

/-- The canonical form of core memory: addresses strictly rising, and no entry equal to what an unlisted address reads as. -/
def MemInv (s : State) : Prop := SMap.wf emptyByte s.mem = true

/-- The state in which a due slot issues: time has passed up to its issue EC, and what was due before it has come about. -/
def issueState (s : State) (c : Ctx) (sl : Slot) : State := advance (dueEc s (ctx s c) sl) s

/-- The slot `sl` is the one that context c is due to issue (R209): c is dispatched, RUNNING and inside a section, the slot
stands at its issue position, every completion due by its issue EC has happened (R210), and nothing that comes about up to its
issue stops it. -/
structure Due (s : State) (c : Ctx) (sl : Slot) : Prop where
  dispatched : s.dispatched = some c
  running : (ctx s c).cstate = .running
  going : (ctx s c).stopping = false
  inSection : (ctx s c).point = .inSection
  notSwitching : s.switching = false
  atPos : slotAt s (ctx s c) (ctx s c).pos = sl
  completed : settled s (dueEc s (ctx s c) sl) = true
  stillGoing : (ctx (issueState s c sl) c).stopping = false ∧ (ctx (issueState s c sl) c).cstate = .running

/-- The context as a due slot finds it at its issue, what is due of it included (R209, R210). -/
def issueCtx (s : State) (c : Ctx) (sl : Slot) : CtxSt := atIssue (dueEc s (ctx s c) sl) (ctx (issueState s c sl) c)

/-- The predicate of the slot lets it issue: its bit is not what pred_inv holds (R209). -/
def Passes (s : State) (c : Ctx) (sl : Slot) : Prop := getPred (issueCtx s c sl) (predOf sl) ≠ predInv sl

/-- The context after the issue of a slot, but for the command's own effect: the comparators have been updated, the position
has moved on, and the next gap counts from the issue EC (R26, R209, R212). -/
def afterIssue (s : State) (c : Ctx) (sl : Slot) : CtxSt :=
  let x := issueCtx s c sl
  { x with
    pos := (ctx s c).pos + 1, lastIssue := dueEc s (ctx s c) sl, fresh := false, slipping := false
    issued := (x.issued + 1) % 2 ^ 32 }

/-- Nothing of the error log changes but the trace (R402, R406). -/
def SameLog (s t : State) : Prop :=
  t.err.log = s.err.log ∧ t.err.active = s.err.active ∧ t.err.lost = s.err.lost ∧ t.err.counts = s.err.counts

/-- The frame of a scalar command of context c: every other context, every byte of core memory, every queue, every running
command and every other field of the state but the trace are as at its issue, and but for what came about up to it as before. -/
structure ScalarFrame (s : State) (c : Ctx) (sl : Slot) (t : State) : Prop where
  rest : t = { issueState s c sl with ctxs := t.ctxs, err := t.err }
  time : t.ec = Nat.max s.ec (dueEc s (ctx s c) sl)
  others : ∀ d : Ctx, d ≠ c → ctx t d = ctx (issueState s c sl) d
  bytes : ∀ a, readByte t a = readByte s a
  queues : ∀ q, queue t q = queue s q
  log : SameLog (issueState s c sl) t

/-- The frame of a command that enters queue q: as for a scalar command, but for that queue and the clock gates of its unit
(R380). -/
structure QueueFrame (s : State) (c : Ctx) (sl : Slot) (q : QName) (t : State) : Prop where
  rest : t = { issueState s c sl with ctxs := t.ctxs, err := t.err, queues := t.queues, pwr := t.pwr }
  time : t.ec = Nat.max s.ec (dueEc s (ctx s c) sl)
  others : ∀ d : Ctx, d ≠ c → ctx t d = ctx (issueState s c sl) d
  queues : ∀ p, p ≠ q → queue t p = queue s p
  bytes : ∀ a, readByte t a = readByte s a
  log : SameLog (issueState s c sl) t

/-- A row of an engine command: its queue, its opcode, what marks its form among the slots of that opcode, and its command. -/
structure EngineRow where
  q : QName
  op : Nat
  form : Slot → Bool
  cmd : Slot → Instr

/-- A VXE row by its operation (R114). -/
def vxeRow (v : Nat) (cmd : Slot → Instr) : EngineRow := ⟨.vxe, 0x20, fun sl => decide (slotVop sl = v), cmd⟩
/-- A PIN.ATOM row by its operation (R162). -/
def atomRow (a : Nat) (cmd : Slot → Instr) : EngineRow := ⟨.pin, 0x25, fun sl => decide (slotAop sl = a), cmd⟩
/-- A SCT.SET row by its operation (R221). -/
def sctRow (o : Nat) (cmd : Slot → Instr) : EngineRow := ⟨.mxe, 0x15, fun sl => decide (sctOpOf sl = o), cmd⟩
/-- A row with an opcode of its own. -/
def plainRow (q : QName) (op : Nat) (cmd : Slot → Instr) : EngineRow := ⟨q, op, fun _ => true, cmd⟩

/-- The rows of the matrix engine, the trackers and the transposing buffers that issue into a queue; MXE_STREAM in its ungated
form. -/
def mxeRows : List EngineRow :=
  [ plainRow .mxe 0x10 .mxeFill, plainRow .mxe 0x11 .mxeFillA, plainRow .mxe 0x12 .mxeSwap,
    ⟨.mxe, 0x13, fun sl => !bit sl.w5.toNat 23, .mxeStream⟩, plainRow .mxe 0x14 .ftqCvt,
    sctRow 0 .sctWriteCfg, sctRow 1 .sctWriteScale, sctRow 2 .sctClear, sctRow 3 .sctRoll, plainRow .mxe 0x16 .sctRead,
    plainRow .txb 0x18 .txbLoad ]

/-- The rows of the vector engine (R114, R120). -/
def vxeRows : List EngineRow :=
  [ vxeRow 0x00 .vxeAdd, vxeRow 0x01 .vxeSub, vxeRow 0x02 .vxeMul, vxeRow 0x03 .vxeFma, vxeRow 0x04 .vxeMin,
    vxeRow 0x05 .vxeMax, vxeRow 0x06 .vxeAbs, vxeRow 0x07 .vxeNeg, vxeRow 0x08 .vxeCmpEq, vxeRow 0x09 .vxeCmpNe,
    vxeRow 0x0A .vxeCmpLt, vxeRow 0x0B .vxeCmpLe, vxeRow 0x0C .vxeSelect, vxeRow 0x0D .vxeCvt, vxeRow 0x0E .flagsStore,
    vxeRow 0x0F .flagsClear, vxeRow 0x10 .vxeExp, vxeRow 0x11 .vxeExp2, vxeRow 0x12 .vxeLog, vxeRow 0x13 .vxeLog2,
    vxeRow 0x14 .vxeRcp, vxeRow 0x15 .vxeDiv, vxeRow 0x16 .vxeSqrt, vxeRow 0x17 .vxeRsqrt, vxeRow 0x18 .vxeTanh,
    vxeRow 0x19 .vxeSigmoid, vxeRow 0x1A .vxeSilu, vxeRow 0x1B .vxeGelu, vxeRow 0x1C .vxeErf, vxeRow 0x1D .vxeSin,
    vxeRow 0x1E .vxeCos, vxeRow 0x30 .vxePermute, vxeRow 0x31 .vxeReverse, vxeRow 0x32 .vxeRotate,
    vxeRow 0x33 .vxeInterleave, vxeRow 0x34 .vxeDeinterleave, vxeRow 0x35 .vxePack, vxeRow 0x36 .vxeUnpack,
    vxeRow 0x20 .vxeSum, vxeRow 0x21 .vxeRedMax, vxeRow 0x22 .vxeRedMin, vxeRow 0x23 .vxeAmax, vxeRow 0x24 .vxeSumsq,
    vxeRow 0x28 .vxeTileSum, vxeRow 0x29 .vxeTileMax, vxeRow 0x2A .vxeTileMin, vxeRow 0x2B .vxeTileAmax,
    vxeRow 0x2C .vxeTileSumsq, vxeRow 0x2D .tstate, vxeRow 0x38 .smxState, vxeRow 0x39 .smxMerge, vxeRow 0x3A .smxFinal,
    vxeRow 0x3B .smxNorm ]

/-- The rows of the pinions (R145, R162). -/
def pinRows : List EngineRow :=
  [ plainRow .pin 0x24 .pinRun, atomRow 0x0 .atomLoad, atomRow 0x1 .atomSwap, atomRow 0x2 .atomCas, atomRow 0x3 .atomAddI32,
    atomRow 0x4 .atomAddF32, atomRow 0x5 .atomMaxI32, atomRow 0x6 .atomMinI32, atomRow 0x7 .atomMaxU32,
    atomRow 0x8 .atomMinU32, atomRow 0x9 .atomMaxF32, atomRow 0xA .atomMinF32, atomRow 0xB .atomAnd, atomRow 0xC .atomOr,
    atomRow 0xD .atomXor, atomRow 0xE .atomIncWrap ]

/-- The rows of external memory, shared memory, the stash and the link (R222, R296, R297, R322, R94). -/
def xferRows : List EngineRow :=
  [ plainRow .xdma 0x30 .xdmaRead, plainRow .xdma 0x31 .xdmaWrite, plainRow .xdma 0x32 .xdmaGather,
    plainRow .xdma 0x33 .xdmaSmread, plainRow .xdma 0x34 .xdmaSmwrite, plainRow .xdma 0x35 .stashClaim,
    plainRow .xdma 0x36 .stashFetch, plainRow .xdma 0x37 .stashRelease, plainRow .lnk 0x38 .lnkWrite,
    plainRow .lnk 0x39 .lnkRead ]

/-- Every row whose command enters a queue. -/
def engineRows : List EngineRow := mxeRows ++ vxeRows ++ pinRows ++ xferRows

/-- The slot is one of the row. -/
def EngineRow.has (r : EngineRow) (sl : Slot) : Prop := opcodeOf sl = r.op ∧ r.form sl = true

/-- The exact value of a finite decoded number; 0 for the others. -/
def valRat : Val → ℚ
  | .fin neg m e => (if neg then -1 else 1) * m * 2 ^ e
  | _ => 0

/-- A message of a kind with a good check for the core's own position (R264, R265). -/
def GoodMessage (s : State) (k : Nat) (m : HalMsg) : Prop :=
  bits m.w0.toNat 3 0 = k ∧ bits m.w2.toNat 31 16 = halCrc m ∧ acceptsPos s (bits m.w0.toNat 25 4) = true

/-- No STREAM is running. -/
def NoStream (s : State) : Prop := ∀ r ∈ s.runs, r.opcode ≠ 0x13 ∧ ∀ f ∈ r.effs, ∀ n stamp acc rows, f ≠ .sums n stamp acc rows

/-- A running command that meets no other: it runs over no granules, or it is the only command, and all of its granules are still to
come. -/
def Alone (s : State) (r : Run) : Prop :=
  r.seat = 0 ∨ s.runs = [r] ∧ ∃ x : Span, s.spans = [(r.seat, x)] ∧ x.dirty = false ∧ x.landed = []

/-- Nothing of the pennants, the hoists and the signals waits to come about as time passes (R247, R252, R258, R259). -/
def NothingDue (s : State) : Prop := s.syn.evals = []

/-- No engine command runs or waits, and nothing waits to come about: a host write has its EC at once (R440). -/
def NoEngineWork (s : State) : Prop := s.runs = [] ∧ (∀ q, queue s q = []) ∧ NothingDue s

/-- The take waits, of those given in order of arrival, that a count covers one after the other (R247 step 3). -/
def coveredTakes : Nat → List PWait → List PWait
  | _, [] => []
  | n, w :: ws => if w.value ≤ n then w :: coveredTakes (n - w.value) ws else []

/-- No running command carries the result of an arrival (R158). -/
def NoneCarried (s : State) : Prop := ∀ a ∈ s.xfer.arrivals, a.carrier = none

/-- The core is released (R425). -/
def Released (s : State) : Prop := 8 ≤ s.nvs.phase

/-- Nothing has to do with pennant p: no wait, no gate, no evaluation and no other update of this AC (R245, R247). -/
structure Untouched (s : State) (p : Nat) : Prop where
  noWait : ∀ w ∈ s.syn.waits, w.pennant ≠ p
  noGate : ∀ g, s.mxe.gate = some g → g.pennant ≠ p
  noEval : ∀ x ∈ s.syn.evals, x.2 ≠ p
  noUpd : ∀ u ∈ s.syn.upds, u.p ≠ p

/-- No running command has still to write a granule. -/
def NoneOwes (s : State) (g : Nat) : Prop := ∀ r ∈ s.runs, owesGran s r g = false

/-- No packet waits in a port's buffer, and no bytes of a fill wait for room. -/
def NoHeldPacket (s : State) : Prop := (port s 0).heldIn = [] ∧ (port s 1).heldIn = [] ∧ s.rsl.fill.late = []

/-- No transfer is in progress, and nothing waits that comes from outside. -/
def Quiet (s : State) : Prop := s.xfer.jobs = [] ∧ s.xfer.late = [] ∧ NoHeldPacket s

/-- A packet of a kind that its port accepts: the fabric holds a credit for each of its flits (R320, R326, R329). -/
structure Accepts (s : State) (p : Port) (k : Nat) (r : Packet) : Prop where
  live : s.isolated = false
  up : (port s p).up = true
  kind : r.kind = k
  good : r.good = true
  mine : acceptsPos s r.dst = true
  credit : r.flits ≤ fabricCredits s p (chanOf k)

end Sys2Proof.Machine
end

