-- ==== Sys2Proof/Certificates/Slice0/Obligations.lean ====
section
/-!
DEFINITION. The statements about the block, for the provers. Each docstring names the rule of spec/ that it formalises.
-/
open Sys2Proof Sys2Proof.Machine Host

/-! ### The queue of commands and the whole machine -/

/-- A step with a command waiting is exec of that command on the state with the queue's rest (the row's cut: a block). -/
def Obligations.StepRunsFrontCommand : Prop :=
  ∀ (s : State) (i : Instr) (rest : List Instr),
    step { s with pending := i :: rest } = exec i { s with pending := rest }

/-- With no command waiting and the core released one EC passes, and while nothing is due, no fill waits to finish and no
trace record is on its way nothing but the time changes. The model's own choice: assumption 3. -/
def Obligations.EmptyQueuePassesOneEc : Prop :=
  ∀ s : State, s.pending = [] → Released s → NothingDue s → s.rsl.fill.finishing = false → s.err.trcQ = [] → s.err.trcWait = [] →
    ∃ t, step s = .next t ∧ t.ec = s.ec + 1 ∧ t.wall = s.wall + ecTicks s.factor ∧
      t = { s with ec := t.ec, wall := t.wall, stretched := t.stretched }

/-- Core memory stays in canonical form under every step, from every state that has it so. -/
def Obligations.StepKeepsMemoryCanonical : Prop :=
  ∀ s t : State, MemInv s → step s = .next t → MemInv t

/-- R368: an isolated core returns to service only through a core reset: neither another command nor the passing of time ends
it. R5: nothing changes the grade: no command, no register write, no board record, no core reset. -/
def Obligations.IsolationAndGradeLast : Prop :=
  ∀ s t : State, step s = .next t → t.grade = s.grade ∧
    ((∀ r rest, s.pending ≠ .coreReset r :: rest) → s.isolated = true → t.isolated = true)

/-- What reset leaves where the spec states it: every context STOPPED with no fault (R424), predicates with p0 alone set
(R196), pennants 0 (R243), the quantum of 1,000 µs (R228), tracker slots with scale 1 (R59), every bank ON (R185),
core memory in canonical form, fault-free registers, empty queues, EC 0. The choices it rests on: log 5, 6, 7. -/
def Obligations.ResetState : Prop :=
  MemInv State.reset ∧
  (∀ c : Ctx, (ctx State.reset c).cstate = .stopped ∧ (ctx State.reset c).faultCode = 0 ∧ (ctx State.reset c).pred = 1#16) ∧
  (∀ p, pennant State.reset p = 0) ∧ State.reset.quantumUs = 1000 ∧
  (∀ n, (sctSlot State.reset n).scale = 0x3F800000 ∧ (sctSlot State.reset n).scaleInv = 0x3F800000) ∧
  (∀ b, (bank State.reset b).pw = .on) ∧ (∀ q, queue State.reset q = []) ∧ State.reset.ec = 0 ∧ State.reset.runs = [] ∧
  State.reset.isolated = false ∧ (∀ n, (ftq State.reset n).st = .free) ∧ State.reset.err.log = [] ∧
  State.reset.pending = []

/-! ### Issue (chapter 09) -/

/-- R27: a command skipped by its predicate uses its issue EC and its issue gap, and enters no queue; the next command is due
in the same EC as after an issue. Every row whose slots obey the predicate: the scalar rows but LOOP, ENDLOOP and END, SYN,
HOIST, the engine rows and the rows of reserved opcodes. -/
def Obligations.SkippedCommandUsesItsGap : Prop :=
  ∀ (s : State) (c : Ctx) (sl : Slot) (i : Instr),
    i ∈ [.escNop sl, .escSet sl, .escLdp sl, .escAlu sl, .escCmp sl, .escPlog sl, .escCmparm sl, .synSignal sl, .synWait sl,
         .hoistArriveWait sl, .hoistArrive sl, .hoistWait sl, .reservedOpcode sl] ++ engineRows.map (fun r => r.cmd sl) →
    Due s c sl → ¬ Passes s c sl → (∀ f, exec i s ≠ .fault f) →
    ∃ t, exec i s = .next t ∧ ScalarFrame s c sl t ∧
      ctx t c = { issueCtx s c sl with
        pos := (ctx s c).pos + 1, lastIssue := dueEc s (ctx s c) sl, fresh := false, slipping := false } ∧
      (∀ q, queue t q = queue s q) ∧
      (∀ n, dueEc t (ctx t c) n = dueEc s (ctx s c) sl + gapOf n ∧ dueEc t (ctx t c) n = dueEc t (afterIssue s c sl) n)

/-- ESC.NOP has no effect but its issue; ESC.SET writes the 64-bit immediate of words 2 and 3 into an address register;
ESC.LDP copies a parameter register into one (R211). ESC.ALU (R211): ADD, SUB and MUL wrap modulo 2^64; shifts take the low 6
bits of b; MIN and MAX are unsigned; b is an address register or the sign-extended immediate. R210: a command reads an
address register as the writes that landed before its issue left it: one that an engine makes in AC n is seen from EC 2n + 2
on. It concludes that ESC_NOP, ESC_SET, ESC_LDP and ESC_ALU complete. -/
def Obligations.RegisterCommandsResults : Prop :=
  (∀ (e n k a : Nat) (v : W64) (x : CtxSt), x.late = [] →
     (e < 2 * n + 2 → getAreg (seeLate e (landAreg n k a v x)) a = getAreg x a) ∧
     (2 * n + 2 ≤ e → (∀ m, SMap.get 0 x.wroteAt m ≤ 2 * n + 1) →
       getAreg (seeLate e (landAreg n k a v x)) a = v ∧ ∀ b, b ≠ a → getAreg (seeLate e (landAreg n k a v x)) b = getAreg x b)) ∧
  (∀ (s : State) (c : Ctx) (sl : Slot), Due s c sl → Passes s c sl → slotRsv sl = 0 →
     (opcodeOf sl = 0x00 →
       sl.w1 = 0 → sl.w2 = 0 → sl.w3 = 0 → sl.w4 = 0 → sl.w5 = 0 → sl.w6 = 0 → sl.w7 = 0 →
       ∃ t, exec (.escNop sl) s = .next t ∧ ScalarFrame s c sl t ∧ ctx t c = afterIssue s c sl) ∧
     (opcodeOf sl = 0x01 → sl.w1.toNat < 16 → sl.w4 = 0 → sl.w5 = 0 → sl.w6 = 0 → sl.w7 = 0 →
       ∃ t, exec (.escSet sl) s = .next t ∧ ScalarFrame s c sl t ∧
         ctx t c = writeAreg (dueEc s (ctx s c) sl) (afterIssue s c sl) sl.w1.toNat (sl.w3 ++ sl.w2) ∧
         getAreg (ctx t c) sl.w1.toNat = sl.w3 ++ sl.w2 ∧
         (∀ a, a ≠ sl.w1.toNat → getAreg (ctx t c) a = getAreg (issueCtx s c sl) a)) ∧
     (opcodeOf sl = 0x02 → sl.w1.toNat < 2 ^ 10 → sl.w2 = 0 → sl.w3 = 0 → sl.w4 = 0 → sl.w5 = 0 → sl.w6 = 0 → sl.w7 = 0 →
       ∃ t, exec (.escLdp sl) s = .next t ∧ ScalarFrame s c sl t ∧
         ctx t c = writeAreg (dueEc s (ctx s c) sl) (afterIssue s c sl) (sl.w1.toNat % 16)
           (getPar (issueCtx s c sl) (sl.w1.toNat / 16)))) ∧
  (∀ (s : State) (c : Ctx) (sl : Slot) (op d ra rb : Nat) (useImm : Bool),
     Due s c sl → Passes s c sl → slotRsv sl = 0 → opcodeOf sl = 0x03 →
     d < 16 → ra < 16 → rb < 16 → op ≤ 10 →
     sl.w1.toNat = d + ra * 2 ^ 4 + rb * 2 ^ 8 + b2n useImm * 2 ^ 12 + op * 2 ^ 13 →
     sl.w3 = 0 → sl.w4 = 0 → sl.w5 = 0 → sl.w6 = 0 → sl.w7 = 0 →
     let x := issueCtx s c sl
     let a := getAreg x ra
     let b := if useImm then sl.w2.signExtend 64 else getAreg x rb
     ∃ (t : State) (v : W64), exec (.escAlu sl) s = .next t ∧ ScalarFrame s c sl t ∧
       ctx t c = writeAreg (dueEc s (ctx s c) sl) (afterIssue s c sl) d v ∧
       (op = 0 → v = a + b) ∧ (op = 1 → v = a - b) ∧ (op = 2 → v = a * b) ∧
       (op = 3 → v = a <<< (b.toNat % 64)) ∧ (op = 4 → v = a >>> (b.toNat % 64)) ∧
       (op = 5 → v = a.sshiftRight (b.toNat % 64)) ∧ (op = 6 → v = a &&& b) ∧ (op = 7 → v = a ||| b) ∧
       (op = 8 → v = a ^^^ b) ∧ (op = 9 → v.toNat = min a.toNat b.toNat) ∧ (op = 10 → v.toNat = max a.toNat b.toNat))

/-- ESC.CMP writes the comparison into a predicate bit, ESC.PLOG a logic function of two bits (R211); a write to p0 has no
effect and p0 reads 1 (R196). ESC.CMPARM arms a comparator, and its predicate bit takes the comparison in the same EC;
disarming leaves the bit as it is (R211, R212). It concludes that ESC_CMP, ESC_PLOG and ESC_CMPARM complete. -/
def Obligations.PredicateAndComparatorResults : Prop :=
  (∀ (s : State) (c : Ctx) (sl : Slot), Due s c sl → Passes s c sl → slotRsv sl = 0 →
     sl.w3 = 0 → sl.w4 = 0 → sl.w5 = 0 → sl.w6 = 0 → sl.w7 = 0 →
     (∀ (d ra rb cond : Nat) (useImm sgn : Bool), opcodeOf sl = 0x04 → d < 16 → ra < 16 → rb < 16 → cond ≤ 5 →
       sl.w1.toNat = d + ra * 2 ^ 4 + rb * 2 ^ 8 + b2n useImm * 2 ^ 12 + cond * 2 ^ 13 + b2n sgn * 2 ^ 16 →
       let x := issueCtx s c sl
       let a := getAreg x ra
       let b := if useImm then sl.w2.signExtend 64 else getAreg x rb
       let lt := if sgn then a.toInt < b.toInt else a.toNat < b.toNat
       ∃ (t : State) (v : Bool), exec (.escCmp sl) s = .next t ∧ ScalarFrame s c sl t ∧
         ctx t c = setPred (afterIssue s c sl) d v ∧ getPred (ctx t c) 0 = true ∧ (0 < d → getPred (ctx t c) d = v) ∧
         (cond = 0 → (v = true ↔ a = b)) ∧ (cond = 1 → (v = true ↔ a ≠ b)) ∧ (cond = 2 → (v = true ↔ lt)) ∧
         (cond = 3 → (v = true ↔ lt ∨ a = b)) ∧ (cond = 4 → (v = true ↔ ¬ (lt ∨ a = b))) ∧ (cond = 5 → (v = true ↔ ¬ lt))) ∧
     (∀ (d pa pb op : Nat), opcodeOf sl = 0x05 → sl.w2 = 0 → d < 16 → pa < 16 → pb < 16 → op < 4 →
       sl.w1.toNat = d + pa * 2 ^ 4 + pb * 2 ^ 8 + op * 2 ^ 12 →
       let a := getPred (issueCtx s c sl) pa
       let b := getPred (issueCtx s c sl) pb
       ∃ (t : State) (v : Bool), exec (.escPlog sl) s = .next t ∧ ScalarFrame s c sl t ∧
         ctx t c = setPred (afterIssue s c sl) d v ∧
         (op = 0 → v = (a && b)) ∧ (op = 1 → v = (a || b)) ∧ (op = 2 → v = (a != b)) ∧ (op = 3 → v = (a && !b)))) ∧
  (∀ (s : State) (c : Ctx) (sl : Slot) (k : Nat) (cmp : Cmp),
     Due s c sl → Passes s c sl → slotRsv sl = 0 → opcodeOf sl = 0x06 →
     k < 8 → cmp.pdst < 16 → cmp.src < 16 → (cmp.kind = true → cmp.src < 8) → cmp.cond ≤ 5 → cmp.imm = sl.w2.toNat →
     sl.w1.toNat = k + b2n cmp.armed * 2 ^ 3 + cmp.pdst * 2 ^ 4 + cmp.src * 2 ^ 8 + b2n cmp.kind * 2 ^ 12 + cmp.cond * 2 ^ 13
       + b2n cmp.sgn * 2 ^ 16 →
     sl.w3 = 0 → sl.w4 = 0 → sl.w5 = 0 → sl.w6 = 0 → sl.w7 = 0 →
     let x := issueCtx s c sl
     ∃ t, exec (.escCmparm sl) s = .next t ∧ ScalarFrame s c sl t ∧ SMap.get {} (ctx t c).cmps k = cmp ∧
       (∀ j, j ≠ k → SMap.get {} (ctx t c).cmps j = SMap.get {} (issueCtx s c sl).cmps j) ∧
       (cmp.armed = false → (ctx t c).pred = x.pred) ∧
       (cmp.armed = true → 0 < cmp.pdst →
         getPred (ctx t c) cmp.pdst = condHolds cmp.cond cmp.sgn
           (if cmp.kind then BitVec.ofNat 64 (SMap.get 0 (issueCtx s c sl).lcIdx cmp.src) else getAreg x cmp.src)
           (sl.w2.signExtend 64)))

/-- ESC.LOOP with an immediate count (R213): a count of 0 skips the body and its ENDLOOP; a count within its bound opens the
loop with index 0; a count above the bound stops the context with LOOP_RANGE, whatever the predicate. The choices it rests
on: log 27. ESC.ENDLOOP (R214): with index + 1 below the count the index goes up by one and the body begins again; otherwise
the innermost loop closes. ESC.END (R206): the context issues nothing more and waits at the end of its program; under a
pending quiesce request it pauses there instead (R199). The choices it rests on: log 28. It concludes that ESC_LOOP,
ESC_ENDLOOP and ESC_END complete. -/
def Obligations.LoopsAndTheEndOfAProgram : Prop :=
  (∀ (s : State) (c : Ctx) (sl : Slot) (k : Nat),
     Due s c sl → slotRsv sl = 0 → opcodeOf sl = 0x07 → k < 8 → sl.w1.toNat = k → sl.w2.toNat < 2 ^ 16 →
     sl.w5 = 0 → sl.w6 = 0 → sl.w7 = 0 →
     opcodeOf (slotAt s (issueCtx s c sl) ((ctx s c).pos + sl.w2.toNat)) = 0x08 →
     (slotAt s (issueCtx s c sl) ((ctx s c).pos + sl.w2.toNat)).w1.toNat % 8 = k →
     (∀ l ∈ (issueCtx s c sl).loops, l.ctr ≠ k) → (issueCtx s c sl).loops.length < 6 →
     ∃ t, exec (.escLoop sl) s = .next t ∧
       (sl.w3.toNat = 0 → ScalarFrame s c sl t ∧ ctx t c = { afterIssue s c sl with
         pos := (ctx s c).pos + sl.w2.toNat + 1, lcCnt := SMap.set 0 (issueCtx s c sl).lcCnt k 0 }) ∧
       (0 < sl.w3.toNat → sl.w3.toNat ≤ sl.w4.toNat → ScalarFrame s c sl t ∧
         (ctx t c).loops = (issueCtx s c sl).loops ++ [⟨k, (ctx s c).pos + 1⟩] ∧ (ctx t c).pos = (ctx s c).pos + 1 ∧
         SMap.get 0 (ctx t c).lcIdx k = 0 ∧ SMap.get 0 (ctx t c).lcCnt k = sl.w3.toNat) ∧
       (sl.w4.toNat < sl.w3.toNat →
         (ctx t c).stopping = true ∧ (ctx t c).faultCode = cLOOP_RANGE ∧ (ctx t c).pos = (issueCtx s c sl).pos ∧
         SMap.get 0 (ctx t c).lcCnt k = sl.w3.toNat ∧
         (∀ d : Ctx, d ≠ c → ctx t d = ctx (issueState s c sl) d) ∧ (∀ a, readByte t a = readByte s a))) ∧
  (∀ (s : State) (c : Ctx) (sl : Slot) (l : Loop) (ls : List Loop),
     Due s c sl → slotRsv sl = 0 → opcodeOf sl = 0x08 → l.ctr < 8 → sl.w1.toNat = l.ctr →
     sl.w2 = 0 → sl.w3 = 0 → sl.w4 = 0 → sl.w5 = 0 → sl.w6 = 0 → sl.w7 = 0 → (issueCtx s c sl).loops = ls ++ [l] →
     ∃ t, exec (.escEndloop sl) s = .next t ∧ ScalarFrame s c sl t ∧
       (SMap.get 0 (issueCtx s c sl).lcIdx l.ctr + 1 < SMap.get 0 (issueCtx s c sl).lcCnt l.ctr →
         (ctx t c).pos = l.body ∧ (ctx t c).loops = ls ++ [l] ∧
         SMap.get 0 (ctx t c).lcIdx l.ctr = SMap.get 0 (issueCtx s c sl).lcIdx l.ctr + 1) ∧
       (SMap.get 0 (issueCtx s c sl).lcCnt l.ctr ≤ SMap.get 0 (issueCtx s c sl).lcIdx l.ctr + 1 →
         (ctx t c).pos = (ctx s c).pos + 1 ∧ (ctx t c).loops = ls)) ∧
  (∀ (s : State) (c : Ctx) (sl : Slot), Due s c sl → slotRsv sl = 0 → opcodeOf sl = 0x09 →
     sl.w1 = 0 → sl.w2 = 0 → sl.w3 = 0 → sl.w4 = 0 → sl.w5 = 0 → sl.w6 = 0 → sl.w7 = 0 →
     ∃ t, exec (.escEnd sl) s = .next t ∧ ScalarFrame s c sl t ∧
       ((issueCtx s c sl).quiesceReq = false → ctx t c = { afterIssue s c sl with point := .ending }) ∧
       ((issueCtx s c sl).quiesceReq = true →
         ctx t c = { issueCtx s c sl with point := .pausing, quiesceReq := false }))

/-- R209, R28, R31: a due engine command whose unit is present and not fenced enters the end of its queue while the queue has
room, with its context, its issued tag and its position, and reaches its engine in AC ⌊e ÷ 2⌋ + 2. R79, R25: a gated
MXE.STREAM enters the MXE queue and its context waits at the gate; under a pending quiesce request the context pauses and
nothing issues (R199). The choices it rests on: log 1. It concludes that each row of engineRows completes. -/
def Obligations.EngineCommandEntersItsQueue : Prop :=
  (∀ (s : State) (c : Ctx) (sl : Slot) (r : EngineRow), r ∈ engineRows → r.has sl →
     Due s c sl → Passes s c sl →
     absentUnit s r.op (cmdOf s (ctx s c) sl).words = false → fencedPinion s r.op (cmdOf s (ctx s c) sl).words = none →
     (queue s r.q).length < queueDepth s.grade r.q →
     ∃ (t : State) (e : QEnt), exec (r.cmd sl) s = .next t ∧ QueueFrame s c sl r.q t ∧
       queue t r.q = queue s r.q ++ [e] ∧ ctx t c = afterIssue s c sl ∧
       e.ctx = c ∧ e.tag = issuedTag s (ctx s c) sl ∧ e.pos = (ctx s c).pos ∧ e.rsv = slotRsv sl ∧
       e.areg = (afterIssue s c sl).areg ∧ e.arrive = dueEc s (ctx s c) sl / 2 + 2 ∧
       (cmdOf s (ctx s c) sl).words <+: e.words) ∧
  (∀ (s : State) (c : Ctx) (sl : Slot), opcodeOf sl = 0x13 → bit sl.w5.toNat 23 = true → Due s c sl → Passes s c sl →
     absentUnit s 0x13 (cmdOf s (ctx s c) sl).words = false → (queue s .mxe).length < 64 →
     ∃ t, exec (.mxeStream sl) s = .next t ∧
       ((issueCtx s c sl).quiesceReq = false → QueueFrame s c sl .mxe t ∧ (queue t .mxe).length = (queue s .mxe).length + 1 ∧
         ctx t c = { afterIssue s c sl with point := .gated }) ∧
       ((issueCtx s c sl).quiesceReq = true → ScalarFrame s c sl t ∧ queue t .mxe = queue s .mxe ∧
         ctx t c = { issueCtx s c sl with point := .pausing, quiesceReq := false }))

/-- R208: a command with an opcode that the table does not list is a stream fault FORMAT_INVALID with its tag, and it enters
no queue. R31: an engine command that finds its queue full stops its context with SCHEDULE_BREACH; the first command of a
section waits instead and counts one slip. R223: a command to a unit that the grade lacks stops its context with ABSENT_UNIT.
None of them enters a queue. It concludes that RESERVED_OPCODE completes. -/
def Obligations.CommandsAreTurnedAway : Prop :=
  (∀ (s : State) (c : Ctx) (sl : Slot), Due s c sl → Passes s c sl → opcodeListed (opcodeOf sl) = false →
     ∃ t, exec (.reservedOpcode sl) s = .next t ∧
       (ctx t c).stopping = true ∧ (ctx t c).faultCode = cFORMAT ∧ (ctx t c).faultTag = issuedTag s (ctx s c) sl ∧
       (∀ q, queue t q = queue s q) ∧ (∀ d : Ctx, d ≠ c → ctx t d = ctx (issueState s c sl) d) ∧ (∀ a, readByte t a = readByte s a) ∧
       t.runs = s.runs) ∧
  (∀ (s : State) (c : Ctx) (sl : Slot) (r : EngineRow), r ∈ engineRows → r.has sl → Due s c sl → Passes s c sl →
     ∃ t, exec (r.cmd sl) s = .next t ∧
       (absentUnit s r.op (cmdOf s (ctx s c) sl).words = true →
         (∀ q, queue t q = queue s q) ∧ (ctx t c).stopping = true ∧ (ctx t c).faultCode = cABSENT) ∧
       (absentUnit s r.op (cmdOf s (ctx s c) sl).words = false → fencedPinion s r.op (cmdOf s (ctx s c) sl).words = none →
         queueDepth s.grade r.q ≤ (queue s r.q).length →
         (∀ q, queue t q = queue s q) ∧
         ((issueCtx s c sl).fresh = false → (ctx t c).stopping = true ∧ (ctx t c).faultCode = cSCHED) ∧
         ((issueCtx s c sl).fresh = true → (issueCtx s c sl).slipping = false →
           (ctx t c).stopping = false ∧ (ctx t c).slipping = true ∧ t.slips = (s.slips + 1) % 2 ^ 32 ∧
           (ctx t c).pos = (issueCtx s c sl).pos)))

/-! ### Start and completion (R28, R33) -/

/-- R28, R33: the start of a timed queue's head takes at most that head away, adds at most one running command, and changes
no byte of core memory: what a command computes appears by its done AC. For a head that finds no rows of a running STREAM.
The choices it rests on: log 1, 12, 13, 14. R33, R73, R221: a SWAP, a SCT.SET and a SCT.READ at the head of the MXE queue
start once what they use is free and no other head is due before, hold it for 1 AC, and are done at their end AC plus their
depth (0, 4, 4). It concludes that ENGINE_COMMAND_START completes. -/
def Obligations.HeadsOfQueuesStart : Prop :=
  (∀ (s : State) (q : QName), q ∈ [QName.mxe, .txb, .vxe, .pin] → (findsRows s q = false ∨ NoStream s) →
     ∃ t, exec (.engineCommandStart q) s = .next t ∧ (∀ a, readByte t a = readByte s a) ∧ (∀ p, p ≠ q → queue t p = queue s p) ∧
       (t.runs = s.runs ∧ (queue t q = queue s q ∨ queue t q = (queue s q).tail) ∨
         ∃ r : Run, t.runs = s.runs ++ [r] ∧ queue t q = (queue s q).tail)) ∧
  (∀ (s : State) (e : QEnt) (rest : List QEnt), queue s .mxe = e :: rest → e.rsv = 0 → s.pwr.tripped = false → NothingDue s →
     let a1 := Nat.max (readyAc s .mxe e) (Nat.max s.mxe.fillFree s.mxe.entryFree)
     let a2 := Nat.max (readyAc s .mxe e) s.mxe.sctFree
     (wd e.words 0 % 256 = 0x12 → (∀ w ∈ slice 1 7 e.words, w = 0) → settledAc s a1 = true → startDue s a1 = false →
       ∃ t, exec (.engineCommandStart .mxe) s = .next t ∧ queue t .mxe = rest ∧ t.ctxs = s.ctxs ∧
         t.runs = s.runs ++ [⟨e.ctx, e.tag, 0x12, a1, a1 + 1, a1 + 1, [.swap], e, 0⟩] ∧
         t.mxe = { s.mxe with fillFree := a1 + 1, entryFree := a1 + 1 } ∧ (∀ b, readByte t b = readByte s b)) ∧
     (wd e.words 0 % 256 = 0x15 → sctSetOk e.words = true → settledAc s a2 = true → startDue s a2 = false →
       ∃ t, exec (.engineCommandStart .mxe) s = .next t ∧ queue t .mxe = rest ∧ t.ctxs = s.ctxs ∧ t.sct = s.sct ∧
         t.runs = s.runs ++ [⟨e.ctx, e.tag, 0x15, a2, a2 + 1, a2 + 5,
           [.sctSet (bits (wd e.words 1) 7 0) (bits (wd e.words 1) 9 8) (wd e.words 2)], e, 0⟩]) ∧
     (wd e.words 0 % 256 = 0x16 → sctReadOk e.words = true → settledAc s a2 = true → startDue s a2 = false →
       ∃ t, exec (.engineCommandStart .mxe) s = .next t ∧ queue t .mxe = rest ∧ t.ctxs = s.ctxs ∧ t.sct = s.sct ∧
         t.runs = s.runs ++ [⟨e.ctx, e.tag, 0x16, a2, a2 + 1, a2 + 5,
           [.sctRead (bits (wd e.words 1) 7 0) (bits (wd e.words 1) 14 10) (bits (wd e.words 1) 18 15)], e, 0⟩]))

/-- R28, R29, R33: a timed command at the head of its queue whose layout and operands are good starts in its AC: it leaves
its queue, occupies its unit for its figure or for what its slots ask for, whichever is more, and is done its depth after its
end AC: MXE.FILL and MXE.FILL.A 32, 64 or 128 AC and 0 (R72), MXE.STREAM at the level it finds and 272 (R70, R71), FTQ.CVT a
kilobyte an AC and 16 (R78), TXB.LOAD 2,048 bytes an AC and 4 (R87), a VXE command and PIN.RUN as R111 and R152 give them,
and 8 more than its steps for a PIN.RUN (R151). It holds what it uses until its end AC. While no STREAM runs. The choices it
rests on: log 13, 14, 46, 101. It concludes that ENGINE_COMMAND_START completes. -/
def Obligations.TimedHeadsStart : Prop :=
  ∀ (s : State) (q : QName) (e : QEnt) (rest : List QEnt) (a : Nat), queue s q = e :: rest → headStart s q = some a →
    settledAc s a = true → startDue s a = false → NoStream s →
    let u := advance (2 * a) s
    let ws := e.words
    let op := wd ws 0 % 256
    let Starts (t : State) (occ depth : Nat) (effs : List Eff) : Prop :=
      queue t q = rest ∧ (∀ p, p ≠ q → queue t p = queue s p) ∧ t.ec = Nat.max s.ec (2 * a) ∧ t.ctxs = u.ctxs ∧
      (∀ b, readByte t b = readByte s b) ∧
      ∃ seat, t.runs = s.runs ++ [⟨e.ctx, e.tag, op, a, a + occ, a + occ + depth, effs, e, seat⟩]
    (∀ strip, q = .mxe → op = (if strip then 0x11 else 0x10) → fillOk strip e = true →
      accessFault u ownMxe e.ctx (fun _ => false) (granules (fillOpnd ws).ranges) [] = none →
      let w := (fillOpnd ws).fmt.width
      let occ := occupancy u ownMxe (if w = 32 then 128 else if w = 16 then 64 else 32) (granules (fillOpnd ws).ranges) []
      ∃ t, exec (.engineCommandStart q) s = .next t ∧ Starts t occ 0 (fillEffs strip e u) ∧ t.mxe.fillFree = a + occ) ∧
    (∀ trow, q = .mxe → op = 0x13 → streamOk false e = true → streamRow u ws = some trow →
      badAcc u a e.ctx (streamAdds ws) = none →
      let M := bits (wd ws 5) 11 0
      let gs := granules (streamOpnd ws M).ranges
      accessFault u ownMxe e.ctx (fun r => decide (r = .mxeBuf)) gs [] = none →
      let L := levelAt u.mxe a
      let occ := Nat.max (streamOcc L (M * trow)) (slotBound u ownMxe (bankGranules u gs))
      ∃ t, exec (.engineCommandStart q) s = .next t ∧
        Starts t occ 272 (streamEffs e a occ M trow L (bit (wd ws 5) 15) (adpAcc ws) t) ∧
        t.mxe.entryFree = a + occ ∧ t.mxe.lvl = L ∧ t.mxe.lvlAc = a ∧ t.mxe.lvlUp = true ∧
        ∀ n ∈ entriesOf (bits (wd ws 5) 14 12) M, (ftq t n).st = .open_) ∧
    (q = .mxe → op = 0x14 → ftqCvtOk e = true → badAcc u a e.ctx [bits (wd ws 6) 2 0] = none →
      badGranule u e.ctx (fun _ => false) (cvtReads ws) = none →
      accessFault u ownMxe e.ctx (fun r => decide (r = .mxeBuf)) (cvtReads ws) (cvtWrites ws u) = none →
      let n := (cvtShape ws).1
      let B := n * cvtBytes ws + (if (cvtFmt (wd ws 3)).isMx then n * ((cvtShape ws).2 / 32) else 0)
      let occ := occupancy u ownMxe (ceilDiv B 1024) (cvtReads ws) (cvtWrites ws u)
      ∃ t, exec (.engineCommandStart q) s = .next t ∧ Starts t occ 16 (cvtEffs e (landSums a (noteReads u (cvtReads ws)))) ∧
        t.mxe.cvtFree = a + occ ∧ (ftq t (bits (wd ws 6) 2 0)).st = .consuming ∧ (ftq t (bits (wd ws 6) 2 0)).freeAt = a + occ) ∧
    (q = .txb → txbOk e = true →
      let gs := granules ((List.range (txbRows ws)).map (txbRow ws))
      accessFault u ownMxe e.ctx (fun _ => false) gs [] = none →
      let occ := occupancy u ownMxe (ceilDiv (txbRows ws * (txbRow ws 0).2) 2048) gs []
      ∃ t, exec (.engineCommandStart q) s = .next t ∧ Starts t occ 4 (txbEffs e u.free u) ∧
        SMap.get 0 t.mxe.txbFree (txbSel ws) = a + occ) ∧
    (q = .vxe → vxeOk e = true →
      let o := vOut u e a u.free
      vFault u e a o = none →
      let m := vMoves u e a u.free
      let occ := occupancy u ownVxe (vFigure ws) (granules m.1) (granules m.2)
      ∃ t, exec (.engineCommandStart q) s = .next t ∧ Starts t occ (vDepth ws) (vEffs (vLanes ws) u.free o) ∧ t.vxe.free = a + occ) ∧
    (q = .pin → op = 0x24 → pinOk u e = true →
      let rd := runGrans u ws (pIns ws)
      let wr := runGrans u ws (pOuts ws)
      accessFault u ownPin e.ctx (fun _ => false) rd wr = none →
      let occ := occupancy u ownPin (ceilDiv (pElems ws * pSteps ws) (2 * lanesOf (pType ws))) rd wr
      ∃ t, exec (.engineCommandStart q) s = .next t ∧ Starts t occ (pSteps ws + 8) (pinEffs u e u.free) ∧
        ∀ b ∈ pinBanks ws, SMap.get 0 t.pin.free (pinionOf s.grade b) = a + occ)

/-- R272, R299, R323: a command of the XDMA or LNK class at the head of its queue starts once it has arrived, with fewer than
16 of its class in progress: it leaves its queue and becomes a transfer with its pennant, its increment and its class; a 17th
waits. R296, R297, R300, R222, R94–R96, R98, R99: XDMA.READ, WRITE, GATHER, SMREAD and SMWRITE, whose extents are good,
change no byte at their start; STASH.CLAIM of an absent layer places its slot, which makes it RESIDENT, and STASH.RELEASE
frees the layer's. R322, R324: LNK.WRITE and LNK.READ are handed to their port if it is UP, and fault with LINK_DOWN if not.
For a core with no other transfer. The choices it rests on: log 56, 67. It concludes that ENGINE_COMMAND_START completes. -/
def Obligations.TransferHeadsStart : Prop :=
  ∀ (s : State) (q : QName) (e : QEnt) (rest : List QEnt), queue s q = e :: rest → settledAc s (readyAc s q e) = true →
    startDue s (readyAc s q e) = false → NothingDue s →
    let ws := e.words
    let op := wd ws 0 % 256
    let c := e.ctx
    let Begun (t : State) (k : JKind) (prio pn incr comb : Nat) : Prop := queue t q = rest ∧ (∀ p, p ≠ q → queue t p = queue s p) ∧
      t.runs = s.runs ∧ ∃ j ∈ t.xfer.jobs, j.id = s.xfer.nextJob ∧ j.kind = k ∧ j.ctx = c.val ∧ j.words = ws ∧ j.prio = prio ∧
        j.pennant = pn ∧ j.incr = incr ∧ j.comb = comb
    let Keeps (t : State) : Prop := t.mem = s.mem ∧ t.ctxs = s.ctxs
    (q = .xdma → 16 ≤ xdmaCount s → exec (.engineCommandStart q) s = .next s) ∧
    (Quiet s →
      (∀ write : Bool, q = .xdma → op = (if write then 0x31 else 0x30) → rwOk write e = true →
        let n := rowCount (bits (wd ws 5) 11 0) 4096
        xdmaFault s c (w3Prio ws) (cmRows n (wd ws 1) (wd ws 6) (wd ws 4))
          ((List.range n).map (fun i => ((wd ws 8 + i * wd ws 7) % 2 ^ 34, wd ws 4))) = none →
        ∃ t, exec (.engineCommandStart q) s = .next t ∧ Keeps t ∧
          Begun t (if write then .write else .read) (w3Prio ws) (w3Pennant ws) (w3Incr ws) (bits (wd ws 5) 15 12)) ∧
      (q = .xdma → op = 0x32 → gatherOk e = true → s.runs = [] →
        xdmaFault s c (w3Prio ws) ((wd ws 5, 4 * rowCount (bits (wd ws 4) 31 16) 65536) ::
          cmRows (rowCount (bits (wd ws 4) 31 16) 65536) (wd ws 1) (bits (wd ws 6) 23 0) (bits (wd ws 4) 15 0)) [] = none →
        (∀ i, i < rowCount (bits (wd ws 4) 31 16) 65536 → outFault s ((wd ws 5 + 4 * i) / 64 * 64) = none ∧
          extFault s.xmu ((wd ws 8 + readLE s (wd ws 5 + 4 * i) 4 * wd ws 7) % 2 ^ 34) (bits (wd ws 4) 15 0) = none) →
        ∃ t, exec (.engineCommandStart q) s = .next t ∧ t.mem = s.mem ∧
          Begun t .gather (w3Prio ws) (w3Pennant ws) (w3Incr ws) (bits (wd ws 6) 27 24)) ∧
      (∀ write : Bool, q = .xdma → op = (if write then 0x34 else 0x33) → smOk write e = true →
        badRange s c [(wd ws 1, bits (wd ws 4) 23 0)] = none →
        (s.cm.hier = true → s.runs = [] → (∀ g ∈ granulesOf (wd ws 1) (bits (wd ws 4) 23 0), outFault s g = none) →
          ∃ t, exec (.engineCommandStart q) s = .next t ∧ t.mem = s.mem ∧
            Begun t (if write then .smWrite else .smRead) 1 (bits (wd ws 5) 11 0) (bits (wd ws 5) 27 12) (bits (wd ws 4) 27 24)) ∧
        (s.cm.hier = false → (ctx s c).stopping = false → (ctx s c).cstate = .running →
          ∃ t, exec (.engineCommandStart q) s = .next t ∧ queue t q = rest ∧ t.mem = s.mem ∧ (ctx t c).stopping = true ∧
            (ctx t c).faultCode = cADDR)) ∧
      (q = .xdma → stashOk op e = true →
        (op = 0x35 → layerOf (stashOf s c) (stLayer ws) = .absent → placeFault s (stashOf s c) (stLayer ws) (stSize ws) = none →
          (placement (stashOf s c) (stSize ws)).2 = [] →
          ∃ t, exec (.engineCommandStart q) s = .next t ∧ Keeps t ∧ Begun t .claim 1 (stPennant ws) 0 0 ∧
            layerOf (stashOf t c) (stLayer ws) = .resident ∧ (stashOf t c).slots = (stashOf s c).slots ++
              [⟨stLayer ws, (placement (stashOf s c) (stSize ws)).1, stSize ws, stPolicy ws⟩]) ∧
        (op = 0x36 → layerOf (stashOf s c) (stLayer ws) = .resident →
          ∃ t, exec (.engineCommandStart q) s = .next t ∧ Keeps t ∧ Begun t .claim 1 (stPennant ws) 0 0 ∧ stashOf t c = stashOf s c) ∧
        (op = 0x37 → layerOf (stashOf s c) (stLayer ws) ≠ .absent →
          ∃ t, exec (.engineCommandStart q) s = .next t ∧ Keeps t ∧ Begun t .release 1 (stPennant ws) 0 0 ∧
            layerOf (stashOf t c) (stLayer ws) = .absent ∧ ∀ k ∈ (stashOf t c).slots, k.layer ≠ stLayer ws)) ∧
      (∀ write : Bool, q = .lnk → op = (if write then 0x38 else 0x39) → (if write then lnkWriteOk e else lnkReadOk e) = true →
        badRange s c [(wd ws 1, lkBytes ws)] = none →
        ((port s (lkPort ws)).up = true →
          ∃ t, exec (.engineCommandStart q) s = .next t ∧ Keeps t ∧
            Begun t (if write then .lnkWrite else .lnkRead) (lkPrio ws) (bits (wd ws (if write then 6 else 5)) 11 0)
              (bits (wd ws (if write then 6 else 5)) 27 12) (lkCombine ws) ∧
            (port t (lkPort ws)).jobs = (port s (lkPort ws)).jobs ++ [s.xfer.nextJob]) ∧
        ((port s (lkPort ws)).up = false → (ctx s c).stopping = false → (ctx s c).cstate = .running →
          ∃ t, exec (.engineCommandStart q) s = .next t ∧ queue t q = rest ∧ t.mem = s.mem ∧ (ctx t c).stopping = true ∧
            (ctx t c).faultCode = cLINK_DOWN)))

/-- R33, R210: COMMAND_DONE completes the running command with the least done AC, once no head of a queue is due to start
before, and its changes happen at that AC: bytes in ascending order from their address, the exchange of the stationary sets,
a tracker operation, a result for an address register, the clearing of lane flags. Nothing else of core memory, of the
contexts or of the trackers changes. R63: no host write of its AC comes after a SCT.READ. For a command that meets no other
over its granules. The choices it rests on: log 13, 15. It concludes that COMMAND_DONE completes. -/
def Obligations.DoneCommandChangesWhatItCarries : Prop :=
  ∀ (s : State) (r : Run) (rest : List Run) (f : Eff), s.runs = r :: rest → r.effs = [f] → r.opcode ≠ 0x13 →
    Alone s r → NoneCarried s → NothingDue s → s.pwr.tripped = false → startDue s r.doneAc = false →
    (∀ x ∈ rest, r.doneAc < x.doneAc ∨ (r.doneAc = x.doneAc ∧ doneOrder r ≤ doneOrder x)) →
    ∃ t, exec .commandDone s = .next t ∧ t.runs = rest ∧ t.queues = s.queues ∧
      t.ec = Nat.max s.ec (2 * r.doneAc + if r.opcode = 0x16 then 1 else 0) ∧
      (∀ a bs, f = .mem a bs → t.ctxs = s.ctxs ∧ t.sct = s.sct ∧
        ∀ k, readByte t k = if a ≤ k ∧ k < a + bs.length then bs.getD (k - a) emptyByte else readByte s k) ∧
      (f = .swap → t.mem = s.mem ∧ t.ctxs = s.ctxs ∧ t.sct = s.sct ∧ t.mxe.active = s.mxe.shadow ∧ t.mxe.shadow = s.mxe.active ∧
        t.mxe.stripActive = s.mxe.stripShadow ∧ t.mxe.stripShadow = s.mxe.stripActive) ∧
      (∀ k op v, f = .sctSet k op v → t.mem = s.mem ∧ t.ctxs = s.ctxs ∧ sctSlot t k = sctOp op v (sctSlot s k) ∧
        ∀ j, j ≠ k → sctSlot t j = sctSlot s j) ∧
      (∀ k sel d, f = .sctRead k sel d → t.mem = s.mem ∧ t.sct = s.sct ∧
        ctx t r.ctx = landAreg r.doneAc 0 d (BitVec.ofNat 64 (sctRead (sctSlot s k) sel)) (ctx s r.ctx) ∧
        ∀ c : Ctx, c ≠ r.ctx → ctx t c = ctx s c) ∧
      (f = .laneClear → t.mem = s.mem ∧ t.sct = s.sct ∧ ctx t r.ctx = { ctx s r.ctx with lane := [] } ∧
        ∀ c : Ctx, c ≠ r.ctx → ctx t c = ctx s c)

/-- R66, R72: a FILL or STREAM operand is decoded exactly, each element with its block scale (MX) or its factor (INT8), an
element beyond the K-length is +0, and from a transposing buffer a line is a stored column of its window (R87). R68, R69: an
output element whose products fit one group is their exact sum rounded once; a negative one that rounds to zero is +0. R70,
R76: row m of a STREAM lands in entry m ÷ 256 after its first, with its visible AC; a STREAM that finds the array at full
level and no slot bound shows row m 273 AC after its last beat. R74, R68, R76: a FILL that is done has its lines in the
shadow set; a landing row replaces the row or is added to it with one rounding an element, and the STREAM that wrote an entry
last leaves it HELD. R86: a TXB.LOAD that is done has its bytes in its buffer. R56, R78: FTQ.CVT encodes each element of its
rectangle, times its tracker's scale where it asks for it, into its place of its line. It concludes that COMMAND_DONE
completes. -/
def Obligations.MatrixCommandsCompute : Prop :=
  (∀ (s : State) (o : Opnd) (c k w : Nat), o.fmt.width = 8 * w →
     (o.txb = true → (o.line s c).getD k .zero = if k < o.klen then decodeElem o.fmt o.kind
       (ofLE ((List.range w).map (fun i => txbByte s o.sel (o.base + k * o.pitch + c * w + i)))) else .zero) ∧
     (o.txb = false →
       let x := readLE s (o.base + c * o.pitch + k * w) w
       (o.klen ≤ k → (o.line s c).getD k .zero = .zero) ∧
       (k < o.klen → o.fmt.isMx = true → k / 32 < o.klen / 32 →
         (o.line s c).getD k .zero = decodeMx o.fmt o.kind (readByte s (o.sbase + c * o.spitch + k / 32)).toNat x) ∧
       (k < o.klen → o.fmt = .int8 →
         (o.line s c).getD k .zero = ((decodeElem o.fmt o.kind x).mul (f32 (readLE s (o.sbase + 4 * k) 4))).1) ∧
       (k < o.klen → o.fmt.isMx = false → o.fmt ≠ .int8 → (o.line s c).getD k .zero = decodeElem o.fmt o.kind x))) ∧
  (∀ (per : Nat) (x w : List Val), x.length ≤ per → w.length = x.length → (∀ v ∈ x ++ w, v.isFin = true) →
     ∃ G : Val, G.isFin = true ∧ valRat G = (List.zipWith (fun u v => valRat u * valRat v) x w).sum ∧
       (columnSum per x w).1 = if (toF32 G).1 = 0x80000000 then 0#32 else BitVec.ofNat 32 (toF32 G).1) ∧
  (∀ (s : State) (e : QEnt) (a occ M trow L m : Nat) (acc accS : Bool), m < M →
     let o := streamOpnd e.words M
     let n := (bits (wd e.words 5) 14 12 + m / 256) % 8
     (∃ rows, Eff.sums n (ftq s n).stamp acc rows ∈ streamEffs e a occ M trow L acc accS s ∧
       (rowVisible a L trow occ M m, m % 256, (outRow s.mxe.active (if o.fmt = .e2m1 then 64 else 32) 256 (o.line s m)).1) ∈ rows) ∧
     (7 ≤ L → occ ≤ M * trow → rowVisible a L trow occ M m = a + ((m + 1) * trow - 1) + 273)) ∧
  (∀ (s : State) (r : Run), s.runs = [r] → Alone s r → NoneCarried s → NothingDue s → s.pwr.tripped = false →
     startDue s r.doneAc = false →
     (∀ strip fmt kind rank lines, r.opcode = 0x10 ∨ r.opcode = 0x11 → r.effs = [.fill strip fmt kind rank lines] →
       ∃ t, exec .commandDone s = .next t ∧ t.runs = [] ∧ t.mem = s.mem ∧ t.ctxs = s.ctxs ∧ t.mxe.active = s.mxe.active ∧
         t.mxe.stripActive = s.mxe.stripActive ∧
         t.mxe.shadow = (if strip then s.mxe.shadow else ⟨lines, fmt, kind, rank⟩) ∧
         t.mxe.stripShadow = (if strip then ⟨lines, fmt, kind, rank⟩ else s.mxe.stripShadow)) ∧
     (∀ n acc v m row, r.opcode = 0x13 → r.effs = [.sums n (ftq s n).stamp acc [(v, m, row)]] → m < 256 →
       (ftq s n).st = .open_ → (ftq s n).writer = r.startAc →
       ∃ t, exec .commandDone s = .next t ∧ t.runs = [] ∧ t.mem = s.mem ∧ (ftq t n).st = .held ∧ (ftq t n).tag = r.tag ∧
         (∀ k, k ≠ n → ftq t k = ftq s k) ∧ (∀ i c, i ≠ m → tileElem (ftq t n).data i c = tileElem (ftq s n).data i c) ∧
         (acc = false → ∀ c, tileElem (ftq t n).data m c = row.getD c 0#32) ∧
         (acc = true → ∀ c, c < row.length → tileElem (ftq t n).data m c = BitVec.ofNat 32
           (toF32 ((f32 (tileElem (ftq s n).data m c).toNat).add (f32 (row.getD c 0#32).toNat)).1).1)) ∧
     (∀ sel off bs, r.opcode = 0x18 → r.effs = [.txb sel off bs] →
       ∃ t, exec .commandDone s = .next t ∧ t.runs = [] ∧ t.mem = s.mem ∧ t.ctxs = s.ctxs ∧
         ∀ k, txbByte t sel k = if off ≤ k ∧ k < off + bs.length then bs.getD (k - off) 0#8 else txbByte s sel k)) ∧
  (∀ (s : State) (e : QEnt) (id i : Nat), e.stale = false → i < txbRows e.words →
     Eff.txb (txbSel e.words) (wd e.words 8 + i * bits (wd e.words 4) 18 0)
       (readBytes s (wd e.words 1 + i * bits (wd e.words 2) 23 0) (bits (wd e.words 5) 22 10)) ∈ txbEffs e id s) ∧
  (∀ (s : State) (e : QEnt) (j c w : Nat), let ws := e.words
     let ctl := wd ws 3
     let f := cvtFmt ctl
     f.isMx = false → f ≠ .int8 → f.width = 8 * w → bits ctl 6 5 = 0 → j < (cvtShape ws).1 → c < (cvtShape ws).2 →
     (sctSlot s (bits ctl 23 16)).policy ≠ 2 →
     let d := (ftq s (bits (wd ws 6) 2 0)).data
     let x := if bit (wd ws 6) 3 == bit ctl 8 then tileElem d j c else tileElem d c j
     ∃ bs, Eff.mem (wd ws 1 + j * bits (wd ws 4) 23 0) bs ∈ cvtEffs e s ∧ bs.length = cvtBytes ws ∧
       ofLE (slice (c * w) w bs) = (encodePlain f .rne (bit ctl 7)
         ((f32 x.toNat).mul (if bit ctl 10 then f32 (sctSlot s (bits ctl 23 16)).scale else .one)).1).1)

/-- R53, R120, R121: the element-wise operations compute exactly on the exact values of their operands and round once into
their destination, element by element, an active element alone, with the flags of that element. R122: a compare writes the
bit of each element, 0 where it is masked, and a comparison with NaN is false but for the one that asks for inequality. R123:
a move copies the bits of its element. R127: a maximum and a minimum of finite elements are the largest and the smallest. The
choices it rests on: log 49, 50. -/
def Obligations.VectorCommandsCompute : Prop :=
  (∀ a b c : Val, a.isFin = true → b.isFin = true → c.isFin = true →
     (∀ v, v < 8 → (arithVal v a b c).1.isFin = true ∧ (arithVal v a b c).2 = fNone) ∧
     valRat (arithVal 0 a b c).1 = valRat a + valRat b ∧ valRat (arithVal 1 a b c).1 = valRat a - valRat b ∧
     valRat (arithVal 2 a b c).1 = valRat a * valRat b ∧ valRat (arithVal 3 a b c).1 = valRat a * valRat b + valRat c ∧
     valRat (arithVal 4 a b c).1 = min (valRat a) (valRat b) ∧ valRat (arithVal 5 a b c).1 = max (valRat a) (valRat b) ∧
     valRat (arithVal 6 a b c).1 = |valRat a| ∧ valRat (arithVal 7 a b c).1 = -valRat a ∧
     (cmpHolds 0x08 a b = true ↔ valRat a = valRat b) ∧ (cmpHolds 0x09 a b = true ↔ valRat a ≠ valRat b) ∧
     (cmpHolds 0x0A a b = true ↔ valRat a < valRat b) ∧ (cmpHolds 0x0B a b = true ↔ valRat a ≤ valRat b)) ∧
  (∀ (a : Val) v, v ∈ [0x08, 0x09, 0x0A, 0x0B] → cmpHolds v .nan a = decide (v = 0x09) ∧ cmpHolds v a .nan = decide (v = 0x09)) ∧
  (∀ (s : State) (e : QEnt) (at_ id r j : Nat), let ws := e.words
     let n := vlenOf ws
     let o := vOut s e at_ id
     let a := aVal s ws r j
     let b := bVal s ws r j
     let d := decodeElem (dFmt ws) (dKind ws) (readElem s (dRow ws r) (dFmt ws).width j)
     r < rowsOf ws → j < n →
     (vopOf ws < 8 → active s e n r j = true →
       dElem ws r j (encodeArith (dFmt ws) (arithVal (vopOf ws) a b d).1).1 ∈ o.dst ∧
       (idxOf ws (r, j), (arithVal (vopOf ws) a b d).2 ||| (encodeArith (dFmt ws) (arithVal (vopOf ws) a b d).1).2) ∈ o.fl) ∧
     (vopOf ws < 8 → ∀ y ∈ o.dst, ∃ p ∈ actives s e, y.1 = (dElem ws p.1 p.2 0).1) ∧
     (vopOf ws = 0x0C → dElem ws r j (encodeArith (dFmt ws) (if active s e n r j then a else b)).1 ∈ o.dst) ∧
     (vopOf ws ∈ [0x08, 0x09, 0x0A, 0x0B] → ∃ x : W8, (planeRow (wd ws 3) n r + j / 8, [x]) ∈ o.dst ∧
       bit x.toNat (j % 8) = (active s e n r j && cmpHolds (vopOf ws) a b)) ∧
     (vopOf ws = 0x31 → active s e n r j = true → dElem ws r j (aBits s ws r (n - 1 - j)) ∈ o.dst)) ∧
  (∀ (id : Nat) (l : List (Nat × Val)), l ≠ [] → (∀ p ∈ l, p.2.isFin = true) →
     (∃ p ∈ l, valRat (reduce 1 id l).1 = valRat p.2) ∧ (∀ p ∈ l, valRat p.2 ≤ valRat (reduce 1 id l).1) ∧
     (∃ p ∈ l, valRat (reduce 2 id l).1 = valRat p.2) ∧ (∀ p ∈ l, valRat (reduce 2 id l).1 ≤ valRat p.2))

/-- R141, R142: a step of a pinion computes its operation exactly on its operands, rounds once into the compute type, writes
its destination register alone and adds its flags. R138, R139, R147, R148: an element's inputs are decoded into the first
registers in the order of their streams, its program runs over them, and output j stores register 7 − j, encoded, at its
element of its stream in its bank; every element of every bank of the mask is computed (R146). For an output that overlaps no
other stream and draws no random number. The choices it rests on: log 102. -/
def Obligations.PinionCommandsCompute : Prop :=
  (∀ a b c : Val, a.isFin = true → b.isFin = true → c.isFin = true →
     valRat (stepVal 0x01 a b c).1 = valRat a + valRat b ∧ valRat (stepVal 0x02 a b c).1 = valRat a - valRat b ∧
     valRat (stepVal 0x03 a b c).1 = valRat a * valRat b ∧ valRat (stepVal 0x04 a b c).1 = valRat a * valRat b + valRat c ∧
     valRat (stepVal 0x05 a b c).1 = min (valRat a) (valRat b) ∧ valRat (stepVal 0x06 a b c).1 = max (valRat a) (valRat b) ∧
     valRat (stepVal 0x07 a b c).1 = (if valRat a = valRat b then 1 else 0) ∧
     valRat (stepVal 0x08 a b c).1 = (if valRat a = valRat b then 0 else 1) ∧
     valRat (stepVal 0x09 a b c).1 = (if valRat a < valRat b then 1 else 0) ∧
     valRat (stepVal 0x0A a b c).1 = (if valRat a ≤ valRat b then 1 else 0) ∧
     (stepVal 0x0B a b c).1 = (if valRat c = 0 then b else a) ∧
     valRat (stepVal 0x0D a b c).1 = min (max (valRat a) (valRat b)) (valRat c) ∧
     valRat (stepVal 0x10 a b c).1 = valRat a + valRat c * (valRat b - valRat a) ∧
     valRat (stepVal 0x11 a b c).1 = valRat a + valRat c * (valRat b * valRat b - valRat a)) ∧
  (∀ (s : State) (ct : Nat) (ks : List Nat) (q id w : Nat) (x : PElem), stOp w ≠ 0x0C → stOp w ≠ 0x12 → x.regs.length = 8 →
     let v := stepVal (stOp w) (pinArg ct ks false x (stA w)) (pinArg ct ks false x (stB w)) (pinArg ct ks false x (stC w))
     let y := pinStep s ct ks q id w x
     y.regs.getD (stDst w) .zero = (roundCt ct v.1).1 ∧ (∀ k, k ≠ stDst w → y.regs.getD k .zero = x.regs.getD k .zero) ∧
     y.fl = x.fl ||| (v.2 ||| (roundCt ct v.1).2) ∧ y.draws = x.draws) ∧
  (∀ (s : State) (e : QEnt) (id b n j : Nat) (d : Draws), let ws := e.words
     let ld := (pIns ws).map (fun i => pinLoad s ws b i n)
     let ps := pinProg s e
     let o := (pOuts ws).getD j 0
     let x := (List.range ps.length).foldl (fun x k => pinStep s (pType ws) (pConsts ws)
       (512 + 16 * pinionOf s.grade b + n % lanesOf (pType ws)) (id + 16 * n + k) (ps.getD k 0) x)
       ⟨padTo .zero 8 (ld.map Prod.fst), fOr (ld.map Prod.snd), d⟩
     pRound ws = 0 → j < pOutN ws → pinOpen ws j n = false →
     Eff.mem (bankByte s.grade b (dGran o * 64 + n * sSize o)) (leBytes (sSize o) (pinStore ws o .rne (x.regs.getD (7 - j) .zero)).1)
       ∈ (pinElem s e id b n d).1) ∧
  (∀ (s : State) (ws : List Nat) (b i n : Nat), dSfmt i ≠ 5 → (pinLoad s ws b i n).1 = (roundCt (pType ws) (decodeElem (sFmt i) false
     (readLE s (bankByte s.grade b (dGran i * 64 + n * sSize i)) (sSize i)))).1) ∧
  (∀ (s : State) (e : QEnt) (id i n : Nat), i < (pinBanks e.words).length → n < pElems e.words →
     ∃ d, ∀ f ∈ (pinElem s e (id + 2 ^ 24 * i) ((pinBanks e.words).getD i 0) n d).1, f ∈ pinEffs s e id)

/-- R59, R61, R62: the four operations of SCT.SET on a tracker slot: WRITE_CFG sets the fields that read back, WRITE_SCALE
sets the scale, CLEAR zeroes the history, ROLL moves every entry up by one and opens a zero entry. A fold keeps the larger
magnitude, and a slot with policy 0 takes none (R60). -/
def Obligations.TrackerOperations : Prop :=
  ∀ (k : Sct) (v : Nat), v < 2 ^ 32 →
    (sctCfgWord (sctOp 0 v k) = v &&& 0x001FF1F7 ∧ (sctOp 0 v k).hist = k.hist ∧ (sctOp 0 v k).scale = k.scale) ∧
    ((sctOp 1 v k).scale = v ∧ (sctOp 1 v k).hist = k.hist) ∧
    (∀ i, sctHist (sctOp 2 v k) i = 0) ∧
    (sctHist (sctOp 3 v k) 0 = 0 ∧ (∀ i, i < 15 → sctHist (sctOp 3 v k) (i + 1) = sctHist k i) ∧
      (k.policy ≠ 1 → (sctOp 3 v k).scale = k.scale)) ∧
    (∀ amax nf, k.policy = 0 → sctFold amax nf k = k) ∧
    (∀ amax nf, k.policy ≠ 0 → sctHist (sctFold amax nf k) 0 = maxMag (sctHist k 0) amax ∧
      ∀ i, 0 < i → sctHist (sctFold amax nf k) i = sctHist k i)

/-- R158, R162: by its done AC an atomic that meets no other access writes its result over the old word and gives the old
word to its register: LOAD writes nothing new, SWAP the operand, CAS the operand where the old word is the compare value, the
integer additions wrap, the logic operations are bitwise, INC_WRAP counts up to the operand and back to 0. Every other byte
is as before. The choices it rests on: log 53. It concludes that COMMAND_DONE completes. -/
def Obligations.AtomicReadModifyWrite : Prop :=
  ∀ (s : State) (r : Run) (x : Span) (a op v cmp d : Nat), s.runs = [r] → r.effs = [.atom a op v cmp d] → r.opcode = 0x25 →
    r.seat ≠ 0 → s.spans = [(r.seat, x)] → x.took = none → x.old = [] → x.landed = [] → x.dirty = false → x.atom = true →
    NoneCarried s → NothingDue s → s.pwr.tripped = false → startDue s r.doneAc = false → a % 4 = 0 → a < 2 ^ 32 →
    d < 16 → v < 2 ^ 32 → cmp < 2 ^ 32 →
    let old := readLE s a 4
    ∃ t, exec .commandDone s = .next t ∧ t.runs = [] ∧
      (ctx t r.ctx).late = insertLate ⟨r.doneAc, 3, d, BitVec.ofNat 64 old⟩ (ctx s r.ctx).late ∧
      (∀ k, k < a ∨ a + 4 ≤ k → readByte t k = readByte s k) ∧
      (op = 0x0 → readLE t a 4 = old) ∧ (op = 0x1 → readLE t a 4 = v) ∧
      (op = 0x2 → readLE t a 4 = if old = cmp then v else old) ∧ (op = 0x3 → readLE t a 4 = (old + v) % 2 ^ 32) ∧
      (op = 0x7 → readLE t a 4 = Nat.max old v) ∧ (op = 0x8 → readLE t a 4 = Nat.min old v) ∧
      (op = 0xB → readLE t a 4 = old &&& v) ∧ (op = 0xC → readLE t a 4 = old ||| v) ∧ (op = 0xD → readLE t a 4 = old ^^^ v) ∧
      (op = 0xE → readLE t a 4 = if v ≤ old then 0 else old + 1)

/-! ### The activity level and the fill gate (R34, R79, R80) -/

/-- R34: with no STREAM running the activity level falls by one every 8 AC. R79: a gated STREAM at the head of the MXE queue
reaches the gate when it has arrived, samples its pennant there, and its deadline expires gate_deadline × 16 AC later. The
choices it rests on: log 4. R79, R80: with the gate's condition met (256 on its pennant now or at a sample before, or the
deadline expired), the level 0, array entry free, the FTQ entry free and the rows readable, the gate takes M = min(count,
256) from the pennant, gives M to the gate register, and releases the STREAM and its context; with M = 0 the STREAM retires
having streamed nothing. The choices it rests on: log 46, 103. It concludes that ARRAY_LEVEL_FALL, GATE_ARRIVAL,
GATE_DEADLINE_EXPIRY and GATE_RELEASE complete. -/
def Obligations.LevelAndGate : Prop :=
  (∀ s : State, NothingDue s →
     (s.mxe.lvlUp = false → 0 < s.mxe.lvl →
       ∃ t, exec .arrayLevelFall s = .next t ∧ t.mxe = { s.mxe with lvl := s.mxe.lvl - 1, lvlAc := s.mxe.lvlAc + 8 } ∧
         t.ec = Nat.max s.ec (2 * (s.mxe.lvlAc + 8)) ∧ t.ctxs = s.ctxs ∧ t.mem = s.mem ∧ t.queues = s.queues) ∧
     (∀ (e : QEnt) (n : Nat), gatedHead s = some e → s.mxe.gate = none → s.pwr.tripped = false → streamOk true e = true →
       streamRow (behindSwaps s) e.words = some n → settledAc s (readyAc s .mxe e) = true →
       let p := bits (wd e.words 6) 21 10
       ∃ t, exec .gateArrival s = .next t ∧ t.ec = Nat.max s.ec (2 * readyAc s .mxe e) ∧
         t.mxe = { s.mxe with gate := some ⟨readyAc s .mxe e, false, false, p, gateOpens e.words⟩ } ∧
         t.queues = s.queues ∧ t.ctxs = s.ctxs ∧ t.mem = s.mem ∧ t.syn = { s.syn with evals := [(ac t, p)] }) ∧
     (∀ (e : QEnt) (g : Gate), gatedHead s = some e → s.mxe.gate = some g → g.expired = false →
       ∃ t, exec .gateDeadlineExpiry s = .next t ∧ t.mxe = { s.mxe with gate := some { g with expired := true } } ∧
         t.ec = Nat.max s.ec (2 * (g.reached + bits (wd e.words 4) 31 16 * 16)) ∧ t.queues = s.queues ∧ t.ctxs = s.ctxs ∧
         t.mem = s.mem ∧ t.syn = { s.syn with evals := [(ac t, g.pennant)] })) ∧
  (∀ (s : State) (e : QEnt) (g : Gate) (a n : Nat),
     gatedHead s = some e → s.mxe.gate = some g →
     (g.expired = true ∨ g.met = true ∨ 256 ≤ pennant s (bits (wd e.words 6) 21 10)) →
     levelZeroAt s.mxe (Nat.max (ac s) s.mxe.entryFree) = some a → adpEn e.words = false →
     (ftq s (bits (wd e.words 5) 14 12)).st = .free →
     settledAc s a = true → NoStream s → s.pwr.tripped = false → streamRow s e.words = some n → NothingDue s →
     (∀ w ∈ s.syn.waits, w.pennant ≠ bits (wd e.words 6) 21 10) → (∀ x ∈ s.syn.upds, x.p ≠ bits (wd e.words 6) 21 10) →
     (ctx s e.ctx).point = .gated →
     let p := bits (wd e.words 6) 21 10
     let M := Nat.min (pennant s p) 256
     (0 < M → accessFault s ownMxe e.ctx (fun r => decide (r = .mxeBuf)) (granules (streamOpnd e.words M).ranges) [] = none) →
     ∃ t, exec .gateRelease s = .next t ∧ pennant t p = pennant s p - M ∧ (∀ x, x ≠ p → pennant t x = pennant s x) ∧
       ctx t e.ctx = { landAreg a 5 (bits (wd e.words 6) 25 22) (BitVec.ofNat 64 M) (ctx s e.ctx) with point := .releasing a } ∧
       (∀ c : Ctx, c ≠ e.ctx → ctx t c = ctx s c) ∧ t.mxe.gate = none ∧ t.mxe.lastM = M ∧
       t.mxe.lastByDeadline = decide (pennant s p < 256) ∧ t.mxe.releases = (s.mxe.releases + 1) % 2 ^ 32 ∧
       queue t .mxe = (queue s .mxe).tail ∧ (∀ b, readByte t b = readByte s b) ∧
       ((ftq t (bits (wd e.words 5) 14 12)).st = if M = 0 then FtqState.free else FtqState.open_))

/-! ### The escapement between sections (R197–R206, R224, R248, R356) -/

/-- R26, R248: a wait that released in AC d releases its context in EC 2d + 2, or when its last outbound halyard entry left:
the dispatched context's next section begins there, unless it must give way; another context waits to be dispatched. The
choices it rests on: log 16. R224: the ready context that the escapement takes is of the highest priority among the ready
ones other than d, and d itself is never its own successor. R224, R225: the quantum expires quantum_us of wall time after the
dispatch. A context at an untimed point that has left the engines gives way to the best ready context, which is dispatched
after at least 64 AC and whose section begins there; with nothing ever dispatched the best ready context is dispatched at
once. For contexts that use no MXE state and no partition. The choices it rests on: log 4, 19. It concludes that
UNTIMED_POINT_RELEASE, QUANTUM_EXPIRY and CONTEXT_SWITCH complete. -/
def Obligations.ContextsAreDispatched : Prop :=
  (∀ (s : State) (c : Ctx) (d : Nat), (ctx s c).cstate = .running → (ctx s c).stopping = false → s.switching = false → NothingDue s →
     (ctx s c).point = .releasing d → outHeld s c = false →
     let e := Nat.max (Nat.max (2 * d + 2) (ctx s c).outLeft) s.ec
     ∃ t, exec (.untimedPointRelease c) s = .next t ∧ (∀ k : Ctx, k ≠ c → ctx t k = ctx s k) ∧ (∀ a, readByte t a = readByte s a) ∧
       (∀ q, q ≠ .txb → queue t q = queue s q) ∧ (queue t .txb).length = (queue s .txb).length ∧
       t.runs.map Run.effs = s.runs.map Run.effs ∧ (s.dispatched ≠ some c → t.queues = s.queues ∧ t.runs = s.runs) ∧
       (s.dispatched = some c → mustYield s c = false →
         ctx t c = { ctx s c with point := .inSection, lastIssue := e, fresh := true, slipping := false }) ∧
       (s.dispatched ≠ some c ∨ mustYield s c = true → ctx t c = { ctx s c with point := .released e })) ∧
  (∀ (s : State) (d c : Ctx), bestReady s (some d) = some c →
     ready s c = true ∧ c ≠ d ∧ ∀ i : Ctx, i ≠ d → ready s i = true → (ctx s i).prio ≤ (ctx s c).prio) ∧
  (∀ (s : State) (i : Ctx), s.switching = false → s.isolated = false → NothingDue s →
     (∀ d, s.dispatched = some d → s.quantumUs ≠ 0 → s.quantumOver = false →
       ∃ t, exec .quantumExpiry s = .next t ∧ t.quantumOver = true ∧ s.dispatchedAt + s.quantumUs * usTicks ≤ t.wall ∧
         t = { s with ec := t.ec, wall := t.wall, stretched := t.stretched, quantumOver := true }) ∧
     (usesMxe s i = false → partSize s i = 0 → (ctx s i).point = .start →
       (∀ d, s.dispatched = some d → bestReady s (some d) = some i → leaves s d = true → leftEngines s d = true →
         (ctx s d).point ≠ .gated →
         ∃ t, exec .contextSwitch s = .next t ∧ t.dispatched = some i ∧ t.lastDisp = some i ∧ s.ec + 128 ≤ t.ec ∧
           t.switches = (s.switches + 1) % 2 ^ 32 ∧ t.lastSwitchAc = 64 ∧ t.quantumOver = false ∧
           ctx t i = { ctx s i with point := .inSection, lastIssue := t.ec, fresh := true, slipping := false } ∧
           (∀ k : Ctx, k ≠ i → ctx t k = ctx s k) ∧ (∀ a, readByte t a = readByte s a)) ∧
       (s.dispatched = none → s.lastDisp = none → bestReady s none = some i →
         ∃ t, exec .contextSwitch s = .next t ∧ t.dispatched = some i ∧ t.switches = s.switches ∧
           ctx t i = { ctx s i with point := .inSection, lastIssue := s.ec, fresh := true, slipping := false } ∧
           (∀ k : Ctx, k ≠ i → ctx t k = ctx s k) ∧ (∀ a, readByte t a = readByte s a))))

/-- R197, R199, R356: a host stop begins to stop a RUNNING context with HOST_STOP and does nothing to a STOPPED one. A
quiesce request waits inside a section and takes effect at once at an untimed point: a context at its program start or at a
point that has released or is to release pauses there; one that waits at a pennant, at a hoist or at the gate leaves its
wait, takes nothing, and comes back to its command when it resumes, a hoist entry that is recorded staying so. A resume runs
a paused context again from its position if the slot maps still have its image's signature, and stops it with
SLOTMAP_MISMATCH if not; a clear of a STOPPED context makes it QUIESCED without a fault and does nothing to any other. The
choices it rests on: log 29. It concludes that CTX_STOP, CTX_QUIESCE, CTX_RESUME and CTX_CLEAR complete. -/
def Obligations.HostControlsContexts : Prop :=
  ∀ (s : State) (c : Ctx), Released s → NothingDue s →
    (∃ t, exec (.ctxStop c) s = .next t ∧ (∀ k : Ctx, k ≠ c → ctx t k = ctx s k) ∧ (∀ a, readByte t a = readByte s a) ∧
      ((ctx s c).cstate = .stopped → ctx t c = ctx s c) ∧
      ((ctx s c).cstate = .running → (ctx s c).stopping = false →
        (ctx t c).stopping = true ∧ (ctx t c).faultCode = cHOST_STOP ∧ (ctx t c).cstate = .running ∧
        (ctx t c).pos = (ctx s c).pos)) ∧
    (∃ t, exec (.ctxQuiesce c) s = .next t ∧ t.mem = s.mem ∧ t.runs = s.runs ∧ (∀ k : Ctx, k ≠ c → ctx t k = ctx s k) ∧
      (∀ q, q ≠ .mxe → queue t q = queue s q) ∧ (∀ p, pennant t p = pennant s p) ∧
      ((ctx s c).cstate ≠ .running → t = s) ∧
      ((ctx s c).cstate = .running → (ctx s c).stopping = false →
        let back : CtxSt := { ctx s c with point := .pausing, quiesceReq := false, pos := (ctx s c).pos - 1 }
        ((ctx s c).point = .inSection → ctx t c = { ctx s c with quiesceReq := true }) ∧
        ((ctx s c).point ∈ [.ending, .pausing] → ctx t c = ctx s c) ∧
        ((ctx s c).point = .start ∨ (∃ e, (ctx s c).point = .released e) ∨ (∃ d, (ctx s c).point = .releasing d) →
          ctx t c = { ctx s c with point := .pausing, quiesceReq := false } ∧ t.syn = s.syn ∧ t.queues = s.queues) ∧
        ((ctx s c).point = .pennant → ctx t c = back ∧ t.queues = s.queues ∧
          t.syn.waits = s.syn.waits.filter (fun w => decide (w.who ≠ .ctx c))) ∧
        ((ctx s c).point = .hoist → ctx t c = { back with rejoin := (ctx t c).rejoin } ∧ t.queues = s.queues ∧
          ∀ h, hoist t h = { hoist s h with waiters := (hoist s h).waiters.filter (fun w => decide (w.ctx ≠ c)) }) ∧
        ((ctx s c).point = .gated → ctx t c = back ∧ t.syn = s.syn ∧ queue t .mxe = (queue s .mxe).filter (fun e =>
          decide (e.ctx ≠ c ∨ wd e.words 0 % 256 ≠ 0x13 ∨ bit (wd e.words 5) 23 = false))))) ∧
    ((ctx s c).cstate = .quiesced → (ctx s c).paused = true → (ctx s c).stopping = false → (ctx s c).imageValid = true →
      ∃ t, exec (.ctxResume c) s = .next t ∧ (∀ k : Ctx, k ≠ c → ctx t k = ctx s k) ∧
        ((ctx s c).img.sig = mapSig s.cm.active →
          ctx t c = { ctx s c with cstate := .running, paused := false, point := .start }) ∧
        ((ctx s c).img.sig ≠ mapSig s.cm.active → (ctx t c).stopping = true ∧ (ctx t c).faultCode = cSLOTMAP)) ∧
    (∃ t, exec (.ctxClear c) s = .next t ∧
      ((ctx s c).cstate = .stopped → t = modCtx s c (fun x =>
        { x with cstate := .quiesced, paused := false, faultCode := 0, faultTag := 0, faultSev := 0 })) ∧
      ((ctx s c).cstate ≠ .stopped → t = s))

/-- Says of CONTEXT_STOPPED, CONTEXT_QUIESCED, CMEM_PART_EVICT and PARTITION_SPILL where they complete, with their results.
R198, R199, R206: a stopping context with nothing queued is STOPPED one EC later with its fault kept; a pausing context whose
timed commands are done is QUIESCED and paused; a context at ESC.END whose commands have all retired and of which no outbound
halyard entry is held is QUIESCED. Each is no longer dispatched, and a LAUNCH that ends so leaves its completion record if it
asked for one. The choices it rests on: log 19. R181, R227: the host's eviction of a context that is at rest is requested,
and refused for one that runs; the spill of a partition that no running command has still to write, to a region that exists,
sends the partition's bytes to the region, and once the external memory unit has accepted the last of them the partition is
no longer resident; core memory keeps its bytes. The choices it rests on: log 22, 24. It concludes that CONTEXT_STOPPED,
CONTEXT_QUIESCED, CMEM_PART_EVICT and PARTITION_SPILL complete. -/
def Obligations.ContextsAndPartitionsComeToRest : Prop :=
  (∀ (s : State) (c : Ctx),
     ((ctx s c).stopping = true → queuedOf s c = [] → NothingDue s →
       ∃ t, exec (.contextStopped c) s = .next t ∧ (ctx t c).cstate = .stopped ∧ (ctx t c).stopping = false ∧
         (ctx t c).faultCode = (ctx s c).faultCode ∧ (ctx t c).pos = (ctx s c).pos ∧ t.ec = s.ec + 1 ∧ t.dispatched ≠ some c ∧
         (ctx t c).launch = none ∧ (∀ k : Ctx, k ≠ c → ctx t k = ctx s k) ∧ (∀ a, readByte t a = readByte s a)) ∧
     ((ctx s c).stopping = false → (ctx s c).cstate = .running → (ctx s c).point = .pausing → timedQueued s c = [] →
       runsOf s c = false →
       ∃ t, exec (.contextQuiesced c) s = .next t ∧
         ctx t c = { ctx s c with cstate := .quiesced, paused := true, quiesceReq := false } ∧ t.dispatched ≠ some c ∧
         (∀ k : Ctx, k ≠ c → ctx t k = ctx s k) ∧ (∀ a, readByte t a = readByte s a)) ∧
     ((ctx s c).stopping = false → (ctx s c).cstate = .running → (ctx s c).point = .ending → drained s c = true →
       outHeld s c = false →
       ∃ t, exec (.contextQuiesced c) s = .next t ∧
         ctx t c = { ctx s c with cstate := .quiesced, paused := false, quiesceReq := false, launch := none } ∧
         t.dispatched ≠ some c ∧ (∀ k : Ctx, k ≠ c → ctx t k = ctx s k) ∧ (∀ a, readByte t a = readByte s a) ∧
         ((ctx s c).launch = none → t.hst = s.hst) ∧
         (∀ r : HostRef, (ctx s c).launch = some r → r.kind ≠ 5 → s.hst.cqQ.length < 64 →
           t.hst.cqQ.length = s.hst.cqQ.length + if r.cmpl then 1 else 0))) ∧
  (∀ (s : State) (c : Ctx),
     (Released s → ∃ t, exec (.cmemPartEvict (BitVec.ofNat 8 (2 ^ c.val))) s = .next t ∧ t.ctxs = s.ctxs ∧ (∀ a, readByte t a = readByte s a) ∧
       ((ctx s c).cstate = .running → t.cm.evictRefused = true ∧ t.cm.evicting = s.cm.evicting) ∧
       ((ctx s c).cstate ≠ .running → (ctx s c).stopping = false → drained s c = true → s.switching = false →
         s.rsl.snap.phase = 0 → s.rsl.fill.st ≠ 1 → residentPart s c = true →
         c.val ∈ t.cm.evicting ∧ t.cm.evictRefused = s.cm.evictRefused)) ∧
     (s.cm.evicting = [c.val] → residentPart s c = true → extFault s.xmu (spillExt s c) (partSize s c * 16384) = none →
       (s.cm.spilling = [] → inOrder s (ac s) = true → NothingDue s →
         (∀ g ∈ granulesOf (partBase s c * 16384) (partSize s c * 16384), NoneOwes s g) →
         ∃ t, exec .partitionSpill s = .next t ∧ t.cm.evicting = [c.val] ∧ residentPart t c = true ∧
           (∀ a, readByte t a = readByte s a) ∧ t.cm.spilling = [(c.val, s.xfer.nextJob)] ∧
           t.xfer.late = s.xfer.late ++ [⟨s.xfer.nextJob, s.xfer.nextJob, { ctx := some c }, spillExt s c,
             readBytes s (partBase s c * 16384) (partSize s c * 16384), []⟩]) ∧
       (∀ id, s.cm.spilling = [(c.val, id)] → lateOf id (flushLate id s) = false →
         ∃ t, exec .partitionSpill s = .next t ∧ t.cm.evicting = [] ∧ t.cm.spilling = [] ∧ residentPart t c = false ∧
           (∀ a, readByte t a = readByte s a))))

/-! ### Pennants (chapter 11) -/

/-- R244, R245, R255: a host write of a pennant word is a SET; a good SIGNAL message to this core adds, subtracts or sets,
saturating at 2^32 − 1 and at 0; the sticky flag of the direction is set as the AC ends. On a pennant that nothing waits on,
and as its first update in the AC, no other count, no context, queue or byte of core memory changes. It concludes that
PENNANT_SET and SIGNAL_MESSAGE complete. -/
def Obligations.PennantUpdates : Prop :=
  ∀ (s : State) (p : Nat), p < 4096 → Untouched s p → Released s →
    (∀ v : W32, ∃ t, exec (.pennantSet p v) s = .next t ∧ pennant t p = v.toNat ∧
      (∀ x, x ≠ p → pennant t x = pennant s x) ∧ t.ctxs = s.ctxs ∧ t.mem = s.mem ∧ t.queues = s.queues) ∧
    (∀ m : HalMsg, s.isolated = false → GoodMessage s 1 m → bits m.w2.toNat 11 0 = p → bits m.w2.toNat 13 12 ≤ 2 →
      ∃ t, exec (.signalMessage m) s = .next t ∧ t.syn.msgsIn = (s.syn.msgsIn + 1) % 2 ^ 32 ∧
        (∀ x, x ≠ p → pennant t x = pennant s x) ∧ t.ctxs = s.ctxs ∧ t.mem = s.mem ∧ t.queues = s.queues ∧
        (bits m.w2.toNat 13 12 = 0 → pennant t p = Nat.min (pennant s p + m.w3.toNat) (2 ^ 32 - 1) ∧
          (2 ^ 32 ≤ pennant s p + m.w3.toNat → (ac s, p) ∈ t.syn.evals ∧ p ∈ (evalAt p (ac s) t).syn.ovf)) ∧
        (bits m.w2.toNat 13 12 = 1 → pennant t p = pennant s p - m.w3.toNat ∧
          (pennant s p < m.w3.toNat → (ac s, p) ∈ t.syn.evals ∧ p ∈ (evalAt p (ac s) t).syn.unf)) ∧
        (bits m.w2.toNat 13 12 = 2 → pennant t p = m.w3.toNat))

/-- R245: of two updates of a pennant in one AC the one of the lower kind goes first, whichever came first: SET by the
escapement, host register writes, ADD and SUB by the escapement, arrivals and completions, SIGNAL messages, host SIGNAL
descriptors; so a host write and a SIGNAL message of one AC. R247: an update of a pennant with waits makes its evaluation due
at the end of its AC, and as time passes that end it comes about, as does whatever else is due then. An evaluation, on the
count that the updates lead to, with no STREAM at the gate: it releases every wait of contexts and of host software that
takes nothing and whose value the count reaches, then the take waits, the oldest first, while the count covers them, each
taking its value; no other wait or context changes. R249, R349: each released host wait leaves one record for the event ring.
It concludes that PENNANT_SET and SIGNAL_MESSAGE complete. -/
def Obligations.WaitsReleaseInOrder : Prop :=
  (∀ (s : State) (p c1 c2 o1 o2 v1 v2 : Nat) (b1 b2 : Cause), c1 < c2 → (∀ u ∈ s.syn.upds, u.p ≠ p) →
     let n := (updCount (updCount (pennant s p) o1 v1).1 o2 v2).1
     pennant (raise c2 p o2 v2 b2 (raise c1 p o1 v1 b1 s)) p = n ∧ pennant (raise c1 p o1 v1 b1 (raise c2 p o2 v2 b2 s)) p = n) ∧
  (∀ (s : State) (p : Nat) (v : W32) (w : PWait) (m : HalMsg), p < 4096 → Released s → s.isolated = false → NothingDue s →
     s.syn.upds = [] → s.mxe.gate = none → w ∈ s.syn.waits → w.pennant = p →
     GoodMessage s 1 m → bits m.w2.toNat 11 0 = p → bits m.w2.toNat 13 12 = 0 → v.toNat + m.w3.toNat < 2 ^ 32 →
     ∃ t u x y, exec (.pennantSet p v) s = .next t ∧ exec (.signalMessage m) t = .next u ∧
       exec (.signalMessage m) s = .next x ∧ exec (.pennantSet p v) x = .next y ∧
       pennant t p = v.toNat ∧ pennant u p = v.toNat + m.w3.toNat ∧ pennant y p = v.toNat + m.w3.toNat ∧
       t.syn.waits = s.syn.waits ∧ u.syn.waits = s.syn.waits ∧ y.syn.waits = s.syn.waits ∧ y.ctxs = s.ctxs ∧
       t.syn.evals = [(ac s, p)] ∧ u.syn.evals = [(ac s, p)] ∧ y.syn.evals = [(ac s, p)]) ∧
  (∀ (s : State) (n k e : Nat), s.syn.evals = [(k, n)] → s.ec < e → k < e / 2 →
     (n < 4096 → advance e s = pass e (evalAt n k (pass (2 * k + 1) s))) ∧
     ((comeDue n k (pass (2 * k + 1) s)).syn.evals = [] → advance e s = pass e (comeDue n k (pass (2 * k + 1) s)))) ∧
  (∀ (s : State) (p k : Nat), s.mxe.gate = none → s.syn.waits.Nodup → (∀ w ∈ s.syn.waits, w.gone = none) → s.syn.updAc ≠ k →
     let here (w : PWait) : Bool := decide (w.pennant = p) && w.standsAt k
     let free := s.syn.waits.filter (fun w => here w && (!w.take || decide (w.value = 0)) && decide (w.value ≤ pennant s p))
     let takes := coveredTakes (pennant s p) (s.syn.waits.filter (fun w => here w && w.take && decide (w.value ≠ 0)))
     let t := evalAt p k s
     pennant t p = pennant s p - (takes.map PWait.value).sum ∧ (∀ x, x ≠ p → pennant t x = pennant s x) ∧
       t.syn.waits = s.syn.waits.filter (fun w => decide (w ∉ free) && decide (w ∉ takes)) ∧
       (∀ (c : Ctx) (w : PWait), w ∈ free ++ takes → w.who = .ctx c → (∀ x ∈ s.syn.waits, x.who = .ctx c → x = w) →
         ctx t c = { (if w.act then setPred (ctx s c) w.pred true else ctx s c) with point := .releasing k }) ∧
       (∀ c : Ctx, (∀ w ∈ free ++ takes, w.who ≠ .ctx c) → ctx t c = ctx s c) ∧
       (s.hst.eqQ.length + (free ++ takes).length ≤ 64 →
         t.hst.eqQ.length = s.hst.eqQ.length + ((free ++ takes).filter (fun w => decide (∀ c, w.who ≠ .ctx c))).length))

/-- R246, R247, R254: SYN.WAIT ends its section and reaches the pennant unit 2 AC after its issue, where the evaluation of
that AC finds it. With the count below its value it waits; a threshold wait that the count reaches releases, and a take wait
releases and takes its value; a released wait sets its predicate if it has one, and its context goes on in EC 2d + 2 of its
AC d. The choices it rests on: log 17. R250, R260: when the timeout of a pennant or hoist wait expires it is withdrawn and
takes nothing: with its predicate action the predicate is cleared and the context released, without one the context stops
with SYNC_TIMEOUT or HOIST_TIMEOUT. The choices it rests on: log 4. It concludes that SYN_WAIT, UNTIMED_POINT_RELEASE,
SYNC_TIMEOUT and HOIST_WAIT_TIMEOUT complete. -/
def Obligations.PennantWaits : Prop :=
  (∀ (s : State) (c : Ctx) (sl : Slot) (p pr : Nat) (take act : Bool), Due s c sl → Passes s c sl → slotRsv sl = 0 →
     opcodeOf sl = 0x29 → (issueCtx s c sl).quiesceReq = false → p < 4096 → pr < 16 → (act = false → pr = 0) →
     sl.w1.toNat = p + b2n take * 2 ^ 12 + b2n act * 2 ^ 13 + pr * 2 ^ 14 → sl.w3.toNat < 2 ^ 20 →
     sl.w4 = 0 → sl.w5 = 0 → sl.w6 = 0 → sl.w7 = 0 →
     ∃ t w, exec (.synWait sl) s = .next t ∧ (∀ d : Ctx, d ≠ c → ctx t d = ctx (issueState s c sl) d) ∧
       (∀ a, readByte t a = readByte s a) ∧ t.queues = s.queues ∧ t.runs = s.runs ∧
       ctx t c = { afterIssue s c sl with point := .pennant } ∧ (∀ x, pennant t x = pennant (issueState s c sl) x) ∧
       t.syn.waits = insertWait w (issueState s c sl).syn.waits ∧
       t.syn.evals = insertEval (dueEc s (ctx s c) sl / 2 + 2, p) (issueState s c sl).syn.evals ∧
       w.who = .ctx c ∧ w.pennant = p ∧ w.take = take ∧ w.value = sl.w2.toNat ∧ w.act = act ∧ w.pred = pr ∧ w.gone = none ∧
       w.at_ = 2 * (dueEc s (ctx s c) sl / 2 + 2) ∧ (w.due = none ↔ sl.w3 = 0)) ∧
  (∀ (s : State) (c : Ctx) (w : PWait), s.syn.waits = [w] → w.who = .ctx c → w.gone = none →
     s.syn.evals = [(w.at_ / 2, w.pennant)] → ac s ≤ w.at_ / 2 → s.mxe.gate = none → settledAc s (w.at_ / 2) = true →
     (ctx s c).point = .pennant → (ctx s c).cstate = .running → (ctx s c).stopping = false → s.dispatched = some c →
     s.switching = false → mustYield s c = false → outHeld s c = false → (ctx s c).outLeft ≤ 2 * (w.at_ / 2) + 2 →
     (w.value ≤ pennant s w.pennant → ∃ t, exec (.untimedPointRelease c) s = .next t ∧ t.syn.waits = [] ∧
       pennant t w.pennant = (if w.take then pennant s w.pennant - w.value else pennant s w.pennant) ∧
       (∀ x, x ≠ w.pennant → pennant t x = pennant s x) ∧ (∀ d : Ctx, d ≠ c → ctx t d = ctx s d) ∧
       (∀ a, readByte t a = readByte s a) ∧
       ctx t c = { (if w.act then setPred (ctx s c) w.pred true else ctx s c) with
         point := .inSection, lastIssue := 2 * (w.at_ / 2) + 2, fresh := true, slipping := false }) ∧
     (pennant s w.pennant < w.value → exec (.untimedPointRelease c) s = .next s)) ∧
  (∀ (s : State) (c : Ctx), (ctx s c).stopping = false → (ctx s c).cstate = .running → NothingDue s →
     (∀ (w : PWait) (rest : List PWait) (d : Nat), s.syn.waits = w :: rest → w.who = .ctx c → w.due = some d → s.runs = [] →
       (∀ g, s.mxe.gate = some g → g.pennant ≠ w.pennant) →
       ∃ t, exec (.syncTimeout 0) s = .next t ∧ (∀ x, pennant t x = pennant s x) ∧ d ≤ t.wall ∧
         t.syn.timeouts = (s.syn.timeouts + 1) % 2 ^ 32 ∧ (∀ k : Ctx, k ≠ c → ctx t k = ctx s k) ∧
         (∀ a, readByte t a = readByte s a) ∧
         (w.act = true → t.syn.waits = rest ∧ ctx t c = { setPred (ctx s c) w.pred false with point := .releasing (ac t) }) ∧
         (w.act = false → (ctx t c).stopping = true ∧ (ctx t c).faultCode = cSYNC_TIMEOUT)) ∧
     (∀ (h : Nat) (w : HWait) (d : Nat), hwaitOf s c = some (h, w) → w.due = some d → (hoist s h).abortOnTimeout = false →
       ∃ t, exec (.hoistWaitTimeout c) s = .next t ∧ d ≤ t.wall ∧ (∀ k : Ctx, k ≠ c → ctx t k = ctx s k) ∧
         (∀ a, readByte t a = readByte s a) ∧
         (w.act = true → (hoist t h).waiters = (hoist s h).waiters.erase w ∧
           ctx t c = { setPred (ctx s c) w.pred false with point := .releasing (ac t) }) ∧
         (w.act = false → (ctx t c).stopping = true ∧ (ctx t c).faultCode = cHOIST_TIMEOUT)))

/-! ### Hoists and the halyard (chapter 11) -/

/-- R28, R259: SYN.HOIST ends its section and reaches the hoist unit 2 AC after its issue, a resumed ARRIVE_WAIT whose entry
is recorded as WAIT (R356). R257, R259: there it enters a hoist in service for its context: ARRIVE goes on, ARRIVE_WAIT and
WAIT without an entry wait for the epoch, WAIT with an entry whose epoch has closed goes on. Host software enters as
participant 8. While the epoch still lacks a participant the entry is recorded and nothing closes. R257, R258: the entry that
completes an epoch at a root without children closes it: the parity turns, the marks of the next epoch come forward, the
count of closed epochs goes up, and the waiters of the epoch are released. The choices it rests on: log 71. It concludes that
HOST_ARRIVE, HOIST_ARRIVE, HOIST_ARRIVE_WAIT and HOIST_WAIT complete. -/
def Obligations.HoistEntries : Prop :=
  (∀ (s : State) (c : Ctx) (sl : Slot) (h mode pr : Nat) (act : Bool), Due s c sl → Passes s c sl → slotRsv sl = 0 →
     opcodeOf sl = 0x2A → (issueCtx s c sl).quiesceReq = false → h < 256 → mode ≤ 2 → pr < 16 → (act = false → pr = 0) →
     sl.w1.toNat = h + mode * 2 ^ 8 + b2n act * 2 ^ 10 + pr * 2 ^ 11 →
     sl.w2 = 0 → sl.w3 = 0 → sl.w4 = 0 → sl.w5 = 0 → sl.w6 = 0 → sl.w7 = 0 →
     let k := dueEc s (ctx s c) sl / 2 + 2
     let n : HEnt := { ctx := c, ac := k, hoist := h, mode := if mode = 0 ∧ (issueCtx s c sl).rejoin = true then 2 else mode
                       act := act, pred := pr, tag := issuedTag s (ctx s c) sl }
     ∃ t, exec (match mode with | 0 => .hoistArriveWait sl | 1 => .hoistArrive sl | _ => .hoistWait sl) s = .next t ∧
       ctx t c = { afterIssue s c sl with point := .hoist, rejoin := false } ∧
       (∀ d : Ctx, d ≠ c → ctx t d = ctx (issueState s c sl) d) ∧ (∀ a, readByte t a = readByte s a) ∧ t.queues = s.queues ∧
       t.runs = s.runs ∧ t.syn = { (issueState s c sl).syn with
         ents := (issueState s c sl).syn.ents ++ [n]
         evals := insertEval (k, 4352 + c.val) (issueState s c sl).syn.evals }) ∧
  (∀ (s : State) (h q : Nat), h < 256 → q ≤ 8 → (hoist s h).enable = true → bit (hoist s h).mask q = true →
     (hoist s h).st = .open_ → bit (hoist s h).marksN q = false →
     let x := hoist s h
     let y : Hoist := { x with marksN := x.marksN ||| 2 ^ q, entered := x.entered ||| 2 ^ q }
     let z : Hoist := { y with marksN := x.marksN1, marksN1 := 0, waiters := [], parity := !x.parity
                               closed := (x.closed + 1) % 2 ^ 16 }
     let lacks := popcount 9 y.marksN + x.childN.length ≠ parties x
     let closes := popcount 9 y.marksN = popcount 9 x.mask ∧ x.root = true ∧ x.childCount = 0 ∧ x.childN = [] ∧
       x.childN1 = [] ∧ popcount 9 x.marksN1 < popcount 9 x.mask ∧ ∀ w ∈ x.waiters, w.next = false ∧ w.act = false
     (q = 8 → Released s → ∃ t, exec (.hostArrive h) s = .next t ∧ t.mem = s.mem ∧ t.queues = s.queues ∧
       (lacks → hoist t h = y ∧ t.ctxs = s.ctxs) ∧
       (closes → hoist t h = z ∧ (∀ w ∈ x.waiters, ctx t w.ctx = { ctx s w.ctx with point := .releasing (ac s) }) ∧
         ∀ d : Ctx, (∀ w ∈ x.waiters, w.ctx ≠ d) → ctx t d = ctx s d)) ∧
     (∀ n : HEnt, s.syn.ents = [n] → n.ctx.val = q → n.hoist = h → n.gone = false →
       let t := comeDue (4352 + q) n.ac s
       let on : CtxSt := { (if n.act then setPred (ctx s n.ctx) n.pred true else ctx s n.ctx) with point := .releasing n.ac }
       t.syn.ents = [] ∧ (∀ a, readByte t a = readByte s a) ∧
       (lacks → (∀ d : Ctx, d ≠ n.ctx → ctx t d = ctx s d) ∧ (n.mode = 1 → hoist t h = y ∧ ctx t n.ctx = on) ∧
         (n.mode = 0 ∨ n.mode = 2 ∧ bit x.entered q = false → ctx t n.ctx = ctx s n.ctx ∧ hoist t h = { y with waiters := x.waiters ++
           [⟨n.ctx, false, dueAt s (2 * n.ac) x.timeoutUs, wallAt s (2 * n.ac), n.act, n.pred, n.tag⟩] }) ∧
         (n.mode = 2 → bit x.entered q = true → bit x.marksN1 q = false → ctx t n.ctx = on ∧ hoist t h = x)) ∧
       (closes → n.mode < 2 → (∀ w ∈ x.waiters, w.ctx ≠ n.ctx) → hoist t h = z ∧ ctx t n.ctx = on ∧
         (∀ w ∈ x.waiters, ctx t w.ctx = { ctx s w.ctx with point := .releasing n.ac }) ∧
         ∀ d : Ctx, d ≠ n.ctx → (∀ w ∈ x.waiters, w.ctx ≠ d) → ctx t d = ctx s d)))

/-- R256, R263: the configuration of a hoist out of service is replaced whole, of one in service only its enable; a write that
would enable one without parties or with a child table that runs past 2,048 is refused, any other enabling write is taken.
Rearm makes a hoist OPEN with parity 0 and nothing recorded, and stops whoever waits on it with HOIST_ABORTED. It concludes
that SYN_HOIST_CFG_WRITE and REARM complete. -/
def Obligations.HoistConfigurationAndRearm : Prop :=
  ∀ (s : State) (h : Nat) (v : W32), h < 256 → Released s →
    (∃ t, exec (.synHoistCfgWrite h v) s = .next t ∧ t.ctxs = s.ctxs ∧ t.mem = s.mem ∧
      (∀ k, k ≠ h → hoist t k = hoist s k) ∧
      ((hoist s h).enable = true → hoist t h = { hoist s h with enable := bit v.toNat 31 }) ∧
      ((hoist s h).enable = false → bit v.toNat 31 = true →
        (popcount 9 (bits v.toNat 8 0) + bits v.toNat 16 9 = 0 ∨ 2048 < bits v.toNat 27 17 + bits v.toNat 16 9 →
          hoist t h = hoist s h) ∧
        (0 < popcount 9 (bits v.toNat 8 0) + bits v.toNat 16 9 → bits v.toNat 27 17 + bits v.toNat 16 9 ≤ 2048 →
          hoist t h = hoistCfg v.toNat (hoist s h) ∧ (hoist t h).enable = true)) ∧
      ((hoist s h).enable = false → bit v.toNat 31 = false → hoist t h = hoistCfg v.toNat (hoist s h))) ∧
    (∃ t, exec (.rearm h) s = .next t ∧ (∀ a, readByte t a = readByte s a) ∧
      hoist t h = { hoist s h with parity := false, st := .open_, marksN := 0, marksN1 := 0, childN := [], childN1 := []
                                   entered := 0, closed := 0, waiters := [] } ∧
      (∀ w ∈ (hoist s h).waiters, (ctx s w.ctx).stopping = false → (ctx s w.ctx).cstate = .running →
        (ctx t w.ctx).stopping = true ∧ (ctx t w.ctx).faultCode = cABORTED) ∧
      (∀ c : Ctx, (∀ w ∈ (hoist s h).waiters, w.ctx ≠ c) → ctx t c = ctx s c))

/-- R257, R258, R261, R262, R266: a good ARRIVE from a child of the current parity is recorded; a good RELEASE from the
parent closes the epoch of a node that has sent its ARRIVE: the parity turns and the next epoch's marks come forward; ABORT
makes the hoist ABORTED with cause 2 and no waiter; an advisory delays the timers of its waiters. At a node with one child
table entry or a parent, where the epoch does not complete by it. The choices it rests on: log 70. It concludes that
ARRIVE_MESSAGE, RELEASE_MESSAGE, ABORT_MESSAGE and THERMAL_ADVISORY complete. -/
def Obligations.HoistMessages : Prop :=
  ∀ (s : State) (m : HalMsg) (h : Nat), Released s → s.isolated = false → bits m.w2.toNat 7 0 = h → (hoist s h).enable = true →
    (∀ k, GoodMessage s 2 m → childIndex s (hoist s h) m = some k → (hoist s h).st ≠ .aborted → k ∉ (hoist s h).childN →
      bit m.w1.toNat 30 = (hoist s h).parity →
      popcount 9 (hoist s h).marksN + (hoist s h).childN.length + 1 ≠ parties (hoist s h) →
      ∃ t, exec (.arriveMessage m) s = .next t ∧ hoist t h = { hoist s h with childN := (hoist s h).childN ++ [k] } ∧
        t.ctxs = s.ctxs ∧ t.mem = s.mem) ∧
    (GoodMessage s 3 m → fromParent (hoist s h) m = true → (hoist s h).st = .sent → bit m.w1.toNat 30 = (hoist s h).parity →
      (hoist s h).waiters = [] → (hoist s h).childCount = 0 →
      popcount 9 (hoist s h).marksN1 + (hoist s h).childN1.length ≠ parties (hoist s h) →
      ∃ t, exec (.releaseMessage m) s = .next t ∧ t.ctxs = s.ctxs ∧ t.mem = s.mem ∧
        hoist t h = { hoist s h with
          parity := !(hoist s h).parity, st := .open_, marksN := (hoist s h).marksN1, marksN1 := 0
          childN := (hoist s h).childN1, childN1 := [], closed := ((hoist s h).closed + 1) % 2 ^ 16 }) ∧
    (GoodMessage s 4 m → (fromParent (hoist s h) m || (childIndex s (hoist s h) m).isSome) = true → (hoist s h).st ≠ .aborted →
      ∃ t, exec (.abortMessage m) s = .next t ∧ (hoist t h).st = .aborted ∧ (hoist t h).cause = 2 ∧
        (hoist t h).waiters = [] ∧ (∀ a, readByte t a = readByte s a)) ∧
    (∀ w : HWait, GoodMessage s 5 m → (fromParent (hoist s h) m || (childIndex s (hoist s h) m).isSome) = true →
      (hoist s h).waiters = [w] →
      ∃ t, exec (.thermalAdvisory m) s = .next t ∧ t.ctxs = s.ctxs ∧ t.mem = s.mem ∧
        (hoist t h).waiters = [{ w with due := w.due.map (fun d =>
          Nat.min (d + bits m.w3.toNat 19 0 * usTicks) (w.start + 1048575 * usTicks)) }])

/-- R251, R252: SYN.SIGNAL on a local pennant takes the pennant unit for 1 AC, not before 2 AC after its issue, and updates
the count 4 AC after that; a remote one places a SIGNAL message in the outbound halyard buffer, which it enters 2 AC after
its issue. The choices it rests on: log 18. R252, R264, R368: the oldest message of the outbound buffer leaves the core once
what is due by its start is done; an isolated core sends none. It concludes that SYN_SIGNAL and HALYARD_SEND complete. -/
def Obligations.SignalsLeaveOrStart : Prop :=
  (∀ (s : State) (c : Ctx) (sl : Slot) (p op : Nat), Due s c sl → Passes s c sl → slotRsv sl = 0 → opcodeOf sl = 0x28 →
     p < 4096 → op ≤ 2 → sl.w4 = 0 → sl.w5 = 0 → sl.w6 = 0 → sl.w7 = 0 →
     ∃ t, exec (.synSignal sl) s = .next t ∧
       ((sl.w1.toNat = p + op * 2 ^ 12 ∧ sl.w3 = 0 ∨ sl.w1.toNat = p + op * 2 ^ 12 + 2 ^ 14 ∧ sl.w3.toNat < 2 ^ 22) →
         ctx t c = afterIssue s c sl ∧ (∀ d : Ctx, d ≠ c → ctx t d = ctx (issueState s c sl) d) ∧
         (∀ a, readByte t a = readByte s a) ∧ (∀ x, pennant t x = pennant (issueState s c sl) x)) ∧
       (sl.w1.toNat = p + op * 2 ^ 12 → sl.w3 = 0 →
         let a := Nat.max (dueEc s (ctx s c) sl / 2 + 2) (issueState s c sl).syn.unitFree
         t.runs = s.runs ++ [⟨c, issuedTag s (ctx s c) sl, 0x28, a, a + 1, a + 5, [.pennant p op sl.w2.toNat], default, 0⟩] ∧
         t.syn.unitFree = a + 1 ∧ t.syn.out = (issueState s c sl).syn.out) ∧
       (sl.w1.toNat = p + op * 2 ^ 12 + 2 ^ 14 → sl.w3.toNat < 2 ^ 22 →
         t.runs = s.runs ∧ t.syn.out = (issueState s c sl).syn.out ++
           [⟨some c, none, mkMsg s 1 sl.w3.toNat 0 false p op sl.w2.toNat, dueEc s (ctx s c) sl / 2 + 2⟩])) ∧
  (∀ (s : State) (o : OutMsg) (rest : List OutMsg), s.syn.out = o :: rest → rest.length < 64 → inOrder s o.start = true → NothingDue s →
     ∃ t, exec .halyardSend s = .next t ∧ (s.isolated = true → t = s) ∧
       (s.isolated = false → t.syn.out = rest ∧ t.ec = Nat.max s.ec (2 * o.start) ∧ t.out = s.out ++ [.halyard o.msg] ∧
         t.syn.msgsOut = (s.syn.msgsOut + 1) % 2 ^ 32 ∧ t.mem = s.mem ∧ t.queues = s.queues))

/-! ### Arrivals (R156, R157, R182, R183) -/

/-- R157, R182: an arrival that its context may land, of any kind of transfer, writes its enabled bytes of its granule, or,
with a combine code, what the code makes of the resident and the arriving elements; every other byte stays. R183: with the
last granule of a transfer its pennant rises, in the EC after it. For a transfer that has no line more to ask for, at a
granule that no running command has still to write. The choices it rests on: log 55. It concludes that PLAIN_ARRIVAL and
COMBINED_ARRIVAL complete. -/
def Obligations.ArrivalsLand : Prop :=
  ∀ (s : State) (a : Arr) (rest : List Arr) (j : Job), s.xfer.arrivals = a :: rest → s.xfer.jobs = [j] → j.id = a.job →
    a.carrier = none → j.kind ≠ .serve → rowsOfJob j ≤ j.row → verifyLeft j = false → NoHeldPacket s → NothingDue s →
    NoneOwes s a.gran → a.bs.length ≤ 64 → refusal s (ctxOf j.ctx) (decide (j.kind = .linkIn)) a.gran = none →
    (a.gran < bankBytes s → bankOpen s (bankOf s.grade a.gran) = true) →
    let more := j.out ≠ [] ∨ j.acks ≠ 0 ∨ ∃ b ∈ rest, b.job = j.id
    let last := j.out = [] ∧ j.acks = 0 ∧ (∀ b ∈ rest, b.job ≠ j.id) ∧ j.kind ∈ [.read, .gather, .smRead, .lnkRead] ∧
      j.withheld = false ∧ j.faulted = false ∧ j.incr ≠ 0 ∧ Untouched s j.pennant ∧ pennant s j.pennant + j.incr < 2 ^ 32
    (a.comb = 0 → ∃ t, exec (.plainArrival 0) s = .next t ∧ t.xfer.arrivals = rest ∧ t.queues = s.queues ∧
      (∀ k, readByte t k = if a.gran ≤ k then (a.bs.getD (k - a.gran) none).getD (readByte s k) else readByte s k) ∧
      (a.gran < bankBytes s → (bank t (bankOf s.grade a.gran)).arrivals = ((bank s (bankOf s.grade a.gran)).arrivals + 1) % 2 ^ 32) ∧
      (more → t.ctxs = s.ctxs ∧ t.syn = s.syn ∧ t.ec = (takeSlots ownIn [a.gran] s).ec) ∧
      (last → t.ctxs = s.ctxs ∧ t.xfer.jobs = [] ∧ pennant t j.pennant = pennant s j.pennant + j.incr ∧
        t.ec = (takeSlots ownIn [a.gran] s).ec + 1)) ∧
    (a.comb ≠ 0 → granUncorrectable s a.gran = false →
      ∃ t, exec (.combinedArrival 0) s = .next t ∧ t.xfer.arrivals = rest ∧ t.queues = s.queues ∧
        (∀ k, readByte t k = if a.gran ≤ k then
          ((combGranule a.comb (readBytes s a.gran 64) a.bs).getD (k - a.gran) none).getD (readByte s k) else readByte s k) ∧
        (more → t.ctxs = s.ctxs ∧ t.syn = s.syn) ∧
        (last → t.ctxs = s.ctxs ∧ t.xfer.jobs = [] ∧ pennant t j.pennant = pennant s j.pennant + j.incr))

/-- R156, R157: the combined granule has 64 bytes, an element of which no byte is enabled or only some are is left alone, and
the 32-bit integer codes add modulo 2^32, take the signed or unsigned maximum or minimum, or OR. -/
def Obligations.CombinedElements : Prop :=
  ∀ (c : Nat) (old : List W8) (bs : List (Option W8)), 1 ≤ c → c ≤ 15 → old.length = 64 → bs.length = 64 →
    (combGranule c old bs).length = 64 ∧
    (∀ k, k < 64 / combWidth c → (∃ i, i < combWidth c ∧ bs.getD (combWidth c * k + i) none = none) →
      ∀ i, i < combWidth c → (combGranule c old bs).getD (combWidth c * k + i) none = none) ∧
    (∀ x y : W32,
      combElem 0xA x.toNat y.toNat = (x + y).toNat ∧
      combElem 0xB x.toNat y.toNat = (if x.slt y then y.toNat else x.toNat) ∧
      combElem 0xC x.toNat y.toNat = (if x.slt y then x.toNat else y.toNat) ∧
      combElem 0xD x.toNat y.toNat = Nat.max x.toNat y.toNat ∧ combElem 0xE x.toNat y.toNat = Nat.min x.toNat y.toNat ∧
      combElem 0xF x.toNat y.toNat = (x ||| y).toNat)

/-- R96, R98, R324: a STASH.CLAIM that moves no data completes with its slot's address in its register and 1 on its pennant;
an LNK.WRITE whose packets are all sent and whose scope waits for no answer raises its pennant by its increment, once. The
choices it rests on: log 65. It concludes that ASYNC_COMMAND_COMPLETE completes. -/
def Obligations.AsyncCommandsComplete : Prop :=
  ∀ (s : State) (j : Job), s.xfer.jobs = [j] → (∀ w ∈ s.xfer.late, w.job ≠ j.id) → Untouched s j.pennant → j.faulted = false →
    (j.kind = .claim → wd j.words 0 % 256 = 0x35 → pennant s j.pennant + 1 < 2 ^ 32 →
      ∃ t, exec (.asyncCommandComplete j.id) s = .next t ∧ t.xfer.jobs = [] ∧ pennant t j.pennant = pennant s j.pennant + 1 ∧
        ctx t (ctxOf j.ctx) = landAreg (ac t) 4 (stAreg j.words)
          (BitVec.ofNat 64 (slotAddr (stashOf s j.ctx) (stLayer j.words))) (ctx s (ctxOf j.ctx)) ∧
        (∀ c : Ctx, c ≠ ctxOf j.ctx → ctx t c = ctx s c) ∧ t.mem = s.mem) ∧
    (j.kind = .lnkWrite → lnkSent j = true → j.landed = false → waitsAck s j = false → j.acks ≠ 0 → j.withheld = false →
      j.incr ≠ 0 → (∀ o ∈ (port s j.port).outW, o.job = j.id → o.due = false) → pennant s j.pennant + j.incr < 2 ^ 32 →
      ∃ t, exec (.asyncCommandComplete j.id) s = .next t ∧ t.xfer.jobs = [{ j with landed := true }] ∧
        pennant t j.pennant = pennant s j.pennant + j.incr ∧ t.ctxs = s.ctxs ∧ t.mem = s.mem)

/-! ### Link ports (chapter 14) -/

/-- R326, R415: an enabled port comes up with the credits the fabric returns, and with the whole allotment of its buffers to
return, 320, 320 and 130 flits; it goes down without any; a credit pulse adds one of its channel; the oldest response leaves
with the credits of its flits. The choices it rests on: log 57. It concludes that LINK_PORT_UP, LINK_PORT_DOWN, CREDIT_RETURN
and LINK_PACKET_SEND complete. -/
def Obligations.PortsAndCredits : Prop :=
  ∀ (s : State) (p : Port) (cr : Credits),
    (Released s → ∃ t, exec (.linkPortUp p cr) s = .next t ∧ t.ctxs = s.ctxs ∧ t.mem = s.mem ∧
      (portEn s p = true → (port s p).up = false → port t p = { port s p with
        ready := true, up := true, cr := cr, gReq := ⟨0, 320, s.ec⟩, gRsp := ⟨0, 320, s.ec⟩, gSnp := ⟨0, 130, s.ec⟩
        ups := (port s p).ups + 1 }) ∧
      (portEn s p = false → port t p = { port s p with ready := true })) ∧
    (∃ t, exec (.linkPortDown p) s = .next t ∧ t.ctxs = s.ctxs ∧ t.mem = s.mem ∧
      port t p = { port s p with ready := false, up := false, cr := ⟨0, 0, 0⟩, gReq := {}, gRsp := {}, gSnp := {} }) ∧
    (∀ vc, (port s p).up = true → ∃ t, exec (.creditReturn p vc) s = .next t ∧ t.mem = s.mem ∧
      ∀ v, creditsOf v (port t p).cr = creditsOf v (port s p).cr + (if v = vc then 1 else 0)) ∧
    (∀ (r : Packet) (rest : List Packet), s.isolated = false → (port s p).up = true → (port s p).rsp = r :: rest →
      acceptsPos s r.dst = false → r.flits ≤ (port s p).cr.rsp →
      ∃ t, exec (.linkPacketSend p .rsp) s = .next t ∧ t.out = s.out ++ [.link p r] ∧ t.ctxs = s.ctxs ∧ t.mem = s.mem ∧
        port t p = { port s p with
          rsp := rest, pktsOut := ((port s p).pktsOut + 1) % 2 ^ 32
          cr := { (port s p).cr with rsp := (port s p).cr.rsp - r.flits } })

/-- R332, R334: a WRITE to core memory that its context may land sends its bytes on their way, granule by granule, under its
combine code; one to external memory that finds room goes to the external memory unit; a refused one is answered at once with
the status of the refusal, and nothing of it lands. R335: a READ_REQ of core memory that its context may read is answered with
the bytes as they stand, for granules that no running command has still to write. The choices it rests on: log 60. It
concludes that WRITE_PACKET and READ_REQ complete. -/
def Obligations.RequestPacketsAreHandled : Prop :=
  ∀ (s : State) (p : Port) (pkt : Packet), Quiet s → s.rsl.snap.phase ≠ 3 →
    (Accepts s p 1 pkt → pkt.data ≠ [] →
      ∃ t, exec (.writePacket p pkt) s = .next t ∧ t.mem = s.mem ∧ t.ctxs = s.ctxs ∧
        (port t p).pktsIn = ((port s p).pktsIn + 1) % 2 ^ 32 ∧
        (pkt.space = 0 → writeRefusal s pkt = none → ∃ l, t.xfer.arrivals = s.xfer.arrivals ++ l ∧ t.xfer.late = [] ∧
          l.map Arr.gran = granulesOf pkt.off pkt.data.length ∧
          (∀ a ∈ l, a.comb = bits (pkt.w 0) 11 8 ∧ a.job = s.xfer.nextJob ∧ ∀ i, i < 64 → a.bs.getD i none =
            if pkt.off ≤ a.gran + i then (pkt.data.map some).getD (a.gran + i - pkt.off) none else none) ∧
          (port t p).rsp = (port s p).rsp) ∧
        (pkt.space = 1 → writeRefusal s pkt = none → roomForLines s.xmu [(pkt.off, pkt.data.length)] = true →
          t.xfer.arrivals = s.xfer.arrivals ∧ (port t p).rsp = (port s p).rsp ∧
          t.xfer.late = [⟨s.xfer.nextJob, linkWriter (inCmd pkt), packetBlame pkt, pkt.off, pkt.data, []⟩]) ∧
        (∀ f, writeRefusal s pkt = some f → (∀ a ∈ s.xfer.arrivals, a.job ≠ s.xfer.nextJob) →
          t.xfer.arrivals = s.xfer.arrivals ∧ t.xfer.late = [] ∧ ∃ r, (port t p).rsp = (port s p).rsp ++ [r] ∧
          r.kind = 3 ∧ r.status = codeStatus f.1 ∧ r.seq = pkt.seq)) ∧
    (Accepts s p 2 pkt → pkt.space = 0 → inOrder s (ac s) = true → NothingDue s →
      (∀ g ∈ granulesOf pkt.off pkt.len, refusal s (ctxOf (bits (pkt.w 0) 14 12)) true g = none ∧ NoneOwes s g ∧
        granUncorrectable s g = false ∧ (g < bankBytes s → bankOpen s (bankOf s.grade g) = true)) →
      ∃ t, exec (.readReq p pkt) s = .next t ∧ t.mem = s.mem ∧ t.ctxs = s.ctxs ∧ t.xfer.jobs = [] ∧
        ∃ r, (port t p).rsp = (port s p).rsp ++ [r] ∧ r.kind = 4 ∧ r.status = 0 ∧ r.seq = pkt.seq ∧
          r.data = readBytes s pkt.off pkt.len)

/-- R324, R329, R332, R335: an accepted response takes its request off the list of unanswered ones of the port that sent the
request: an ACK of status 0 counts for its command; a READ_DATA of status 0 sends its bytes to the place the request named.
It concludes that ACK and READ_DATA complete. -/
def Obligations.ResponsesAnswerRequests : Prop :=
  ∀ (s : State) (p : Port) (r : Packet) (o : OutPkt) (j : Job), o.pkt.seq = r.seq → r.status = 0 → s.xfer.jobs = [j] →
    j.id = o.job → j.faulted = false → j.landed = false → 1 < j.acks →
    (Accepts s p 3 r → (port s r.srcPort).outW = [o] → j.kind = .lnkWrite →
      ∃ t, exec (.ack p r) s = .next t ∧ (port t r.srcPort).outW = [] ∧ t.xfer.jobs = [{ j with acks := j.acks - 1 }] ∧
        (port t p).pktsIn = ((port s p).pktsIn + 1) % 2 ^ 32 ∧ t.ctxs = s.ctxs ∧ t.mem = s.mem) ∧
    (Accepts s p 4 r → (port s r.srcPort).outR = [o] → j.kind = .lnkRead → NoHeldPacket s →
      ∃ t, exec (.readData p r) s = .next t ∧ (port t r.srcPort).outR = [] ∧ t.xfer.jobs = [{ j with acks := j.acks - 1 }] ∧
        (∃ l, t.xfer.arrivals = s.xfer.arrivals ++ l ∧ l.map Arr.gran = granulesOf (o.pkt.w 7) r.data.length ∧
          ∀ a ∈ l, a.job = j.id ∧ a.comb = j.comb) ∧
        (port t p).pktsIn = ((port s p).pktsIn + 1) % 2 ^ 32 ∧ t.ctxs = s.ctxs ∧ t.mem = s.mem)

/-- R330, R336, R361, R363: a request unanswered for timeout_us after its last send is given up and its command's context
stops with LINK_TIMEOUT; a SNAP_ACK takes its packet off the list and counts its bytes; a SNAP_DATA outside a fill is refused
with status 6, and the packet a fill waits for is accepted. The choices it rests on: log 4. It concludes that LINK_TIMEOUT,
SNAP_ACK and SNAP_DATA complete. -/
def Obligations.TimeoutsAndSnapshotPackets : Prop :=
  ∀ (s : State) (p : Port) (r : Packet) (o : OutPkt),
    (∀ j : Job, NothingDue s → (port s p).outW = [o] → o.due = false → s.xfer.jobs = [j] → j.id = o.job → j.kind = .lnkWrite →
      j.faulted = false → j.landed = false → (ctx s (ctxOf j.ctx)).cstate = .running → (ctx s (ctxOf j.ctx)).stopping = false →
      ∃ t, exec (.linkTimeout p o.pkt.seq) s = .next t ∧ o.sentAt + linkTimeoutTicks s ≤ t.wall ∧ (port t p).outW = [] ∧
        (port t p).timeouts = ((port s p).timeouts + 1) % 2 ^ 16 ∧ (ctx t (ctxOf j.ctx)).stopping = true ∧
        (ctx t (ctxOf j.ctx)).faultCode = cLINK_TIMEOUT ∧ (∀ a, readByte t a = readByte s a)) ∧
    (Accepts s p 6 r → (port s r.srcPort).outS = [o] → o.pkt.seq = r.seq → r.status = 0 → s.rsl.snap.phase = 3 →
      s.rsl.snap.acked + o.pkt.data.length < s.rsl.snap.total →
      ∃ t, exec (.snapAck p r) s = .next t ∧ (port t r.srcPort).outS = [] ∧ t.ctxs = s.ctxs ∧ t.mem = s.mem ∧
        t.rsl.snap = { s.rsl.snap with acked := s.rsl.snap.acked + o.pkt.data.length }) ∧
    (Accepts s p 5 r → s.rsl.fill.st ≠ 1 →
      ∃ t q, exec (.snapData p r) s = .next t ∧ (port t p).snp = (port s p).snp ++ [q] ∧ q.kind = 6 ∧ q.status = 6 ∧
        t.rsl = s.rsl ∧ t.ctxs = s.ctxs ∧ t.mem = s.mem) ∧
    (Accepts s p 5 r → s.rsl.fill.st = 1 → r.src = s.rsl.fill.srcChip + s.rsl.fill.srcCore * 2 ^ 14 →
      r.off = s.rsl.fill.off → s.rsl.fill.pre.length + r.data.length < 4096 →
      ∃ t q, exec (.snapData p r) s = .next t ∧ (port t p).snp = (port s p).snp ++ [q] ∧ q.kind = 6 ∧ q.status = 0 ∧
        t.rsl.fill = { s.rsl.fill with
          pre := s.rsl.fill.pre ++ r.data, off := s.rsl.fill.off + r.data.length, lastAt := s.wall } ∧
        t.ctxs = s.ctxs ∧ t.mem = s.mem)

/-! ### External memory (chapter 13) -/

/-- R302, R303: a line that drains from the write-combining buffer leaves it, and no byte of external memory reads
differently. A line that is not full drains 256 EC after its last write. The choices it rests on: log 4. It concludes that
WCB_LINE_DRAIN completes. -/
def Obligations.DrainChangesNoByte : Prop :=
  ∀ (s : State) (i : Nat) (l : WcbLine), s.xmu.wcb[i]? = some l → l.bytes.length = 128 → chanActive s.xmu (plChan l.pl) = true →
    (∀ k ∈ s.xmu.wcb, k.pl = l.pl → k = l) → s.xmu.step ≠ 3 → NothingDue s →
    ∃ t, exec (.wcbLineDrain i) s = .next t ∧ wcbLine t.xmu l.pl = none ∧
      (∀ pl o, o < 128 → lineByte t.xmu pl o = lineByte s.xmu pl o) ∧ (∀ a, extByte t.xmu a = extByte s.xmu a) ∧
      t.ctxs = s.ctxs ∧ t.mem = s.mem ∧ (l.full = false → l.last + 256 ≤ t.ec)

/-- R296, R304: a line that comes back without error sends the bytes it was read for to their place in core memory; one that
fails the part's check is asked for again, up to four times. R418: a shared-memory read that comes back goes to core memory
too. The choices it rests on: log 64. It concludes that XMU_READ_RETURN and SM_RESPONSE complete. -/
def Obligations.ReadsReturn : Prop :=
  ∀ (s : State) (j : Job) (d : Nat), s.xfer.jobs = [j] → j.faulted = false → NoHeldPacket s → s.xfer.arrivals = [] →
    s.xfer.late = [] → rowsOfJob j ≤ j.row → j.verify = false → j.chks = [] →
    (∀ rd : Rd, j.kind = .read → j.out = [rd] → rd.dst = some d → rd.narrow = false → rd.waits = false → 0 < rd.n → rd.off + rd.n ≤ 128 →
      (chan s.xmu (plChan rd.pl)).st = .active → s.xmu.step ≠ 3 →
      (retired s.xmu rd.blk = false → ∃ t, exec (.xmuReadReturn j.id 0 (.data [] false false)) s = .next t ∧ t.mem = s.mem ∧
        t.ctxs = s.ctxs ∧ t.xfer.arrivals.map Arr.gran = granulesOf d rd.n ∧ (t.xfer.jobs.map Job.out) = [[]] ∧
        ∀ a ∈ t.xfer.arrivals, a.job = j.id ∧ a.comb = j.comb ∧ ∀ i, i < 64 → a.bs.getD i none =
          if d ≤ a.gran + i ∧ a.gran + i < d + rd.n then some (lineByte s.xmu rd.pl (rd.off + (a.gran + i - d))) else none) ∧
      (rd.tries < 4 → ∃ t, exec (.xmuReadReturn j.id 0 .crcErr) s = .next t ∧ t.mem = s.mem ∧ t.ctxs = s.ctxs ∧
        t.xfer.jobs = [{ j with out := [{ rd with tries := rd.tries + 1 }] }] ∧
        (chan t.xmu (plChan rd.pl)).retries = ((chan s.xmu (plChan rd.pl)).retries + 1) % 2 ^ 16)) ∧
    (∀ (tag : Nat) (data : List W8), j.kind = .smRead → s.cm.hier = true → s.xfer.sm = [(tag, ⟨j.id, some d⟩)] → data.length = 64 →
      ∃ t, exec (.smResponse tag false false data) s = .next t ∧ t.xfer.sm = [] ∧ t.mem = s.mem ∧ t.ctxs = s.ctxs ∧
        t.xfer.arrivals.map Arr.gran = granulesOf d 64)

/-- R307–R310: the first fault of a row of a block in service puts the row on the bank's first free spare and starts its
copy; a fourth fault retires every block of the row instead. A remap request answers which of the two it was. A copy ends
only while its channel serves and the parts are awake (R311, R316); a finished one leaves the list, and what the failed row
gave wrong is wrong in the spare, but for lines drained into both. The choices it rests on: log 69. It concludes that
XMU_ROW_FAULT, XMU_REMAP_REQ and REMAP_COPY_DONE complete. -/
def Obligations.RowFaultsRemapOrRetire : Prop :=
  ∀ (s : State) (ch : Chan) (bank row b : Nat), Released s → bank < 16 → row < 65536 → b ∈ blocksAt s.xmu ch (2 * row + bank / 8) →
    retired s.xmu b = false →
    ((chan s.xmu ch).remaps = [] → (chan s.xmu ch).bad = [] →
      (∀ errs, ∃ t, exec (.xmuRowFault ch bank ⟨row, errs⟩) s = .next t ∧ (chan t.xmu ch).remaps = [(0, ⟨bank, row, 0, 1⟩)] ∧
        t.xmu.copies = s.xmu.copies ++ [⟨ch, bank, row, 0, [], some errs⟩] ∧ t.xmu.dir = s.xmu.dir ∧ t.mem = s.mem ∧ t.ctxs = s.ctxs) ∧
      (∃ t, exec (.xmuRemapReq (BitVec.ofNat 32 (ch.val + bank * 2 ^ 2 + row * 2 ^ 6 + 2 ^ 22))) s = .next t ∧
        t.xmu.rqResult = 0 ∧ (chan t.xmu ch).remaps = [(0, ⟨bank, row, 0, 1⟩)] ∧
        t.xmu.copies = s.xmu.copies ++ [⟨ch, bank, row, 0, [], none⟩])) ∧
    (∀ sp, (chan s.xmu ch).remaps = [(0, ⟨bank, row, sp, 3⟩)] →
      (∀ errs, ∃ t, exec (.xmuRowFault ch bank ⟨row, errs⟩) s = .next t ∧ retired t.xmu b = true ∧ t.xmu.copies = s.xmu.copies ∧
        t.mem = s.mem ∧ t.ctxs = s.ctxs) ∧
      (∃ t, exec (.xmuRemapReq (BitVec.ofNat 32 (ch.val + bank * 2 ^ 2 + row * 2 ^ 6 + 2 ^ 22))) s = .next t ∧
        t.xmu.rqResult = 1 ∧ retired t.xmu b = true)) ∧
    (∀ k ks, s.xmu.copies = k :: ks → chanActive s.xmu k.ch = false ∨ s.xmu.step = 3 → exec .remapCopyDone s = .next s) ∧
    ((∀ k ks, s.xmu.copies = k :: ks → chanActive s.xmu k.ch = true ∧ s.xmu.step ≠ 3) →
      ∃ t, exec .remapCopyDone s = .next t ∧ t.mem = s.mem ∧ t.ctxs = s.ctxs ∧
      t.xmu = { s.xmu with copies := s.xmu.copies.tail, ext := t.xmu.ext } ∧
      (∀ k ks, s.xmu.copies = k :: ks → k.errs = some [] → t.xmu.ext = s.xmu.ext) ∧
      ∀ (k : RemapCopy) (ks : List RemapCopy) (errs : List W8) (i o : Nat), s.xmu.copies = k :: ks → k.errs = some errs →
        errs.length = 2048 → i < 16 → o < 128 →
        partByte t.xmu (rowLine k.ch k.bank k.row i * 128 + o) = if rowLine k.ch k.bank k.row i ∈ k.drained
          then partByte s.xmu (rowLine k.ch k.bank k.row i * 128 + o)
          else partByte s.xmu (rowLine k.ch k.bank k.row i * 128 + o) ^^^ errs.getD (128 * i + o) 0#8)

/-- R304, R311–R313, R417: a channel that serves trains again on request, or when its PHY is not ready, or at the fifth error
of one write; an attempt that passes makes it ACTIVE once its PHY is ready, the third that fails maps it out; a map-out on
request takes it out of service. R289, R314, R435: a write of XMU_DIR_HI sets the exempt bit of the block that XMU_DIR_INDEX
names, moves it to another channel block outside the spare region, and retires it for state 2 or where that channel is mapped
out; a bring-up command goes to its part and leaves its answer in the data register, 8 pins for commands 2 and 3 and one bit
for 6; one outside the eight answers all ones, and without its start bit a write only sets the fields. The
choices it rests on: log 37. It concludes that RETRAIN, CH_PHY_RDY, MAP_OUT, CH_WERR, TRAINING_ATTEMPT_END, XMU_DIR_HI and
XMU_DEV_CMD complete. -/
def Obligations.ChannelsAndDirectoryFollowTheHost : Prop :=
  (∀ (s : State) (ch : Chan), Quiet s → Released s →
     ((chan s.xmu ch).st = .active →
       (∃ t, exec (.retrain ch) s = .next t ∧ chan t.xmu ch = { chan s.xmu ch with st := .training, fails := 0, wTries := [], phyOnly := false } ∧
         t.mem = s.mem) ∧
       (∃ t, exec (.chPhyRdy ch false) s = .next t ∧ (chan t.xmu ch).st = .training ∧ (chan t.xmu ch).phyRdy = false) ∧
       (∃ t, exec (.mapOut ch) s = .next t ∧ (chan t.xmu ch).st = .mappedOut ∧ t.mem = s.mem ∧
         ∀ l ∈ t.xmu.wcb, plChan l.pl ≠ ch.val) ∧
       (∀ line, line < 2 ^ 24 → ∃ t, exec (.chWerr ⟨ch, line⟩) s = .next t ∧ t.mem = s.mem ∧
         (SMap.get 0 (chan s.xmu ch).wTries line < 4 → (chan t.xmu ch).st = .active ∧
           SMap.get 0 (chan t.xmu ch).wTries line = SMap.get 0 (chan s.xmu ch).wTries line + 1 ∧
           (chan t.xmu ch).retries = ((chan s.xmu ch).retries + 1) % 2 ^ 16) ∧
         (4 ≤ SMap.get 0 (chan s.xmu ch).wTries line → (chan t.xmu ch).st = .training))) ∧
     ((chan s.xmu ch).st = .training →
       (∃ t, exec (.trainingAttemptEnd ch true) s = .next t ∧ t.mem = s.mem ∧
         ((chan s.xmu ch).phyRdy = true → (chan t.xmu ch).st = .active) ∧
         ((chan s.xmu ch).phyRdy = false → (chan t.xmu ch).st = .training ∧ (chan t.xmu ch).phyOnly = true)) ∧
       ((chan s.xmu ch).phyOnly = true → ∃ t, exec (.chPhyRdy ch true) s = .next t ∧ (chan t.xmu ch).st = .active ∧ t.mem = s.mem) ∧
       (∃ t, exec (.trainingAttemptEnd ch false) s = .next t ∧ t.mem = s.mem ∧
         ((chan s.xmu ch).fails < 2 → (chan t.xmu ch).st = .training ∧ (chan t.xmu ch).fails = (chan s.xmu ch).fails + 1) ∧
         ((chan s.xmu ch).fails = 2 → (chan t.xmu ch).st = .mappedOut)))) ∧
  (∀ (s : State) (v r : W32), v.toNat < 2 ^ 23 → Released s →
     (retired s.xmu s.xmu.dirIndex = false →
       ∃ t, exec (.xmuDirHi v) s = .next t ∧ t.mem = s.mem ∧ t.ctxs = s.ctxs ∧
         (dirEnt t.xmu s.xmu.dirIndex).exempt = bit v.toNat 2 ∧
         (bits v.toNat 22 6 < spareBlk s.xmu → (dirEnt t.xmu s.xmu.dirIndex).chan = bits v.toNat 5 4 ∧
           (dirEnt t.xmu s.xmu.dirIndex).blk = bits v.toNat 22 6) ∧
         (bits v.toNat 1 0 = 2 → retired t.xmu s.xmu.dirIndex = true) ∧
         (bits v.toNat 22 6 < spareBlk s.xmu → (dirEnt s.xmu s.xmu.dirIndex).chan ≠ bits v.toNat 5 4 →
           mappedOut s.xmu (bits v.toNat 5 4) = true → retired t.xmu s.xmu.dirIndex = true) ∧
         (bits v.toNat 1 0 ≠ 2 → mappedOut s.xmu (bits v.toNat 5 4) = false → retired t.xmu s.xmu.dirIndex = false)) ∧
     (∃ t, exec (.xmuDevCmd v r) s = .next t ∧ t.mem = s.mem ∧ t.xmu.devChan = bits v.toNat 1 0 ∧
       t.xmu.devCmd = bits v.toNat 9 2 ∧ (bit v.toNat 10 = false → t.xmu.devData = s.xmu.devData ∧ t.out = s.out) ∧
       (bit v.toNat 10 = true → (chan s.xmu (bits v.toNat 1 0)).st = .training →
         (8 ≤ bits v.toNat 9 2 ∨ bits v.toNat 9 2 = 6 ∧ s.xmu.partRepair = false → t.xmu.devData = 0xFFFFFFFF ∧ t.out = s.out) ∧
         (bits v.toNat 9 2 < 8 → (bits v.toNat 9 2 = 6 → s.xmu.partRepair = true) →
           t.out = s.out ++ [.dev (bits v.toNat 1 0) (bits v.toNat 9 2) s.xmu.devData] ∧
           t.xmu.devData = if bits v.toNat 9 2 = 0 ∨ bits v.toNat 9 2 = 4 then s.xmu.devData
             else if bits v.toNat 9 2 = 2 ∨ bits v.toNat 9 2 = 3 then r.toNat % 2 ^ 8
             else if bits v.toNat 9 2 = 6 then r.toNat % 2 else r.toNat))))

/-- R261, R315, R316, R422: a reading of the parts, where they offer one, or of the temperature input raises the thermal step
at once to the highest one whose threshold it reaches, and lowers it by one where it lies below the present step's threshold
minus the hysteresis; each change is an event, HOT is entered with its advisories, which repeat every half period, and
CRITICAL is kept in mind; a strobe of the temperature input delivers its reading unless it is masked, and 1 ms without a
strobe masks it. The choices it rests on: log 4. It concludes that XMU_THERMAL_SAMPLE, ADVISORY_PERIOD_EXPIRY, CH_MTEMP and
MTEMP_STUCK complete. -/
def Obligations.ThermalStepsFollowReadings : Prop :=
  ∀ (s : State) (v : Nat),
    (∀ r, memReading r s.xmu = some v → v < s.xmu.crit → Quiet s →
      ∃ t, exec (.xmuThermalSample r) s = .next t ∧ t.xmu.temp = v ∧ t.mem = s.mem ∧ t.ctxs = s.ctxs ∧
        (s.xmu.step < 2 → s.xmu.hot ≤ v → t.xmu.step = 2) ∧
        (s.xmu.step = 0 → v < s.xmu.hot → t.xmu.step = if s.xmu.warm ≤ v then 1 else 0) ∧
        (s.xmu.step = 1 → v < s.xmu.hot → t.xmu.step = if v + s.xmu.hyst < s.xmu.warm then 0 else 1) ∧
        (s.xmu.step = 2 → t.xmu.step = if v + s.xmu.hyst < s.xmu.hot then 1 else 2) ∧
        (s.xmu.step = 3 → t.xmu.step = if v + s.xmu.hyst < s.xmu.crit then 2 else 3) ∧
        (t.xmu.step ≠ s.xmu.step → t.hst.nextOut = (s.hst.nextOut + 1) % 2 ^ 32) ∧
        (t.xmu.step = 2 → s.xmu.step ≠ 2 → t.xmu.advDue = some (s.wall + s.xmu.advisoryUs * usTicks / 2))) ∧
    (∀ r, memReading r s.xmu = some v → s.xmu.crit ≤ v → s.xmu.step < 3 → Quiet s → s.syn.hoists = [] → s.xmu.wcb = [] →
      ∃ t, exec (.xmuThermalSample r) s = .next t ∧ t.xmu.step = 3 ∧ t.xmu.critSeen = true ∧ t.mem = s.mem ∧ t.ctxs = s.ctxs) ∧
    (∀ d, s.xmu.advDue = some d → s.xmu.step = 2 → Released s → NothingDue s →
      ∃ t, exec .advisoryPeriodExpiry s = .next t ∧ d ≤ t.wall ∧ t.mem = s.mem ∧ t.ctxs = s.ctxs ∧
        t.xmu.advDue = some (t.wall + s.xmu.advisoryUs * usTicks / 2)) ∧
    (s.xmu.partTemp = false → ∀ r, memReading r s.xmu = if s.xmu.mtempMasked then some s.xmu.hot else s.xmu.mtemp) ∧
    (s.xmu.partTemp = true → ∀ r, memReading r s.xmu = r) ∧
    (∃ t, exec (.chMtemp v) s = .next t ∧ t.xmu.mtempAt = s.wall ∧ t.mem = s.mem ∧
      (s.xmu.mtempMasked = false → t.xmu.mtemp = some v) ∧ (s.xmu.mtempMasked = true → t.xmu.mtemp = s.xmu.mtemp)) ∧
    (s.xmu.mtempMasked = false → NothingDue s →
      ∃ t, exec .mtempStuck s = .next t ∧ t.xmu.mtempStuck = true ∧ t.xmu.mtempMasked = true ∧
        s.xmu.mtempAt + 1000 * usTicks ≤ t.wall ∧ t.mem = s.mem ∧ t.ctxs = s.ctxs)

/-! ### Host rings and descriptors (chapter 15) -/

/-- R340, R341, R352: a submission doorbell sets the ring's tail, one that leaves the ring empty withdraws the entry at head,
and a ring that is enabled, not halted, holds nothing and is not empty reads its entry at head from host memory; the record
rings' doorbells set their heads. Stop halts a ring with reason 3, resume clears the halt, and reset empties a ring that is
halted or disabled and idle and does nothing to any other. The choices it rests on: log 33, 78. R342, R344, R346, R414: a
descriptor that comes back with the number the ring expects is held; a wrong number halts the ring with reason 1, an error
with reason 2. The oldest waiting record goes to the next slot of its ring while that has room, one EC later. It concludes
that HST_SQ_DB, HST_CQ_DB, HST_EQ_DB, RING_STOP, RING_RESUME, RING_RESET, HOST_READ_COMPLETION and RECORD_WRITE complete. -/
def Obligations.RingsDescriptorsAndRecords : Prop :=
  (∀ (s : State) (c : Ctx) (v : W32), Released s →
     (∃ t, exec (.hstSqDb c v) s = .next t ∧
       ring t c = { ring s c with
         tail := v.toNat % 2 ^ 16, held := if (ring s c).head = v.toNat % 2 ^ 16 then none else (ring s c).held } ∧
       (∀ k, k ≠ c.val → ring t k = ring s k) ∧ t.ctxs = s.ctxs ∧ t.mem = s.mem ∧
       (s.hst.enable = true → (∀ k, k ≠ c.val → (ring s k).en = false) → (ring s c).en = true → (ring s c).halted = false →
         (ring s c).held = none → s.xfer.hreads = [] → (ring s c).head ≠ v.toNat % 2 ^ 16 →
         t.out = s.out ++ [.hostRead 0 ((ring s c).base + 64 * (ring s c).head) 64] ∧ t.xfer.hreads = [(0, .desc c)])) ∧
     (∃ t, exec (.hstCqDb v) s = .next t ∧ t = { s with hst := { s.hst with cq := { s.hst.cq with head := v.toNat % 2 ^ 16 } } }) ∧
     (∃ t, exec (.hstEqDb v) s = .next t ∧ t = { s with hst := { s.hst with eq_ := { s.hst.eq_ with head := v.toNat % 2 ^ 16 } } }) ∧
     (∃ t, exec (.ringStop c) s = .next t ∧ ring t c = { ring s c with held := none, halted := true, reason := 3 } ∧
       (∀ k, k ≠ c.val → ring t k = ring s k) ∧ t.ctxs = s.ctxs ∧ t.mem = s.mem) ∧
     (∃ t, exec (.ringResume c) s = .next t ∧ ring t c = { ring s c with halted := false, reason := 0 } ∧
       (∀ k, k ≠ c.val → ring t k = ring s k) ∧ t.ctxs = s.ctxs ∧ t.mem = s.mem) ∧
     (∃ t, exec (.ringReset c) s = .next t ∧
       (((ring s c).halted = true ∨ (ring s c).en = false) → (ring s c).busy = [] →
         ring t c = { ring s c with held := none, head := 0, tail := 0 } ∧ (∀ k, k ≠ c.val → ring t k = ring s k) ∧
         t.ctxs = s.ctxs ∧ t.mem = s.mem) ∧
       ((ring s c).halted = false → (ring s c).en = true → t = s) ∧ ((ring s c).busy ≠ [] → t = s))) ∧
  (∀ (s : State) (r : Ctx),
     (∀ (tag : Nat) (data : List W8), s.xfer.hreads = [(tag, .desc r)] → s.xfer.jobs = [] → data.length = 64 →
       (∃ t, exec (.hostReadCompletion tag false data) s = .next t ∧ t.ctxs = s.ctxs ∧ t.mem = s.mem ∧
         (ofLE (slice 4 4 data) = (ring s r).expect →
           ring t r = { ring s r with held := some ((List.range 16).map (fun i => ofLE (slice (4 * i) 4 data))) }) ∧
         (ofLE (slice 4 4 data) ≠ (ring s r).expect →
           ring t r = { ring s r with held := none, halted := true, reason := 1 })) ∧
       (∃ t, exec (.hostReadCompletion tag true data) s = .next t ∧ t.ctxs = s.ctxs ∧ t.mem = s.mem ∧
         ring t r = { ring s r with held := none, halted := true, reason := 2 })) ∧
     (∀ (a : HRec) (rest : List HRec), s.hst.enable = true → NothingDue s →
       (s.hst.cqQ = a :: rest → s.hst.late = [] → (∀ b l, s.hst.eqQ = b :: l → recAge s.hst b.number ≤ recAge s.hst a.number) →
         (s.hst.cq.tail + 1) % 2 ^ s.hst.cq.log2 ≠ s.hst.cq.head →
         ∃ t, exec (.recordWrite false) s = .next t ∧ t.ec = s.ec + 1 ∧
           t = { s with
             ec := t.ec, wall := t.wall, stretched := t.stretched
             out := s.out ++ [.hostWrite (s.hst.cq.base + 32 * s.hst.cq.tail) (bytesOfWords a.words)]
             hst := { s.hst with cqQ := rest, cq := { s.hst.cq with tail := (s.hst.cq.tail + 1) % 2 ^ s.hst.cq.log2 } } }) ∧
       (s.hst.eqQ = a :: rest → (∀ b l, s.hst.cqQ = b :: l → recAge s.hst b.number < recAge s.hst a.number) →
         (s.hst.eq_.tail + 1) % 2 ^ s.hst.eq_.log2 ≠ s.hst.eq_.head → s.hst.ovCount = 0 →
         ∃ t, exec (.recordWrite true) s = .next t ∧ t.ec = s.ec + 1 ∧
           t = { s with
             ec := t.ec, wall := t.wall, stretched := t.stretched
             out := s.out ++ [.hostWrite (s.hst.eq_.base + 32 * s.hst.eq_.tail) (bytesOfWords a.words)]
             hst := { s.hst with eqQ := rest, eq_ := { s.hst.eq_ with tail := (s.hst.eq_.tail + 1) % 2 ^ s.hst.eq_.log2 } } })))

/-- R255, R345, R349: of the ring that is served, a SIGNAL descriptor on a local pennant updates it and completes; a WAIT
enters the pennant unit, to be evaluated in its AC; a FENCE completes once every earlier descriptor of its ring has. Each
takes its ring's entry at head, and only a SIGNAL or FENCE that asks for it leaves a completion record. An evaluation
releases a host wait that the count reaches: it takes its value, if it takes, is done on its ring and reports on the event
ring; below its value it stays. The choices it rests on: log 17. It concludes that SIGNAL, WAIT and FENCE complete. -/
def Obligations.SyncDescriptorsRun : Prop :=
  (∀ (s : State) (r : Ctx) (ws : List Nat), startable s r = some ws → descOk ws = true → nextRing s = some r.val →
    let p := bits (wd ws 2) 11 0
    let q : SRing := { ring s r with
      held := none, head := ((ring s r).head + 1) % 2 ^ (ring s r).log2, expect := ((ring s r).expect + 1) % 2 ^ 32 }
    let n := if dCmpl ws then 1 else 0
    (descKind ws = 4 → bit (wd ws 2) 14 = false → Untouched s p →
      ∃ t, exec (.signal r) s = .next t ∧ ring t r = q ∧ t.hst.cqQ.length = s.hst.cqQ.length + n ∧ t.ctxs = s.ctxs ∧
        t.mem = s.mem ∧ (∀ x, x ≠ p → pennant t x = pennant s x) ∧
        (bits (wd ws 2) 13 12 = 0 → pennant t p = Nat.min (pennant s p + wd ws 3) (2 ^ 32 - 1)) ∧
        (bits (wd ws 2) 13 12 = 1 → pennant t p = pennant s p - wd ws 3) ∧
        (bits (wd ws 2) 13 12 = 2 → pennant t p = wd ws 3)) ∧
    (descKind ws = 5 →
      ∃ t, exec (.wait r) s = .next t ∧ (∀ x, pennant t x = pennant s x) ∧ t.ctxs = s.ctxs ∧ t.mem = s.mem ∧
        t.hst.cqQ = s.hst.cqQ ∧ ring t r = { q with busy := q.busy ++ [refOf r ws] } ∧
        t.syn.evals = insertEval (ac s, p) s.syn.evals ∧
        ∃ w : PWait, t.syn.waits = insertWait w s.syn.waits ∧ w.pennant = p ∧ w.value = wd ws 3 ∧ w.take = bit (wd ws 2) 12 ∧
          w.at_ = s.ec ∧ w.who = .host r (wd ws 1) (bits (wd ws 0) 31 16) (bit (wd ws 2) 15)) ∧
    (descKind ws = 7 →
      ∃ t, exec (.fence r) s = .next t ∧ ring t r = q ∧ t.hst.cqQ.length = s.hst.cqQ.length + n ∧ t.ctxs = s.ctxs ∧
        t.mem = s.mem ∧ t.syn = s.syn)) ∧
  (∀ (s : State) (k : Nat) (w : PWait) (r seq tag : Nat) (hold : Bool), s.syn.waits = [w] → w.who = .host r seq tag hold →
     s.mxe.gate = none → s.syn.updAc ≠ k → w.standsAt k = true →
     let t := evalAt w.pennant k s
     t.ctxs = s.ctxs ∧ t.mem = s.mem ∧ (∀ x, x ≠ w.pennant → pennant t x = pennant s x) ∧
     (pennant s w.pennant < w.value → t.syn.waits = [w] ∧ t.hst = s.hst ∧ pennant t w.pennant = pennant s w.pennant) ∧
     (w.value ≤ pennant s w.pennant → t.syn.waits = [] ∧
       pennant t w.pennant = (if w.take then pennant s w.pennant - w.value else pennant s w.pennant) ∧
       (ring t r).busy = (ring s r).busy.erase ⟨5, r, seq, tag, false⟩ ∧
       (s.hst.eqQ.length < 64 → t.hst.eqQ.length = s.hst.eqQ.length + 1)))

/-- R200, R202–R204: on the ring that is served, LAUNCH of an image in host memory that passes every check makes its context
RUNNING at its start with the scalar state of R203, the parameter registers kept; an image larger than the context's regions,
or than the stores from them on, starts nothing and completes. REPLAY runs the image that the context has, after its patches
of parameter registers. The choices it rests on: log 75, 93. R348, R355, R356: a COPY from host memory whose extents are good
starts, stays incomplete on its ring and asks for its first line; a SNAPSHOT begins its quiesce phase for the partitions of
its mask and asks the RUNNING contexts alone. The choices it rests on: log 77, 79. It concludes that LAUNCH, REPLAY, COPY and
SNAPSHOT complete. -/
def Obligations.ProgramsCopiesAndSnapshotsStart : Prop :=
  (∀ (s : State) (r : Ctx) (ws : List Nat) (data : List W8), startable s r = some ws → descOk ws = true →
     nextRing s = some r.val →
     let h := hdrOf data
     (descKind ws = 1 → bit (wd ws 4) 0 = false → data.length = imgLen h →
       let code := Nat.min (ctx s r).codeSize (32768 - (ctx s r).codeBase)
       let affs := Nat.min (ctx s r).affSize (affRoom (ctx s r).affBase)
       (h.nSlots ≤ code → h.nAff ≤ affs →
         crc32c (data.take 252 ++ [0#8, 0#8, 0#8, 0#8] ++ data.drop 256) = imgWord data 63 → imgRefusal s h = none →
         h.saveBlk ≤ partSize s r →
         ∃ t, exec (.launch r data) s = .next t ∧ (ctx t r).cstate = .running ∧ (ctx t r).point = .start ∧
           (ctx t r).pos = h.entry ∧ (ctx t r).pred = 1#16 ∧ (∀ a, getAreg (ctx t r) a = 0) ∧ (ctx t r).loops = [] ∧
           (ctx t r).cmps = [] ∧ (ctx t r).summary = 0#16 ∧ (ctx t r).imageValid = true ∧ (ctx t r).img = h ∧
           (ctx t r).par = (ctx s r).par ∧ (ctx t r).launch = some (refOf r ws) ∧
           (∀ c : Ctx, c ≠ r → ctx t c = ctx s c) ∧ (∀ a, readByte t a = readByte s a)) ∧
       (code < h.nSlots ∨ affs < h.nAff →
         ∃ t, exec (.launch r data) s = .next t ∧ (ctx t r).cstate = (ctx s r).cstate ∧ (ctx t r).imageValid = false ∧
           t.hst.cqQ.length = s.hst.cqQ.length + 1 ∧ (∀ c : Ctx, c ≠ r → ctx t c = ctx s c) ∧
           (∀ a, readByte t a = readByte s a))) ∧
     (∀ ps, descKind ws = 2 → data.length = 16 * wd ws 4 → patches (wd ws 4) data = some ps → (ctx s r).imageValid = true →
       imgRefusal s (ctx s r).img = none →
       ∃ t, exec (.replay r data) s = .next t ∧ (ctx t r).cstate = .running ∧ (ctx t r).point = .start ∧
         (ctx t r).pos = (ctx s r).img.entry ∧ (ctx t r).pred = 1#16 ∧ (∀ a, getAreg (ctx t r) a = 0) ∧ (ctx t r).loops = [] ∧
         (ctx t r).launch = some (refOf r ws) ∧ (∀ c : Ctx, c ≠ r → ctx t c = ctx s c) ∧ (∀ a, readByte t a = readByte s a) ∧
         (ps = [] → (ctx t r).par = (ctx s r).par) ∧
         (∀ a v, ps = [(a, v)] → getPar (ctx t r) a = BitVec.ofNat 64 v ∧ ∀ b, b ≠ a → getPar (ctx t r) b = getPar (ctx s r) b))) ∧
  (∀ (s : State) (r : Ctx) (ws : List Nat), startable s r = some ws → descOk ws = true → nextRing s = some r.val →
     (descKind ws = 3 → bits (wd ws 7) 1 0 = 0 → copyFault s r ws = none → s.xfer.jobs = [] → s.xfer.hreads = [] →
       s.xfer.arrivals = [] →
       ∃ t j, exec (.copy r) s = .next t ∧ t.xfer.jobs = [j] ∧ j.kind = .copy ∧ j.words = ws ∧ j.ctx = r.val ∧ j.faulted = false ∧
         OutEv.hostRead 0 (addr64 ws 2) 64 ∈ t.out ∧ (ring t r).busy = (ring s r).busy ++ [refOf r ws] ∧ t.ctxs = s.ctxs ∧
         t.mem = s.mem) ∧
     (descKind ws = 6 → NothingDue s →
       ∃ t, exec (.snapshot r) s = .next t ∧ t.rsl.snap.phase = 1 ∧ t.rsl.snap.mask = bits (wd ws 2) 7 0 ∧
         t.rsl.snap.full = bit (wd ws 2) 8 ∧ t.rsl.snap.host = some (refOf r ws) ∧ t.mem = s.mem ∧
         (∀ c : Ctx, (ctx s c).cstate ≠ .running → ctx t c = ctx s c) ∧
         (∀ c : Ctx, (ctx s c).cstate = .running → (ctx s c).stopping = false → (ctx s c).point = .inSection →
           ctx t c = { ctx s c with quiesceReq := true })))

/-! ### Core memory under host software (chapter 08) and the pinions (chapter 07) -/

/-- R92, R173, R185, R186, R194: a write of a stash's configuration empties it; a commit makes the staged maps active in the
next turn, or is refused with its reason; a power request of a bank that is ON begins its drain, whose end or timeout
isolates the port 8 service cycles later; the transition ends in RETAIN with every byte kept or in DARK with every byte of
that bank zero, and a waking bank ends ON. The choices it rests on: log 80. It concludes that STASH_CFG_WRITE,
CMEM_MAP_COMMIT, CMEM_PWR_REQ, BANK_DRAIN_END, BANK_DRAIN_TIMEOUT and BANK_TRANSITION_DONE complete. -/
def Obligations.CoreMemoryFollowsTheHost : Prop :=
  ∀ (s : State) (b : Nat), Released s → NothingDue s →
    (∀ (c : Ctx) (v : W32), ∃ t, exec (.stashCfgWrite c v) s = .next t ∧ t.ctxs = s.ctxs ∧ t.mem = s.mem ∧
      (stashOf t c).base = bits v.toNat 11 0 ∧ (stashOf t c).size = Nat.min (bits v.toNat 22 12) 1536 ∧
      (stashOf t c).slots = [] ∧ (∀ l, layerOf (stashOf t c) l = .absent) ∧ (∀ k, k ≠ c.val → stashOf t k = stashOf s k)) ∧
    (∃ t, exec .cmemMapCommit s = .next t ∧ t.ctxs = s.ctxs ∧ t.mem = s.mem ∧
      (commitReason s ≠ 0 → t = { s with cm := { s.cm with mapRefused := true, mapReason := commitReason s } }) ∧
      (commitReason s = 0 → t.cm = { s.cm with active := s.cm.staged } ∧ t.ec = (s.ec / 16 + 1) * 16)) ∧
    (∀ req, ∃ t, exec (.cmemPwrReq b req) s = .next t ∧ t.ctxs = s.ctxs ∧ t.mem = s.mem ∧
      (∀ k, k ≠ b → bank t k = bank s k) ∧ (s.grade.banks ≤ b ∨ 2 < req → t = s) ∧
      (b < s.grade.banks → (bank s b).pw = .on → req = 1 ∨ req = 2 →
        bank t b = { bank s b with
          pw := .draining, req := req, goal := req, isolated := false, stageEc := s.ec, stageWall := s.wall })) ∧
    ((bank s b).pw = .draining → (bank s b).isolated = false →
      (outstanding s b = 0 → ∃ t, exec (.bankDrainEnd b) s = .next t ∧ (bank t b).isolated = true ∧ (bank t b).pw = .draining ∧
        t.ec = s.ec + 128 ∧ t.ctxs = s.ctxs ∧ t.mem = s.mem) ∧
      (∃ t, exec (.bankDrainTimeout b) s = .next t ∧ (bank t b).isolated = true ∧ (bank t b).pw = .draining ∧
        (bank s b).stageWall + Nat.max 1 s.cm.pwrTimeout * usTicks ≤ t.wall ∧ t.ctxs = s.ctxs ∧ t.mem = s.mem)) ∧
    ((bank s b).pw = .draining → (bank s b).isolated = true → (bank s b).req = (bank s b).goal →
      ((bank s b).goal = 1 → ∃ t, exec (.bankTransitionDone b) s = .next t ∧ (bank t b).pw = .retain ∧ t.mem = s.mem ∧
        t.ctxs = s.ctxs) ∧
      ((bank s b).goal = 2 → ∃ t, exec (.bankTransitionDone b) s = .next t ∧ (bank t b).pw = .dark ∧ t.ctxs = s.ctxs ∧
        (∀ a, readByte t a = if a < bankBytes s ∧ bankOf s.grade a = b then emptyByte else readByte s a))) ∧
    ((bank s b).pw = .waking → (bank s b).req = 0 →
      ∃ t, exec (.bankTransitionDone b) s = .next t ∧ (bank t b).pw = .on ∧ t.ctxs = s.ctxs ∧
        ((bank s b).goal = 1 → t.mem = s.mem))

/-- R191–R193: a repair of a row not yet on a spare begins while its bank has one, is reported no_spare otherwise, and
during a copy only stores its bank and row; the row switches at a turn boundary with its data as they were; a scrub tick
reads the next granule number and changes no data; a write-back stores the granule again with good check bits while its
bank gives access. The choices it rests on: log 34, 81. R52, R153, R155, R165, R444: a write of a fence word sets the
requests of the grade's pinions; a pinion's fence takes effect when its running command has ended; a self-test runs on a
fenced pinion, is refused on any other, and Lean ignores the block; its end reports the result. A write of the seed
restarts the stochastic-rounding generators in the AC after it, while no command runs or waits. It concludes that
CMEM_REPAIR, REPAIR_SWITCH, SCRUB_TICK, SCRUB_WRITEBACK, PIN_FENCE, PIN_FENCE_APPLY, PIN_SELFTEST, SELFTEST_DONE and
SCT_SR_SEED complete. -/
def Obligations.RepairScrubAndPinions : Prop :=
  (∀ (s : State), Released s → NothingDue s →
     (∀ b row, b < 128 → row < 512 → ∃ t, exec (.cmemRepair b row) s = .next t ∧ t.mem = s.mem ∧ t.ctxs = s.ctxs ∧
       (s.cm.repBusy = true → t = { s with cm := { s.cm with repBank := b, repRow := row } }) ∧
       (s.cm.repBusy = false → b < s.grade.banks → (bank s b).spares < 8 → (b, row) ∉ s.cm.repaired →
         t.cm = { s.cm with
           repBank := b, repRow := row, repCopy := (b, row), repBusy := true, repOk := false, repNoSpare := false }) ∧
       (s.cm.repBusy = false → s.grade.banks ≤ b ∨ 8 ≤ (bank s b).spares →
         t.cm = { s.cm with repBank := b, repRow := row, repNoSpare := true })) ∧
     (s.cm.repBusy = true →
       ∃ t, exec .repairSwitch s = .next t ∧ t.mem = s.mem ∧ t.ecc = s.ecc ∧ t.ctxs = s.ctxs ∧ t.ec = (s.ec / 16 + 1) * 16 ∧
         t.cm = { s.cm with repBusy := false, repOk := true, repaired := s.cm.repaired ++ [s.cm.repCopy] } ∧
         (bank t s.cm.repCopy.1).spares = (bank s s.cm.repCopy.1).spares + 1) ∧
     (∀ ups, ∃ t, exec (.scrubTick ups) s = .next t ∧ t.mem = s.mem ∧ t.ctxs = s.ctxs ∧
       (s.cm.scrubEn = true → (s.cm.scrubInterval ≠ 0 → t.ec = Nat.max s.ec (s.scrubAt + s.cm.scrubInterval * 16)) ∧
         t.cm.scrubGran = (s.cm.scrubGran + 1) % 8192 ∧
         t.cm.scrubPasses = if s.cm.scrubGran = 8191 then (s.cm.scrubPasses + 1) % 2 ^ 19 else s.cm.scrubPasses) ∧
       (s.cm.scrubEn = false → ups = [] → t = s)) ∧
     (∀ b g rest, s.cm.scrubWb = (b, g) :: rest →
       ∃ t, exec .scrubWriteback s = .next t ∧ t.mem = s.mem ∧ t.ctxs = s.ctxs ∧ t.cm = { s.cm with scrubWb := rest } ∧
         (bankOpen s b = true → ∀ k, k < 8 → eccMark t (granAddr s.grade b g / 8 + k) = 0) ∧
         (bankOpen s b = false → t.ecc = s.ecc))) ∧
  (∀ (s : State) (p : Nat), p < 128 → Released s → NothingDue s →
     (∀ (v : W32), ∃ t, exec (.pinFence (p / 32) v) s = .next t ∧ t.mem = s.mem ∧ t.ctxs = s.ctxs ∧ t.pin.fenced = s.pin.fenced ∧
       SMap.get false t.pin.fenceReq p =
         (if p < s.grade.pinions then bit v.toNat (p % 32) else SMap.get false s.pin.fenceReq p) ∧
       (∀ k, k / 32 ≠ p / 32 → SMap.get false t.pin.fenceReq k = SMap.get false s.pin.fenceReq k)) ∧
     (∃ t, exec (.pinFenceApply p) s = .next t ∧ t.mem = s.mem ∧ t.ctxs = s.ctxs ∧ 2 * SMap.get 0 s.pin.free p ≤ t.ec ∧
       SMap.get false t.pin.fenced p = SMap.get false s.pin.fenceReq p ∧
       (∀ k, k ≠ p → SMap.get false t.pin.fenced k = SMap.get false s.pin.fenced k)) ∧
     (∃ t, exec (.pinSelftest p) s = .next t ∧ t.mem = s.mem ∧ t.ctxs = s.ctxs ∧ (s.grade = .lean → t = s) ∧
       (s.grade ≠ .lean → SMap.get false s.pin.fenced p = true →
         t.pin = { s.pin with testPinion := p, testBusy := true }) ∧
       (s.grade ≠ .lean → SMap.get false s.pin.fenced p = false →
         t.pin = { s.pin with testPinion := p, testBad := true })) ∧
     (∀ ok, s.pin.testBusy = true → ∃ t, exec (.selftestDone ok) s = .next t ∧
       t = { s with pin := { s.pin with testBusy := false, testPass := ok } }) ∧
     (s.runs = [] → (∀ q, queue s q = []) → ∀ v : W32, ∃ t, exec (.sctSrSeed v) s = .next t ∧ t.ec = 2 * ((s.ec + 1) / 2) + 3 ∧
       t = { s with ec := t.ec, wall := t.wall, stretched := t.stretched, seed := .written v, gens := [] }))

/-! ### Health, snapshot, fill and isolation (chapter 16) -/

/-- R353, R354, R356–R358: a health sample at the next whole millisecond leaks R by its decay shift, adds the weighted moves
of the four counts since the last sample, a persistent droop counting 64, and the thermal term of a margin below its
reference, each product saturating, and R at most 65,535; one at the threshold raises the advisory or holds it; a held one is
raised when its floor has passed, and the maximum interval raises it too. A quiesced snapshot withholds the REQ credits of
both ports, and freezes when nothing of the stop's first step is left to wait for; one whose contexts come to rest too late
ends with SNAP_QUIESCE_TIMEOUT. The choices it rests on: log 82. It concludes that HEALTH_SAMPLE, SNAPSHOT_FLOOR_EXPIRY,
SNAPSHOT_INTERVAL_EXPIRY, SNAPSHOT_QUIESCE_END and SNAP_QUIESCE_TIMEOUT complete. -/
def Obligations.HealthAndSnapshotAdvance : Prop :=
  ∀ s : State, NothingDue s →
    (∀ dCmem dXmu dLnk dDroop : Nat, Released s → let h := s.rsl.health
      0 < h.decay → h.cmem < 2 ^ 16 → h.xmu < 2 ^ 16 → h.lnk < 2 ^ 16 → h.droop < 2 ^ 16 →
      dCmem < 2 ^ 16 → dXmu < 2 ^ 16 → dLnk < 2 ^ 16 → dDroop < 2 ^ 16 →
      (s.banks.map (fun p => p.2.ce)).sum % 2 ^ 16 = (h.cmem + dCmem) % 2 ^ 16 →
      (s.xmu.chans.map (fun p => p.2.retries + p.2.ce)).sum % 2 ^ 16 = (h.xmu + dXmu) % 2 ^ 16 →
      (s.lnk.ports.map (fun p => p.2.resends + p.2.crcBad)).sum % 2 ^ 16 = (h.lnk + dLnk) % 2 ^ 16 →
      s.pwr.episodes % 2 ^ 16 = (h.droop + dDroop) % 2 ^ 16 →
      let prod (a b : Nat) : Nat := Nat.min (a * b) 65535
      let m : Int := min ((s.xmu.crit : Int) - s.xmu.temp) ((s.pwr.trip - s.pwr.dieTemp : Nat) : Int)
      let r := Nat.min 65535 (h.risk - h.risk / 2 ^ h.decay + prod h.wCmem dCmem + prod h.wXmu dXmu + prod h.wLnk dLnk
        + prod h.wDroop (dDroop + if s.pwr.persist then 64 else 0)
        + if m < h.marginRef then prod h.wTherm ((h.marginRef : Int) - m).toNat else 0)
      ∃ t, exec .healthSample s = .next t ∧ t.rsl.health.risk = r ∧
        (s.wall / msTicks + 1) * msTicks ≤ t.wall ∧ t.ctxs = s.ctxs ∧ t.mem = s.mem ∧
        (h.thresh ≤ r → t.rsl.health.advised = true ∨ t.rsl.health.pending = true ∨ t.rsl.health.stopHeld ≠ none) ∧
        (r < h.thresh → t.rsl.health.advised = h.advised ∧ t.hst = s.hst)) ∧
    (s.rsl.health.advised = false → s.rsl.snap.phase < 2 → Released s →
      (s.rsl.health.pending = true → s.rsl.health.thresh ≤ s.rsl.health.risk →
        ∃ t, exec .snapshotFloorExpiry s = .next t ∧ t.rsl.health.advised = true ∧ t.rsl.health.pending = false ∧
          s.rsl.health.lastAt + s.rsl.health.minS * secTicks ≤ t.wall ∧ t.ctxs = s.ctxs ∧ t.mem = s.mem) ∧
      (s.rsl.health.maxS ≠ 0 → s.rsl.health.minS ≤ s.rsl.health.maxS →
        ∃ t, exec .snapshotIntervalExpiry s = .next t ∧ t.rsl.health.advised = true ∧
          s.rsl.health.lastAt + s.rsl.health.maxS * secTicks ≤ t.wall ∧ t.ctxs = s.ctxs ∧ t.mem = s.mem)) ∧
    (s.rsl.snap.phase = 1 → (∀ c : Ctx, atRest s c = true) → (∀ j ∈ s.xfer.jobs, j.kind ≠ .copy) →
      (∀ r ∈ s.hst.rings, ∀ b ∈ r.2.busy, b.kind ≠ 3) →
      extFault s.xmu (s.rsl.snap.freezeBlk * 16384) 7340032 = none →
      ∃ t, exec .snapshotQuiesceEnd s = .next t ∧ (t.rsl.snap.phase = 2 ∨ t.rsl.snap.phase = 3) ∧
        t.rsl.snap.stopAt = s.wall ∧ (port t 0).frozen = true ∧ (port t 1).frozen = true ∧ t.ctxs = s.ctxs ∧ t.mem = s.mem) ∧
    (s.rsl.snap.phase = 2 → freezeReady s = true →
      ∃ t, exec .snapshotQuiesceEnd s = .next t ∧ t.rsl.snap.phase = 3 ∧ t.rsl.snap.sent = 0 ∧ t.rsl.snap.acked = 0 ∧
        t.ctxs = s.ctxs ∧ t.mem = s.mem) ∧
    (s.rsl.snap.phase = 1 →
      ∃ t, exec .snapQuiesceTimeout s = .next t ∧ t.rsl.snap.phase = 0 ∧ t.rsl.snap.host = none ∧
        t.rsl.snap.lastStatus = cSNAP_QUIESCE ∧ s.rsl.snap.due ≤ t.wall ∧ (∀ a, readByte t a = readByte s a))

/-- R363–R365: a fill starts while no context runs, no snapshot is in progress and every bank is ON, and is refused as BUSY
otherwise; an abort ends it with reason HOST, a silent stream with reason STREAM; finish without a stream ends it with reason
CHAIN; with one it waits until external memory has taken the bytes of the fill, and then leaves every context of the mask
QUIESCED and paused and every other STOPPED. The choices it rests on: log 83. It concludes that FILL_START, FILL_ABORT,
FILL_TIMEOUT and FILL_FINISH complete. -/
def Obligations.FillStartsAndEnds : Prop :=
  ∀ s : State, Released s →
    (∃ t, exec .fillStart s = .next t ∧ t.ctxs = s.ctxs ∧ t.mem = s.mem ∧
      (s.rsl.fill.st ≠ 1 → fillAllowed s = true → t.rsl.fill = { s.rsl.fill with
        st := 1, reason := 0, off := 0, lastAt := s.wall, pre := [], last := [], streams := 0, seq := 0, finishing := false }) ∧
      (s.rsl.fill.st = 1 ∨ fillAllowed s = false → t = { s with rsl := { s.rsl with fill := { s.rsl.fill with reason := 7 } } })) ∧
    (∃ t, exec .fillAbort s = .next t ∧ (s.rsl.fill.st ≠ 1 → t = s) ∧
      (s.rsl.fill.st = 1 → t.rsl.fill.st = 3 ∧ t.rsl.fill.reason = 6)) ∧
    (s.rsl.fill.st = 1 → s.rsl.fill.finishing = false →
      ∃ t, exec .fillTimeout s = .next t ∧ t.rsl.fill.st = 3 ∧ t.rsl.fill.reason = 5 ∧
        s.rsl.fill.lastAt + Nat.max 1 s.rsl.fill.timeoutMs * msTicks ≤ t.wall) ∧
    (s.rsl.fill.st = 1 → s.rsl.fill.streams = 0 → s.rsl.fill.late = [] →
      ∃ t, exec .fillFinish s = .next t ∧ t.rsl.fill.st = 3 ∧ t.rsl.fill.reason = 3) ∧
    (∀ x rest, s.rsl.fill.st = 1 → s.rsl.fill.streams ≠ 0 → s.rsl.fill.late = x :: rest →
      roomForLines s.xmu [(x.1, x.2.1.length)] = false →
      exec .fillFinish s = .next { s with rsl := { s.rsl with fill := { s.rsl.fill with finishing := true } } }) ∧
    (∀ d, s.rsl.fill.st = 1 → s.rsl.fill.streams ≠ 0 → s.rsl.fill.late = [] → filledDir (drainAll s) s.rsl.fill.last = some d →
      ∃ t, exec .fillFinish s = .next t ∧ t.rsl.fill.st = 2 ∧ t.rsl.fill.reason = 0 ∧ t.xmu.dir = d ∧
        t.rsl.snap.seq = hdrWord s.rsl.fill.last 3 ∧
        ∀ c : Ctx, if bit (bits (hdrWord s.rsl.fill.last 1) 23 16) c then
            (ctx t c).cstate = .quiesced ∧ (ctx t c).paused = true
          else (ctx t c).cstate = .stopped ∧ (ctx t c).faultCode = 0)

/-- R368, R371, R423: the host's bit, once the core is released, and the isolation input isolate the core: every RUNNING
context begins to stop with HOST_STOP and a stopped one keeps its fault. R373, R399, R405: a loss of the PLL lock and an
internal parity error isolate it too, and every RUNNING context stops with their code. R412, R415: from then on the core
offers neither port, and both are DOWN. It concludes that ISOLATE, SV_ISOLATE, PLL_UNLOCK and INTERNAL_PARITY complete. -/
def Obligations.IsolationStopsEveryContext : Prop :=
  ∀ s : State,
    let silent (t : State) : Prop := t.isolated = true ∧ ∀ p : Port, flEn t p = false ∧ (port t p).up = false
    (Released s → ∃ t, exec .isolate s = .next t ∧ silent t ∧ t.isolateHost = true ∧ t.mem = s.mem ∧ ∀ c : Ctx,
      ((ctx s c).cstate = .stopped → ctx t c = ctx s c) ∧
      ((ctx s c).cstate = .running → (ctx s c).stopping = false →
        (ctx t c).stopping = true ∧ (ctx t c).faultCode = cHOST_STOP)) ∧
    (∃ t, exec .svIsolate s = .next t ∧ silent t ∧ t.isolateSeen = true ∧ t.mem = s.mem ∧ ∀ c : Ctx,
      ((ctx s c).cstate = .stopped → ctx t c = ctx s c) ∧
      ((ctx s c).cstate = .running → (ctx s c).stopping = false →
        (ctx t c).stopping = true ∧ (ctx t c).faultCode = cHOST_STOP)) ∧
    (∃ t, exec .pllUnlock s = .next t ∧ silent t ∧ ckLock t = false ∧ pmTrip t = true ∧ t.mem = s.mem ∧
      ∀ c : Ctx, (ctx s c).cstate = .running → (ctx s c).stopping = false →
        (ctx t c).stopping = true ∧ (ctx t c).faultCode = cPLL) ∧
    (∀ unit, ∃ t, exec (.internalParity unit) s = .next t ∧ silent t ∧ t.mem = s.mem ∧
      ∀ c : Ctx, (ctx s c).cstate = .running → (ctx s c).stopping = false →
        (ctx t c).stopping = true ∧ (ctx t c).faultCode = cPARITY)

/-! ### Settings and reset (chapter 21) -/

/-- R424–R426, R428, R433: a core reset leaves every context STOPPED without a fault, no context dispatched and the host block
disabled; the settings store, the commands that wait and the Bezel's own state stay. Its phases then run one by one; a blank
settings store gives the defaults, the board record is read in two transactions from target 0x50, and without one core memory
is zero, pennants, trackers and queues are as at reset, no part is populated, and the record is reported bad; EC 0 begins at
release. Phase 7 lasts while a channel trains (R312). The choices it rests on: log 11, 85. It concludes that CORE_RESET
completes. -/
def Obligations.CoreResetLeavesResetState : Prop :=
  (∀ s : State, s.pending = [] → s.nvs.phase < 8 →
    step s = .next (bootStep s) ∧ (s.nvs.phase = 7 → (∃ c < 4, (chan s.xmu c).st = .training) → bootStep s = s)) ∧
  ∀ (s : State) (r : ResetInput),
    let atRest (t : State) : Prop := t.ec = 0 ∧ t.hst.enable = false ∧ t.dispatched = none ∧
      ∀ c : Ctx, (ctx t c).cstate = .stopped ∧ (ctx t c).faultCode = 0 ∧ (ctx t c).stopping = false
    ∃ t, exec (.coreReset r) s = .next t ∧ atRest t ∧ t.nvs = { copy0 := s.nvs.copy0, copy1 := s.nvs.copy1, phase := 2 } ∧
      t.boot = some r ∧ t.resets = s.resets + 1 ∧ t.pending = s.pending ∧ t.grade = s.grade ∧
      t.bezel = { s.bezel with mirror := {} } ∧
      (r.hostReq = false → s.wall ≤ t.wall ∧ t.wall ≤ s.wall + 60 * usTicks + 3072 ∧ t.out = s.out) ∧
      (s.nvs.copy0 = [] → s.nvs.copy1 = [] → r.board = none → r.bistRows = [] → r.bistFails = 0 → r.hostReq = false →
        let u := Nat.iterate bootStep 6 t
        u.nvs.phase = 8 ∧ atRest u ∧ (∀ a, readByte u a = 0#8) ∧ u.isolated = false ∧ u.grade = s.grade ∧
        u.pending = s.pending ∧ u.syn = {} ∧ u.sct = [] ∧ u.queues = [] ∧ u.runs = [] ∧ u.xmu.populated = false ∧
        u.nvs.boardBad = true ∧ u.bezel = { s.bezel with mirror := {} } ∧ u.pos = 0 ∧
        u.out = s.out ++ [.boardRead 0x50 0 256, .boardRead 0x50 256 256])

/-- R430–R432, R436, R437: a STORE writes the copy that is not current and leaves the current one, its crc word last, so that
the copy becomes current only when it completes; a request during it makes another follow. Reload brings back the current
copy's settings or the defaults. Firmware loads while every context is at rest: the core reads the image at its host address,
a good one is held and takes effect, and every program image loaded before is invalid. The choices it rests on: log 85, 87.
It concludes that NVS_STORE, STORE_COMPLETE, NVS_RELOAD, FIRMWARE_LOAD and FIRMWARE_LOAD_DONE complete. -/
def Obligations.SettingsAreStoredAndReloaded : Prop :=
  ∀ s : State,
    (∃ t, exec .nvsStore s = .next t ∧ t.mem = s.mem ∧ t.ctxs = s.ctxs ∧
      (s.nvs.store = none → 8 ≤ s.nvs.phase → storeCount s.nvs < 100000 →
        t.nvs.store ≠ none ∧ copyWord t.nvs (1 - s.nvs.current) 127 = 0xFFFFFFFF ∧ t.nvs.current = s.nvs.current ∧
        (∀ w, copyWord t.nvs s.nvs.current w = copyWord s.nvs s.nvs.current w)) ∧
      (s.nvs.store ≠ none → t = { s with nvs := { s.nvs with storePending := true } })) ∧
    (∀ x : StoreRun, s.nvs.store = some x → s.nvs.storePending = false →
      (∃ t, exec (.storeComplete true) s = .next t ∧ t.nvs.store = none ∧ t.nvs.lastOk = true ∧
        t.nvs.current = 1 - s.nvs.current ∧ copyWord t.nvs t.nvs.current 127 = x.crc ∧ t.mem = s.mem ∧ t.ctxs = s.ctxs) ∧
      (∃ t, exec (.storeComplete false) s = .next t ∧ t.nvs = { s.nvs with store := none, lastOk := false } ∧ t.mem = s.mem ∧
        t.ctxs = s.ctxs)) ∧
    (Released s → ∃ t, exec .nvsReload s = .next t ∧ t.mem = s.mem ∧ t.ctxs = s.ctxs ∧ (s.nvs.store ≠ none → t = s) ∧
      (s.nvs.store = none → copyValid s.nvs s.nvs.current = true →
        ∀ w, w < 4096 → stagingWord t.nvs w = copyWord s.nvs s.nvs.current w) ∧
      (s.nvs.store = none → copyValid s.nvs s.nvs.current = false →
        ∀ w, stagingWord t.nvs w = if w = 0 then 1 else if w = 2 then 0x142 else 0)) ∧
    (Released s → ∃ t, exec .firmwareLoad s = .next t ∧ (s.nvs.fwBusy = true → t = s) ∧
      (s.nvs.fwBusy = false → firmwareAllowed s = true →
        t = { s with nvs := { s.nvs with fwBusy := true }, out := s.out ++ [.fwRead (s.nvs.fwLo + s.nvs.fwHi * 2 ^ 32)] }) ∧
      (s.nvs.fwBusy = false → firmwareAllowed s = false → t = { s with nvs := { s.nvs with fwResult := 3 } })) ∧
    (s.nvs.fwBusy = true → ∀ img : List W8,
      (img.length < 64 → ∃ t, exec (.firmwareLoadDone img) s = .next t ∧
        t = { s with nvs := { s.nvs with fwBusy := false, fwResult := 1 } }) ∧
      (64 ≤ img.length → img.length ≤ 262144 → ofLE (slice 4 4 img) = img.length →
        crc32c (img.take 60 ++ [0#8, 0#8, 0#8, 0#8] ++ img.drop 64) = ofLE (slice 60 4 img) →
        romVersion ≤ ofLE (slice 0 4 img) % 2 ^ 16 →
        ∃ t, exec (.firmwareLoadDone img) s = .next t ∧
          t.nvs = { s.nvs with fwBusy := false, fwResult := 0, fwStore := some img } ∧
          t.mem = s.mem ∧ ∀ c : Ctx, ctx t c = { ctx s c with imageValid := false }))

/-! ### Clocks, power and outside inputs (chapters 17, 19, 20) -/

/-- R374–R377: an accepted droop raises the effective factor at once to the largest that a source requests; its release waits
for 64 root cycles and lowers nothing by itself; held or released for 1 ms it becomes persistent or recovers; the factor
falls by one step after 240 root cycles, no lower than the largest request. The choices it rests on: log 88. R378–R380: a die
reading at the throttle raises the thermal request at once, one below it by more than the hysteresis clears it, and one at
the trip is fatal: the trip output is on, the engine clocks are gated, and the core isolates. The power average goes above
its limit one factor code at a time. An idle unit whose gating is enabled is gated. The choices it rests on: log 88, 89. It
concludes that PM_DROOP, DROOP_RELEASE, PERSISTENT_DROOP, DROOP_RECOVERED, STRETCH_FALL_STEP, DIE_TEMP_SAMPLE, POWER_ESTIMATE
and CLOCK_GATE complete. -/
def Obligations.ClockAndPowerFollowTheirLimits : Prop :=
  (∀ s : State,
     (let src := droopSource s.pwr s.free
      ∃ t, exec .pmDroop s = .next t ∧ t.mem = s.mem ∧ t.ctxs = s.ctxs ∧ (s.pwr.extEn = true → droopActs s.pwr src = true) ∧
       (droopActs s.pwr src = false → t = { s with free := t.free }) ∧
       (droopActs s.pwr src = true → s.pwr.held = true →
         t = { s with free := t.free, pwr := { s.pwr with droopAt := s.wall } }) ∧
       (droopActs s.pwr src = true → s.pwr.held = false →
         t.pwr.held = true ∧ t.pwr.heldAt = s.wall ∧ t.pwr.droopAt = s.wall ∧ t.pwr.episodes = (s.pwr.episodes + 1) % 2 ^ 32 ∧
         t.factor = Nat.max s.factor (wanted t.pwr) ∧ s.pwr.droopFactor + 1 ≤ t.factor)) ∧
     (droopActs s.pwr .input = s.pwr.extEn ∧
       ∀ mv, droopActs s.pwr (.detector mv) = (s.pwr.detEn && decide (s.pwr.detMv ≤ mv))) ∧
     (NothingDue s → s.pwr.held = true →
       (∃ t, exec .droopRelease s = .next t ∧ t.pwr = { s.pwr with held := false, heldAt := t.wall } ∧ t.factor = s.factor ∧
         s.pwr.droopAt + 768 ≤ t.wall ∧ t.mem = s.mem ∧ t.ctxs = s.ctxs) ∧
       (s.pwr.persist = false → ∃ t, exec .persistentDroop s = .next t ∧ t.pwr.persist = true ∧ 4 ≤ t.factor ∧
         s.pwr.heldAt + msTicks ≤ t.wall ∧ t.mem = s.mem ∧ t.ctxs = s.ctxs)) ∧
     (NothingDue s → s.pwr.held = false → s.pwr.persist = true →
       ∃ t, exec .droopRecovered s = .next t ∧ t.pwr = { s.pwr with persist := false } ∧ s.pwr.heldAt + msTicks ≤ t.wall ∧
         t.factor = s.factor ∧ t.mem = s.mem ∧ t.ctxs = s.ctxs) ∧
     (NothingDue s → ∃ t, exec .stretchFallStep s = .next t ∧ t.mem = s.mem ∧ t.ctxs = s.ctxs ∧ (s.factor ≤ wanted s.pwr → t = s) ∧
       (wanted s.pwr < s.factor → t.factor + 1 = s.factor ∧ wanted s.pwr ≤ t.factor ∧ s.pwr.stepAt + 2880 ≤ t.wall ∧
         t.pwr = { s.pwr with stepAt := t.wall }))) ∧
  (∀ s : State, Released s → NothingDue s →
     (∀ (vs : List Nat) (v : Nat), vs.length = 8 → v ∈ vs → (∀ x ∈ vs, x ≤ v) →
       ∃ t, exec (.dieTempSample vs) s = .next t ∧ t.pwr.dieTemp = v ∧ t.pwr.margin = s.pwr.trip - v ∧ t.mem = s.mem ∧
       (s.wall / (10 * usTicks) + 1) * (10 * usTicks) ≤ t.wall ∧
       (s.pwr.throttle ≤ v → s.pwr.thermal = false → t.pwr.thermal = true ∧ s.pwr.thermFactor + 1 ≤ t.factor) ∧
       (v + s.pwr.hyst < s.pwr.throttle → t.pwr.thermal = false) ∧
       (v < s.pwr.trip → t.ctxs = s.ctxs ∧ t.isolated = s.isolated) ∧
       (s.pwr.trip ≤ v → s.pwr.tripped = false → t.isolated = true ∧ t.pwr.tripped = true ∧ t.pwr.tripOut = true ∧
         t.pwr.mxeGated = true ∧ t.pwr.vxeGated = true ∧ (∀ p, p < s.grade.pinions → p ∈ t.pwr.pinsGated) ∧
         ∀ c : Ctx, (ctx s c).cstate = .running → (ctx s c).stopping = false →
           (ctx t c).stopping = true ∧ (ctx t c).faultCode = cDIE_TRIP)) ∧
     (∀ us, us ≠ s.wall / usTicks + 1 → exec (.powerEstimate us) s = .next s) ∧
     (∃ t mw, exec (.powerEstimate (s.wall / usTicks + 1)) s = .next t ∧
       mw = estimate (advanceWall ((s.wall / usTicks + 1) * usTicks) s) s.free ∧ t.pwr.hist = (mw :: s.pwr.hist).take 16 ∧
       t.mem = s.mem ∧ t.ctxs = s.ctxs ∧ (s.wall / usTicks + 1) * usTicks ≤ t.wall ∧ t.pwr.active = [] ∧ t.pwr.estAc = ac t ∧
       let avg := powerAvg { s.pwr with hist := (mw :: s.pwr.hist).take 16 }
       (s.pwr.limit < avg → s.pwr.above = 0 → t.pwr.limitCode = Nat.min 4 (s.pwr.limitCode + 1) ∧ t.pwr.above = 1 ∧
         t.pwr.limitCode ≤ t.factor) ∧
       (avg ≤ s.pwr.limit → s.pwr.limit * 96 ≤ avg * 100 →
         t.pwr.limitCode = s.pwr.limitCode ∧ t.pwr.above = 0 ∧ t.pwr.below = 0) ∧
       (avg * 100 < s.pwr.limit * 96 → avg ≤ s.pwr.limit → s.pwr.below = 15 → t.pwr.limitCode = s.pwr.limitCode - 1)) ∧
     (∀ unit, let a := idleFrom s unit + Nat.max 1 s.pwr.hystAc
       ∃ t, exec (.clockGate unit) s = .next t ∧
       t = { s with ec := t.ec, wall := t.wall, stretched := t.stretched, pwr := t.pwr } ∧
       (unitCg s unit = false ∨ unitIdle s unit = false → t = s) ∧
       (settledAc s a = true →
         (unit = 0 → s.pwr.mxeCg = true → mxeIdle s = true → t.pwr = { s.pwr with mxeGated := true } ∧ 2 * a ≤ t.ec) ∧
         (unit = 1 → s.pwr.vxeCg = true → vxeIdle s = true → t.pwr = { s.pwr with vxeGated := true } ∧ 2 * a ≤ t.ec) ∧
         (∀ p, unit = p + 2 → s.pwr.pinCg = true → p < s.grade.pinions → pinIdle s p = true → p ∈ t.pwr.pinsGated ∧
           2 * a ≤ t.ec ∧ t.pwr = { s.pwr with pinsGated := t.pwr.pinsGated }))))

/-- R402, R406, R408, R420, R421, R440: an event is accepted where its input is armed, a further one no earlier than four
quiet and four high samples after the level's last known cycle; it counts and raises its pennant by 1 in the first AC after
the service cycle; one that stays asserted for its time is masked until host software unmasks it, and a fresh quiet comes
first. An acknowledgment, in an EC of its own, frees the ACTIVE entry of the error log, a flush frees all; a mark stores one
trace record. The choices it rests on: log 36, 90. It concludes that SV_EVT, EVT_STUCK, EVT_UNMASK, ERR_ACK, ERR_FLUSH and
ERR_TRC_MARK complete. -/
def Obligations.EventsAndLogFollowTheHost : Prop :=
  ∀ (s : State) (i : Nat), i < 4 →
    (Released s → NothingDue s → Untouched s (evt s i).pennant →
      ∃ t, exec (.svEvt i) s = .next t ∧ t.mem = s.mem ∧ t.ctxs = s.ctxs ∧ ((evt s i).masked = true → t = s) ∧
        ((evt s i).masked = false →
          let armed := if (evt s i).level then (evt s i).heldTo + 5 else (evt s i).armAt
          let u := advance (16 * armed) s
          u.ec = Nat.max s.ec (16 * armed) ∧ (evt t i).count = ((evt s i).count + 1) % 256 ∧ (evt t i).level = true ∧
          (evt t i).heldTo = u.ec / 16 + 3 ∧ (evt t i).since = u.wall ∧
          ((evt s i).en = false → t.ec = u.ec ∧ ∀ p, pennant t p = pennant s p) ∧
          ((evt s i).en = true → pennant s (evt s i).pennant + 1 < 2 ^ 32 →
            pennant t (evt s i).pennant = pennant s (evt s i).pennant + 1 ∧ t.ec = (u.ec / 16 + 1) * 16))) ∧
    (NothingDue s → (evt s i).level = true → (evt s i).masked = false → (evt s i).stuckMs ≠ 0 →
      ∃ t, exec (.evtStuck i) s = .next t ∧ evt t i = { evt s i with stuck := true, masked := true, heldTo := t.ec / 16 } ∧
        (evt s i).since + (evt s i).stuckMs * msTicks ≤ t.wall ∧ t.mem = s.mem ∧ t.ctxs = s.ctxs) ∧
    (Released s → (evt s i).masked = true →
      ∃ t, exec (.evtUnmask i) s = .next t ∧ evt t i = { evt s i with
          masked := false, heldTo := Nat.max (evt s i).heldTo (s.ec / 16 + 3), armAt := Nat.max (evt s i).armAt (s.ec / 16 + 8) } ∧
        (∀ k, k ≠ i → evt t k = evt s k) ∧ t.mem = s.mem ∧ t.ctxs = s.ctxs) ∧
    (NoEngineWork s →
      let timed (t : State) : Prop := t.ec = s.ec + 2 ∧ t = { s with ec := t.ec, wall := t.wall, stretched := t.stretched, err := t.err }
      (∃ t, exec .errAck s = .next t ∧ timed t ∧
        (s.err.active = none → t.err.log = s.err.log ∧ t.err.active = none) ∧
        (∀ k, s.err.active = some k → t.err.log = s.err.log.filter (fun x => decide (x.slot ≠ k)))) ∧
      (∃ t, exec .errFlush s = .next t ∧ timed t ∧ t.err.log = [] ∧ t.err.active = none) ∧
      (∀ v : W32, ∃ t, exec (.errTrcMark v) s = .next t ∧ timed t ∧ t.err.log = s.err.log ∧
        (s.err.trcEnable = false → t.err = s.err) ∧
        (s.err.trcEnable = true → s.err.trcFrozen = false → bit s.err.trcKinds 9 = true → s.err.trcOwed = 0 →
          s.err.trcWait = [] → s.err.trcEc ≠ s.ec + 1 →
          let e := flushTrc t.err
          SMap.get [] e.trcBuf s.err.trcIndex = traceWords { kind := 9, time := s.ec + 1, argB := v.toNat } ∧
          e.trcIndex = (s.err.trcIndex + 1) % 2048)))

/-! ### The Bezel (chapter 18) -/

/-- R389–R391, R394, R395, R397, R398: the core sends a tap frame every 16 service cycles where a Bezel is; a powered Bezel
adds the differences of a good frame to its counters modulo 2^64, counts a bad one, and takes a new baseline after a gap;
power-up begins an epoch with counters of zero and logs the one that ended, a supply loss ends it, a glitch is logged. Beside
a powered Bezel that is retired another instance powers up, with its own epoch, number and log, and an opening report first.
The live words are published without a signature, and nothing but the publish path changes the mirror. The choices it rests
on: log 35, 92, 116. R391, R392, R394–R397: while it is powered and not retired the Bezel signs a periodic report when one is
due and a requested one on demand, each with the next number, or answers with a periodic one of the last millisecond; the
interval, the latest report, the certificate and the log are set and read; an accepted firmware or calibration package takes
effect between two reports and is logged, an unaccepted one changes nothing; an accepted retirement is logged and ends
reporting. The choices it rests on: log 87, 92. It concludes that TAP_FRAME_SEND, TAP_FRAME, TAP_GAP, BEZEL_POWER_UP,
BEZEL_SUPPLY_LOSS, BEZEL_GLITCH, BEZEL_LIVE_PUBLISH, PERIODIC_REPORT, REPORT, SET_INTERVAL, READ_REPORT, READ_CERT, READ_LOG,
FW_LOAD, CAL_LOAD and RETIRE complete. -/
def Obligations.BezelCountsReportsAndSeals : Prop :=
  (∀ s : State,
     (Released s → NothingDue s → ∃ t, exec .tapFrameSend s = .next t ∧ t.ec = (s.ec / 256 + 1) * 256 ∧ t.bezel = s.bezel ∧ t.mem = s.mem ∧ t.ctxs = s.ctxs ∧
       (s.grade = .lean → t.out = s.out ∧ t.tap = s.tap) ∧
       (s.grade ≠ .lean → t.out = s.out ++ [.tap (tapBytes (advance ((s.ec / 256 + 1) * 256) s))] ∧
         t.tap = { s.tap with frames := (s.tap.frames + 1) % 2 ^ 16, first := false })) ∧
     (∀ ws : List W8, bezelOn s = true → ∃ t, exec (.tapFrame ws) s = .next t ∧ t = { s with bezel := t.bezel } ∧
       t.bezel.mirror = s.bezel.mirror ∧
       (crc32c (ws.take 124) ≠ frameWord ws 31 →
         t.bezel = { s.bezel with tapErrors := (s.bezel.tapErrors + 1) % 2 ^ 16 }) ∧
       (crc32c (ws.take 124) = frameWord ws 31 → t.bezel.rebase = false ∧ t.bezel.lastFrame = s.wall ∧
         t.bezel.position = bits (frameWord ws 1) 21 0 ∧
         (∀ i, i < 19 → SMap.get 0 t.bezel.last i = frameWord ws (2 + i)) ∧
         (bit (frameWord ws 0) 16 = true ∨ s.bezel.rebase = true → t.bezel.counters = s.bezel.counters) ∧
         (bit (frameWord ws 0) 16 = false → s.bezel.rebase = false → ∀ i, i < 19 →
           SMap.get 0 t.bezel.counters i = (SMap.get 0 s.bezel.counters i
             + (frameWord ws (2 + i) + 2 ^ 32 - SMap.get 0 s.bezel.last i) % 2 ^ 32) % 2 ^ 64))) ∧
     (NothingDue s → bezelOn s = true → ∃ t, exec .tapGap s = .next t ∧ t.bezel = { s.bezel with tapGap := true, rebase := true } ∧
       s.bezel.lastFrame + msTicks ≤ t.wall ∧ t.mem = s.mem ∧ t.ctxs = s.ctxs) ∧
     (bezelPresent s = true → s.bezel.powered = false → s.bezel.retired = false →
       ∃ t, exec .bezelPowerUp s = .next t ∧ t = { s with bezel := t.bezel } ∧ t.bezel.powered = true ∧
         t.bezel.epoch = s.bezel.epoch + 1 ∧ t.bezel.seq = 0 ∧ t.bezel.counters = [] ∧ t.bezel.rebase = true ∧
         t.bezel.mirror = s.bezel.mirror ∧
         (s.bezel.log.length < 256 → t.bezel.log = s.bezel.log ++ [⟨3, s.bezel.epoch, s.bezel.seq, 0⟩])) ∧
     (bezelPresent s = true → s.bezel.powered = true → s.bezel.retired = true →
       ∃ t, exec .bezelPowerUp s = .next t ∧ t = { s with free := t.free, bezel := t.bezel } ∧ t.bezel.unit = s.bezel.unit + 1 ∧
         t.bezel.powered = true ∧ t.bezel.retired = false ∧ t.bezel.epoch = 1 ∧ t.bezel.seq = 1 ∧ t.bezel.counters = [] ∧
         t.bezel.log = [] ∧ t.bezel.mirror.report = t.bezel.latest ∧ t.bezel.mirror.retired = false ∧ t.bezel.mirror.seq = 1) ∧
     (∃ t, exec .bezelSupplyLoss s = .next t ∧ t = { s with bezel := { s.bezel with powered := false } }) ∧
     (bezelOn s = true → ∃ t, exec .bezelGlitch s = .next t ∧ t = { s with bezel := { s.bezel with
       log := if s.bezel.log.length < 256 then s.bezel.log ++ [⟨4, s.bezel.epoch, s.bezel.seq, 0⟩] else s.bezel.log } }) ∧
     (NothingDue s → bezelOn s = true → ∃ t, exec .bezelLivePublish s = .next t ∧ t.bezel.seq = s.bezel.seq ∧
       t.bezel.counters = s.bezel.counters ∧ t.bezel.mirror.report = s.bezel.mirror.report ∧
       t.bezel.mirror.gen = (s.bezel.mirror.gen + 2) % 2 ^ 32 ∧ t.bezel.mirror.seq = s.bezel.seq ∧
       t.bezel.mirror.epoch = s.bezel.epoch ∧ t.bezel.mirror.retired = s.bezel.retired ∧
       (s.wall / msTicks + 1) * msTicks ≤ t.wall ∧ t.mem = s.mem ∧ t.ctxs = s.ctxs)) ∧
  (∀ s : State, bezelOn s = true → NothingDue s →
     (s.bezel.retired = false →
       (∃ t, exec .periodicReport s = .next t ∧ t.bezel.seq = s.bezel.seq + 1 ∧ t.bezel.mirror.report = t.bezel.latest ∧
         t.bezel.mirror.seq = t.bezel.seq ∧ t.bezel.counters = s.bezel.counters ∧ periodicDue s ≤ t.wall ∧ t.mem = s.mem ∧ t.ctxs = s.ctxs) ∧
       (justPeriodic s = true → ∃ t, exec .report s = .next t ∧ t = { s with out := s.out ++ [.report s.bezel.latest] }) ∧
       (justPeriodic s = false → ∃ t, exec .report s = .next t ∧ t.bezel.seq = s.bezel.seq + 1 ∧
         t.out = s.out ++ [.report t.bezel.latest] ∧ t.bezel.counters = s.bezel.counters ∧ t.mem = s.mem ∧ t.ctxs = s.ctxs)) ∧
     (∀ n, ∃ t, exec (.setInterval n) s = .next t ∧
       (1 ≤ n → n ≤ 3600 → t = { s with bezel := { s.bezel with interval := n, since := s.wall } }) ∧
       (n = 0 ∨ 3600 < n → t = s)) ∧
     (∃ t, exec .readReport s = .next t ∧ t = { s with out := s.out ++ [.report s.bezel.latest] }) ∧
     (∃ t, exec .readCert s = .next t ∧ t = { s with out := s.out ++ [.report (Config.bezelCert s.bezel.unit)] }) ∧
     (∃ t, exec .readLog s = .next t ∧ t = { s with out := s.out ++ [.report (s.bezel.log.flatMap sealBytes)] }) ∧
     (∀ pkg : List W8, ∃ t, exec (.fwLoad pkg) s = .next t ∧
       (Config.bezelVerify 0 pkg = false → t = s) ∧ ((Config.pkgNumber pkg).toNat ≤ s.bezel.fw → t = s) ∧
       (accepts s 0 pkg = true → s.bezel.fw < (Config.pkgNumber pkg).toNat →
         t.bezel.fw = (Config.pkgNumber pkg).toNat ∧ t.bezel.seq = s.bezel.seq + 2 ∧ t.bezel.counters = s.bezel.counters ∧
         t.bezel.log = s.bezel.log ++ [⟨1, s.bezel.epoch, s.bezel.seq + 1, (Config.pkgNumber pkg).toNat⟩] ∧ t.mem = s.mem ∧
         t.ctxs = s.ctxs)) ∧
     (∀ pkg : List W8, ∃ t, exec (.calLoad pkg) s = .next t ∧ (Config.bezelVerify 1 pkg = false → t = s) ∧
       (accepts s 1 pkg = true → t.bezel.calId = (Config.pkgNumber pkg).toNat ∧ t.bezel.seq = s.bezel.seq + 2 ∧
         t.bezel.counters = s.bezel.counters ∧
         t.bezel.log = s.bezel.log ++ [⟨2, s.bezel.epoch, s.bezel.seq + 1, (Config.pkgNumber pkg).toNat⟩] ∧ t.mem = s.mem ∧
         t.ctxs = s.ctxs)) ∧
     (∀ pkg : List W8, ∃ t, exec (.retire pkg) s = .next t ∧ (Config.bezelVerify 1 pkg = false → t = s) ∧
       (s.bezel.retired = true → t = s) ∧
       (Config.bezelVerify 1 pkg = true → s.bezel.retired = false → t.bezel.retired = true ∧ t.bezel.seq = s.bezel.seq + 1 ∧
         (s.bezel.log.length < 256 → t.bezel.log = s.bezel.log ++ [⟨5, s.bezel.epoch, s.bezel.seq + 1, 0⟩]) ∧ t.mem = s.mem ∧
         t.ctxs = s.ctxs)))

/-! ### The host window (chapters 20, 22) -/

/-- R205: a parameter register of a context that does not run takes a host write of its half, and a write to one of a RUNNING
context, like one to its CODE, AFF and SPILL registers, is ignored and sets par_refused. The scratch register takes every
write; until release only the ERR block and the staging window take one. R440: the write has an EC to itself. For a core with
no engine command waiting or running. The choices it rests on: log 36. It concludes that REGISTER_WRITE completes. -/
def Obligations.RegisterWritesFollowTheirRules : Prop :=
  ∀ (s : State) (off : Nat) (v : W32), NoEngineWork s →
    ∃ t, exec (.registerWrite off v) s = .next t ∧
      let u : State := { s with ec := s.ec + 2, wall := t.wall, stretched := t.stretched }
      (¬ Released s → off / 2 ^ 16 ≠ 11 → (off < 0xC4000 ∨ 0xC8000 ≤ off) → t = u) ∧
      (Released s → off = 0x14 → t = { u with scratch := v.toNat }) ∧
      (Released s → ∀ (c : Ctx), (ctx s c).cstate = .running →
        (off = 0x1110 + 0x40 * c ∨ off = 0x1114 + 0x40 * c ∨ off = 0x1118 + 0x40 * c ∨
          (0x2000 + 0x200 * c ≤ off ∧ off < 0x2200 + 0x200 * c)) →
        t = modCtx u c (fun x => { x with parRefused := true })) ∧
      (Released s → ∀ (c : Ctx) (n : Nat), (ctx s c).cstate ≠ .running → n < 64 →
        (off = 0x2000 + 0x200 * c + 8 * n → getPar (ctx t c) n = (getPar (ctx s c) n).extractLsb' 32 32 ++ v ∧
          (∀ k, k ≠ n → getPar (ctx t c) k = getPar (ctx s c) k) ∧ (∀ d : Ctx, d ≠ c → ctx t d = ctx s d) ∧ t.mem = s.mem) ∧
        (off = 0x2004 + 0x200 * c + 8 * n → getPar (ctx t c) n = v ++ (getPar (ctx s c) n).extractLsb' 0 32 ∧
          (∀ k, k ≠ n → getPar (ctx t c) k = getPar (ctx s c) k) ∧ (∀ d : Ctx, d ≠ c → ctx t d = ctx s d) ∧ t.mem = s.mem))

/-- R169, R186, R189, R413: a host write of a line of core memory writes its enabled bytes where the bank gives access and
every other byte stays; a read returns the line, or zeros with an error where a word is uncorrectable; no access reaches a
bank that gives none or a granule that is not there, and a read of one returns zeros. A line of the register window is read
word by word after every update of its AC (R255), which changes nothing else, and a fully enabled word of one is a register
write (R440); the other spaces are refused with ADDR_RANGE and change no byte. For a granule that nothing has still to write,
with no evaluation of waits still due. The choices it rests on: log 36. It concludes that HOST_WINDOW_WRITE and
HOST_WINDOW_READ complete. -/
def Obligations.HostWindowReadsAndWrites : Prop :=
  ∀ (s : State) (off : Nat) (g : Region), off % 64 = 0 → off < 2 ^ 32 → NothingDue s →
    (Released s → regionOf s off = some g → (g = .bank → bankOpen s (bankOf s.grade off) = true) → NoneOwes s off →
      (∀ (data : List W8) (be : List Bool), data.length = 64 → (∀ a ∈ s.xfer.arrivals, a.gran ≠ off) →
        ∃ t, exec (.hostWindowWrite 1 off data be) s = .next t ∧ t.ctxs = s.ctxs ∧
          ∀ k, readByte t k = if off ≤ k ∧ k < off + 64 ∧ be.getD (k - off) false = true then data.getD (k - off) 0#8
            else readByte s k) ∧
      (g = .bank → granUncorrectable s off = true →
        ∃ t, exec (.hostWindowRead 1 off) s = .next t ∧ t.out = s.out ++ [.window true (List.replicate 64 0#8)] ∧
          t.mem = s.mem ∧ t.ctxs = s.ctxs) ∧
      (g ≠ .bank ∨ granUncorrectable s off = false →
        ∃ t, exec (.hostWindowRead 1 off) s = .next t ∧ t.out = s.out ++ [.window false (readBytes s off 64)] ∧
          t.mem = s.mem ∧ t.ctxs = s.ctxs)) ∧
    (Released s → regionOf s off = none ∨ regionOf s off = some .bank ∧ bankOpen s (bankOf s.grade off) = false →
      (∀ (data : List W8) (be : List Bool),
        ∃ t, exec (.hostWindowWrite 1 off data be) s = .next t ∧ t.mem = s.mem ∧ t.ctxs = s.ctxs) ∧
      (∃ t, exec (.hostWindowRead 1 off) s = .next t ∧ t.mem = s.mem ∧ t.ctxs = s.ctxs ∧
        t.out = s.out ++ [.window false (List.replicate 64 0#8)] ∧ (regionOf s off = some .bank → t.cm.darkAccess = true))) ∧
    (inOrder s (ac s) = true → off ≠ 0x400 → ∃ t, exec (.hostWindowRead 0 off) s = .next t ∧
      let u : State := { s with ec := 2 * ac s + 2, wall := t.wall, stretched := t.stretched }
      t = { u with out := s.out ++ [.window false ((List.range 16).flatMap (fun k => leBytes 4 (regRead (settleTrace u) (off + 4 * k))))] }) ∧
    (∀ (data : List W8) (be : List Bool), Released s → NoEngineWork s → data.length = 64 →
      (∀ i, i < 64 → be.getD i false = decide (20 ≤ i ∧ i < 24)) →
      off = 0 → ∃ t, exec (.hostWindowWrite 0 off data be) s = .next t ∧
        t = { s with ec := s.ec + 2, wall := t.wall, stretched := t.stretched, scratch := ofLE (slice 20 4 data) }) ∧
    (∀ (sp : Nat) (data : List W8) (be : List Bool), 2 ≤ sp →
      (∃ t, exec (.hostWindowWrite sp off data be) s = .next t ∧ t.mem = s.mem ∧ t.ctxs = s.ctxs ∧ t.out = s.out) ∧
      (∃ t, exec (.hostWindowRead sp off) s = .next t ∧ t.mem = s.mem ∧ t.ctxs = s.ctxs ∧
        t.out = s.out ++ [.window true (List.replicate 64 0#8)]))

/-! ### Numbers (chapter 03) -/

/-- R45: an E8M0 scale byte X from 0 to 254 is 2^(X − 127), with no sign, zero or infinity; 255 is NaN. Every element of a
block with a NaN scale decodes as NaN, whatever its bits; under any other scale it is its own value times the scale. -/
def Obligations.ScaleBytesDecode : Prop :=
  (∀ X, X ≤ 254 → decodeE8M0 X = .fin false 1 ((X : Int) - 127)) ∧ decodeE8M0 255 = .nan ∧
  (∀ X, X ≤ 255 → (decodeE8M0 X).sign = false ∧ (decodeE8M0 X).isZero = false ∧ (decodeE8M0 X).isInf = false) ∧
  (∀ (f : Fmt) (kind : Bool) (w : Nat), f.isMx = true → decodeMx f kind 255 w = .nan) ∧
  (∀ (f : Fmt) (kind : Bool) (X w : Nat), f.isMx = true → X ≤ 254 →
    (decodeElem f kind w = .nan → decodeMx f kind X w = .nan) ∧
    (∀ n, decodeElem f kind w = .inf n → decodeMx f kind X w = .inf n) ∧
    (∀ n m e, decodeElem f kind w = .fin n m e → decodeMx f kind X w = .fin n m (e + ((X : Int) - 127))))

/-- R39–R42, R50: decode and encode agree. Every encoding of a finite value, in every floating-point layout, encodes back
to its own bits in every rounding mode, without a flag; an infinity does with saturation off; a NaN becomes the canonical
NaN. -/
def Obligations.NumbersEncodeBack : Prop :=
  ∀ (L : Layout) (w : Nat) (rnd : Rnd) (sat : Bool),
    L ∈ [layFP32, layBF16, layFP16, layE4M3, layE5M2, layE3M2, layE2M3, layE2M1] → w < 2 ^ (1 + L.eb + L.mb) →
    (∀ n m e, L.decode w = .fin n m e → L.encode rnd sat (L.decode w) = (w, fNone)) ∧
    (∀ n, L.decode w = .inf n → L.encode rnd false (L.decode w) = (w, fNone)) ∧
    (L.decode w = .nan → (L.encode rnd sat (L.decode w)).1 = L.nanBits)
end

