-- ==== Sys2Proof/Laws/SMap.lean ====
section
/-!
SUPPORT. Laws of the sparse maps: what a read gives after a write, and that every change keeps the canonical form.
-/
namespace Sys2Proof.Machine

variable {α : Type} {d : α} {m : SMap α} {j k lo : Nat} {x : α}

@[simp] theorem SMap.get_nil : SMap.get d [] k = d := rfl

theorem SMap.get_erase (m : SMap α) : SMap.get d (SMap.erase m k) j = if j = k then d else SMap.get d m j := by
  induction m with
  | nil => simp [SMap.erase]
  | cons p m ih =>
    obtain ⟨i, v⟩ := p
    by_cases h : i = k
    · subst h
      by_cases hj : j = i
      · subst hj; simpa [SMap.erase] using ih
      · simp [SMap.erase, ih, hj, SMap.get, Ne.symm hj]
    · by_cases hj : i = j
      · subst hj; simp [SMap.erase, h, SMap.get]
      · simp [SMap.erase, h, SMap.get, hj, ih]

theorem SMap.get_put (m : SMap α) : SMap.get d (SMap.put m k x) j = if j = k then x else SMap.get d m j := by
  induction m with
  | nil => simp only [SMap.put, SMap.get, eq_comm (a := j)]
  | cons p m ih =>
    obtain ⟨i, v⟩ := p
    unfold SMap.put
    split
    · simp only [SMap.get, eq_comm (a := j)]
    · split
      · rename_i h; subst h
        by_cases h : i = j
        · simp [SMap.get, h]
        · simp [SMap.get, h, Ne.symm h]
      · rename_i hk
        by_cases h : i = j
        · subst h; simp [SMap.get, hk]
        · simp [SMap.get, h, ih]

variable [DecidableEq α]

/-- What a read gives after a write. -/
theorem SMap.get_set (m : SMap α) : SMap.get d (SMap.set d m k x) j = if j = k then x else SMap.get d m j := by
  unfold SMap.set
  split
  · rename_i h; subst h; exact SMap.get_erase m
  · exact SMap.get_put m

@[simp] theorem SMap.get_set_same (m : SMap α) : SMap.get d (SMap.set d m k x) k = x := by simp [SMap.get_set]

theorem SMap.get_set_ne (m : SMap α) (h : j ≠ k) : SMap.get d (SMap.set d m k x) j = SMap.get d m j := by
  simp [SMap.get_set, h]

/-- What a read gives after a change. -/
theorem SMap.get_mod (m : SMap α) (f : α → α) :
    SMap.get d (SMap.mod d m k f) j = if j = k then f (SMap.get d m k) else SMap.get d m j := SMap.get_set m

@[simp] theorem SMap.get_mod_same (m : SMap α) (f : α → α) : SMap.get d (SMap.mod d m k f) k = f (SMap.get d m k) := by
  simp [SMap.get_mod]

theorem SMap.get_mod_ne (m : SMap α) (f : α → α) (h : j ≠ k) :
    SMap.get d (SMap.mod d m k f) j = SMap.get d m j := by simp [SMap.get_mod, h]

/-! ### The canonical form -/

theorem SMap.wfFrom_mono {lo' : Nat} (h : lo' ≤ lo) (hm : SMap.wfFrom d lo m = true) : SMap.wfFrom d lo' m = true := by
  cases m with
  | nil => rfl
  | cons p m => simp [SMap.wfFrom] at hm ⊢; exact ⟨⟨by omega, hm.1.2⟩, hm.2⟩

theorem SMap.wfFrom_erase (lo : Nat) (h : SMap.wfFrom d lo m = true) : SMap.wfFrom d lo (SMap.erase m k) = true := by
  induction m generalizing lo with
  | nil => rfl
  | cons p m ih =>
    simp only [SMap.wfFrom, Bool.and_eq_true, decide_eq_true_eq] at h
    unfold SMap.erase
    split
    · exact SMap.wfFrom_mono (by omega) (ih _ h.2)
    · simp [SMap.wfFrom, h.1, ih _ h.2]

theorem SMap.wfFrom_put (lo : Nat) (hx : x ≠ d) (hk : lo ≤ k) (h : SMap.wfFrom d lo m = true) :
    SMap.wfFrom d lo (SMap.put m k x) = true := by
  induction m generalizing lo with
  | nil => simp [SMap.put, SMap.wfFrom, hx, hk]
  | cons p m ih =>
    obtain ⟨i, v⟩ := p
    simp only [SMap.wfFrom, Bool.and_eq_true, decide_eq_true_eq] at h
    unfold SMap.put
    split
    · simp [SMap.wfFrom, hx, hk, h.1.2, h.2]; omega
    · split
      · rename_i hi; subst hi; simp [SMap.wfFrom, hx, hk, h.2]
      · simp [SMap.wfFrom, h.1, ih (i + 1) (by omega) h.2]

/-- A write keeps the canonical form. -/
theorem SMap.wf_set (h : SMap.wf d m = true) : SMap.wf d (SMap.set d m k x) = true := by
  unfold SMap.set SMap.wf at *
  split
  · exact SMap.wfFrom_erase 0 h
  · exact SMap.wfFrom_put 0 ‹_› (Nat.zero_le _) h

/-- So does leaving entries out. -/
theorem SMap.wfFrom_filter (f : Nat × α → Bool) (lo : Nat) (h : SMap.wfFrom d lo m = true) :
    SMap.wfFrom d lo (m.filter f) = true := by
  induction m generalizing lo with
  | nil => rfl
  | cons p m ih =>
    simp only [SMap.wfFrom, Bool.and_eq_true, decide_eq_true_eq] at h
    rw [List.filter_cons]
    split
    · simp [SMap.wfFrom, h.1, ih _ h.2]
    · exact SMap.wfFrom_mono (by omega) (ih _ h.2)

/-- Below its first key a map in canonical form reads as the default. -/
theorem SMap.wfFrom_get (lo : Nat) (h : SMap.wfFrom d lo m = true) (hk : k < lo) : SMap.get d m k = d := by
  induction m generalizing lo with
  | nil => rfl
  | cons p m ih =>
    simp only [SMap.wfFrom, Bool.and_eq_true, decide_eq_true_eq] at h
    simp only [SMap.get]
    rw [if_neg (by omega)]
    exact ih _ h.2 (by omega)

end Sys2Proof.Machine
end

