-- ==== Sys2Proof/Laws/State.lean ====
section
/-!
SUPPORT. What each small update leaves: for every field that an update does not touch, the field is as it was. Each law holds
by rfl; simp takes a law of several equations apart.
-/
namespace Sys2Proof.Machine

variable (s : State)

/-- What `modCtx` leaves. -/
@[simp] theorem modCtx_rest (c : Ctx) (f : CtxSt → CtxSt) :
    (modCtx s c f).pending = s.pending ∧
    (modCtx s c f).grade = s.grade ∧
    (modCtx s c f).fuseRows = s.fuseRows ∧
    (modCtx s c f).ec = s.ec ∧
    (modCtx s c f).wall = s.wall ∧
    (modCtx s c f).resetAt = s.resetAt ∧
    (modCtx s c f).factor = s.factor ∧
    (modCtx s c f).isolated = s.isolated ∧
    (modCtx s c f).resets = s.resets ∧
    (modCtx s c f).free = s.free ∧
    (modCtx s c f).out = s.out ∧
    (modCtx s c f).pos = s.pos ∧
    (modCtx s c f).alias_ = s.alias_ ∧
    (modCtx s c f).dispatched = s.dispatched ∧
    (modCtx s c f).switching = s.switching ∧
    (modCtx s c f).switchFrom = s.switchFrom ∧
    (modCtx s c f).switchTo = s.switchTo ∧
    (modCtx s c f).switchAc = s.switchAc ∧
    (modCtx s c f).lastDisp = s.lastDisp ∧
    (modCtx s c f).quantumUs = s.quantumUs ∧
    (modCtx s c f).slips = s.slips ∧
    (modCtx s c f).switches = s.switches ∧
    (modCtx s c f).lastSwitchAc = s.lastSwitchAc ∧
    (modCtx s c f).dispatchedAt = s.dispatchedAt ∧
    (modCtx s c f).quantumOver = s.quantumOver ∧
    (modCtx s c f).code = s.code ∧
    (modCtx s c f).aff = s.aff ∧
    (modCtx s c f).queues = s.queues ∧
    (modCtx s c f).headAt = s.headAt ∧
    (modCtx s c f).runs = s.runs ∧
    (modCtx s c f).spans = s.spans ∧
    (modCtx s c f).mem = s.mem ∧
    (modCtx s c f).ecc = s.ecc ∧
    (modCtx s c f).banks = s.banks ∧
    (modCtx s c f).cm = s.cm ∧
    (modCtx s c f).mxe = s.mxe ∧
    (modCtx s c f).mxeSaved = s.mxeSaved ∧
    (modCtx s c f).sct = s.sct ∧
    (modCtx s c f).stash = s.stash ∧
    (modCtx s c f).vxe = s.vxe ∧
    (modCtx s c f).pin = s.pin ∧
    (modCtx s c f).seed = s.seed ∧
    (modCtx s c f).gens = s.gens ∧
    (modCtx s c f).reseeds = s.reseeds ∧
    (modCtx s c f).syn = s.syn ∧
    (modCtx s c f).err = s.err ∧
    (modCtx s c f).hst = s.hst ∧
    (modCtx s c f).xmu = s.xmu ∧
    (modCtx s c f).xfer = s.xfer ∧
    (modCtx s c f).lnk = s.lnk ∧
    (modCtx s c f).rsl = s.rsl ∧
    (modCtx s c f).pwr = s.pwr ∧
    (modCtx s c f).tap = s.tap ∧
    (modCtx s c f).bezel = s.bezel ∧
    (modCtx s c f).evts = s.evts ∧
    (modCtx s c f).isolateHost = s.isolateHost ∧
    (modCtx s c f).isolateSeen = s.isolateSeen ∧
    (modCtx s c f).scratch = s.scratch ∧
    (modCtx s c f).nvs = s.nvs ∧
    (modCtx s c f).boot = s.boot ∧
    (modCtx s c f).stretched = s.stretched ∧
    (modCtx s c f).scrubAt = s.scrubAt :=
  ⟨rfl, rfl, rfl, rfl, rfl, rfl, rfl, rfl, rfl, rfl, rfl, rfl, rfl, rfl, rfl, rfl, rfl, rfl, rfl, rfl, rfl, rfl, rfl, rfl, rfl, rfl, rfl, rfl, rfl, rfl, rfl, rfl, rfl, rfl, rfl, rfl, rfl, rfl, rfl, rfl, rfl, rfl, rfl, rfl, rfl, rfl, rfl, rfl, rfl, rfl, rfl, rfl, rfl, rfl, rfl, rfl, rfl, rfl, rfl, rfl, rfl, rfl⟩

/-- What `setQueue` leaves. -/
@[simp] theorem setQueue_rest (q : QName) (l : List QEnt) :
    (setQueue s q l).pending = s.pending ∧
    (setQueue s q l).grade = s.grade ∧
    (setQueue s q l).fuseRows = s.fuseRows ∧
    (setQueue s q l).ec = s.ec ∧
    (setQueue s q l).wall = s.wall ∧
    (setQueue s q l).resetAt = s.resetAt ∧
    (setQueue s q l).factor = s.factor ∧
    (setQueue s q l).isolated = s.isolated ∧
    (setQueue s q l).resets = s.resets ∧
    (setQueue s q l).free = s.free ∧
    (setQueue s q l).out = s.out ∧
    (setQueue s q l).pos = s.pos ∧
    (setQueue s q l).alias_ = s.alias_ ∧
    (setQueue s q l).dispatched = s.dispatched ∧
    (setQueue s q l).switching = s.switching ∧
    (setQueue s q l).switchFrom = s.switchFrom ∧
    (setQueue s q l).switchTo = s.switchTo ∧
    (setQueue s q l).switchAc = s.switchAc ∧
    (setQueue s q l).lastDisp = s.lastDisp ∧
    (setQueue s q l).quantumUs = s.quantumUs ∧
    (setQueue s q l).slips = s.slips ∧
    (setQueue s q l).switches = s.switches ∧
    (setQueue s q l).lastSwitchAc = s.lastSwitchAc ∧
    (setQueue s q l).dispatchedAt = s.dispatchedAt ∧
    (setQueue s q l).quantumOver = s.quantumOver ∧
    (setQueue s q l).ctxs = s.ctxs ∧
    (setQueue s q l).code = s.code ∧
    (setQueue s q l).aff = s.aff ∧
    (setQueue s q l).headAt = s.headAt ∧
    (setQueue s q l).runs = s.runs ∧
    (setQueue s q l).spans = s.spans ∧
    (setQueue s q l).mem = s.mem ∧
    (setQueue s q l).ecc = s.ecc ∧
    (setQueue s q l).banks = s.banks ∧
    (setQueue s q l).cm = s.cm ∧
    (setQueue s q l).mxe = s.mxe ∧
    (setQueue s q l).mxeSaved = s.mxeSaved ∧
    (setQueue s q l).sct = s.sct ∧
    (setQueue s q l).stash = s.stash ∧
    (setQueue s q l).vxe = s.vxe ∧
    (setQueue s q l).pin = s.pin ∧
    (setQueue s q l).seed = s.seed ∧
    (setQueue s q l).gens = s.gens ∧
    (setQueue s q l).reseeds = s.reseeds ∧
    (setQueue s q l).syn = s.syn ∧
    (setQueue s q l).err = s.err ∧
    (setQueue s q l).hst = s.hst ∧
    (setQueue s q l).xmu = s.xmu ∧
    (setQueue s q l).xfer = s.xfer ∧
    (setQueue s q l).lnk = s.lnk ∧
    (setQueue s q l).rsl = s.rsl ∧
    (setQueue s q l).pwr = s.pwr ∧
    (setQueue s q l).tap = s.tap ∧
    (setQueue s q l).bezel = s.bezel ∧
    (setQueue s q l).evts = s.evts ∧
    (setQueue s q l).isolateHost = s.isolateHost ∧
    (setQueue s q l).isolateSeen = s.isolateSeen ∧
    (setQueue s q l).scratch = s.scratch ∧
    (setQueue s q l).nvs = s.nvs ∧
    (setQueue s q l).boot = s.boot ∧
    (setQueue s q l).stretched = s.stretched ∧
    (setQueue s q l).scrubAt = s.scrubAt :=
  ⟨rfl, rfl, rfl, rfl, rfl, rfl, rfl, rfl, rfl, rfl, rfl, rfl, rfl, rfl, rfl, rfl, rfl, rfl, rfl, rfl, rfl, rfl, rfl, rfl, rfl, rfl, rfl, rfl, rfl, rfl, rfl, rfl, rfl, rfl, rfl, rfl, rfl, rfl, rfl, rfl, rfl, rfl, rfl, rfl, rfl, rfl, rfl, rfl, rfl, rfl, rfl, rfl, rfl, rfl, rfl, rfl, rfl, rfl, rfl, rfl, rfl, rfl⟩

/-- What `setHeadAt` leaves. -/
@[simp] theorem setHeadAt_rest (q : QName) (a : Nat) :
    (setHeadAt q a s).pending = s.pending ∧
    (setHeadAt q a s).grade = s.grade ∧
    (setHeadAt q a s).fuseRows = s.fuseRows ∧
    (setHeadAt q a s).ec = s.ec ∧
    (setHeadAt q a s).wall = s.wall ∧
    (setHeadAt q a s).resetAt = s.resetAt ∧
    (setHeadAt q a s).factor = s.factor ∧
    (setHeadAt q a s).isolated = s.isolated ∧
    (setHeadAt q a s).resets = s.resets ∧
    (setHeadAt q a s).free = s.free ∧
    (setHeadAt q a s).out = s.out ∧
    (setHeadAt q a s).pos = s.pos ∧
    (setHeadAt q a s).alias_ = s.alias_ ∧
    (setHeadAt q a s).dispatched = s.dispatched ∧
    (setHeadAt q a s).switching = s.switching ∧
    (setHeadAt q a s).switchFrom = s.switchFrom ∧
    (setHeadAt q a s).switchTo = s.switchTo ∧
    (setHeadAt q a s).switchAc = s.switchAc ∧
    (setHeadAt q a s).lastDisp = s.lastDisp ∧
    (setHeadAt q a s).quantumUs = s.quantumUs ∧
    (setHeadAt q a s).slips = s.slips ∧
    (setHeadAt q a s).switches = s.switches ∧
    (setHeadAt q a s).lastSwitchAc = s.lastSwitchAc ∧
    (setHeadAt q a s).dispatchedAt = s.dispatchedAt ∧
    (setHeadAt q a s).quantumOver = s.quantumOver ∧
    (setHeadAt q a s).ctxs = s.ctxs ∧
    (setHeadAt q a s).code = s.code ∧
    (setHeadAt q a s).aff = s.aff ∧
    (setHeadAt q a s).queues = s.queues ∧
    (setHeadAt q a s).runs = s.runs ∧
    (setHeadAt q a s).spans = s.spans ∧
    (setHeadAt q a s).mem = s.mem ∧
    (setHeadAt q a s).ecc = s.ecc ∧
    (setHeadAt q a s).banks = s.banks ∧
    (setHeadAt q a s).cm = s.cm ∧
    (setHeadAt q a s).mxe = s.mxe ∧
    (setHeadAt q a s).mxeSaved = s.mxeSaved ∧
    (setHeadAt q a s).sct = s.sct ∧
    (setHeadAt q a s).stash = s.stash ∧
    (setHeadAt q a s).vxe = s.vxe ∧
    (setHeadAt q a s).pin = s.pin ∧
    (setHeadAt q a s).seed = s.seed ∧
    (setHeadAt q a s).gens = s.gens ∧
    (setHeadAt q a s).reseeds = s.reseeds ∧
    (setHeadAt q a s).syn = s.syn ∧
    (setHeadAt q a s).err = s.err ∧
    (setHeadAt q a s).hst = s.hst ∧
    (setHeadAt q a s).xmu = s.xmu ∧
    (setHeadAt q a s).xfer = s.xfer ∧
    (setHeadAt q a s).lnk = s.lnk ∧
    (setHeadAt q a s).rsl = s.rsl ∧
    (setHeadAt q a s).pwr = s.pwr ∧
    (setHeadAt q a s).tap = s.tap ∧
    (setHeadAt q a s).bezel = s.bezel ∧
    (setHeadAt q a s).evts = s.evts ∧
    (setHeadAt q a s).isolateHost = s.isolateHost ∧
    (setHeadAt q a s).isolateSeen = s.isolateSeen ∧
    (setHeadAt q a s).scratch = s.scratch ∧
    (setHeadAt q a s).nvs = s.nvs ∧
    (setHeadAt q a s).boot = s.boot ∧
    (setHeadAt q a s).stretched = s.stretched ∧
    (setHeadAt q a s).scrubAt = s.scrubAt :=
  ⟨rfl, rfl, rfl, rfl, rfl, rfl, rfl, rfl, rfl, rfl, rfl, rfl, rfl, rfl, rfl, rfl, rfl, rfl, rfl, rfl, rfl, rfl, rfl, rfl, rfl, rfl, rfl, rfl, rfl, rfl, rfl, rfl, rfl, rfl, rfl, rfl, rfl, rfl, rfl, rfl, rfl, rfl, rfl, rfl, rfl, rfl, rfl, rfl, rfl, rfl, rfl, rfl, rfl, rfl, rfl, rfl, rfl, rfl, rfl, rfl, rfl, rfl⟩

/-- What `trace` leaves. -/
@[simp] theorem trace_rest (r : TraceRec) :
    (trace r s).pending = s.pending ∧
    (trace r s).grade = s.grade ∧
    (trace r s).fuseRows = s.fuseRows ∧
    (trace r s).ec = s.ec ∧
    (trace r s).wall = s.wall ∧
    (trace r s).resetAt = s.resetAt ∧
    (trace r s).factor = s.factor ∧
    (trace r s).isolated = s.isolated ∧
    (trace r s).resets = s.resets ∧
    (trace r s).free = s.free ∧
    (trace r s).out = s.out ∧
    (trace r s).pos = s.pos ∧
    (trace r s).alias_ = s.alias_ ∧
    (trace r s).dispatched = s.dispatched ∧
    (trace r s).switching = s.switching ∧
    (trace r s).switchFrom = s.switchFrom ∧
    (trace r s).switchTo = s.switchTo ∧
    (trace r s).switchAc = s.switchAc ∧
    (trace r s).lastDisp = s.lastDisp ∧
    (trace r s).quantumUs = s.quantumUs ∧
    (trace r s).slips = s.slips ∧
    (trace r s).switches = s.switches ∧
    (trace r s).lastSwitchAc = s.lastSwitchAc ∧
    (trace r s).dispatchedAt = s.dispatchedAt ∧
    (trace r s).quantumOver = s.quantumOver ∧
    (trace r s).ctxs = s.ctxs ∧
    (trace r s).code = s.code ∧
    (trace r s).aff = s.aff ∧
    (trace r s).queues = s.queues ∧
    (trace r s).headAt = s.headAt ∧
    (trace r s).runs = s.runs ∧
    (trace r s).spans = s.spans ∧
    (trace r s).mem = s.mem ∧
    (trace r s).ecc = s.ecc ∧
    (trace r s).banks = s.banks ∧
    (trace r s).cm = s.cm ∧
    (trace r s).mxe = s.mxe ∧
    (trace r s).mxeSaved = s.mxeSaved ∧
    (trace r s).sct = s.sct ∧
    (trace r s).stash = s.stash ∧
    (trace r s).vxe = s.vxe ∧
    (trace r s).pin = s.pin ∧
    (trace r s).seed = s.seed ∧
    (trace r s).gens = s.gens ∧
    (trace r s).reseeds = s.reseeds ∧
    (trace r s).syn = s.syn ∧
    (trace r s).hst = s.hst ∧
    (trace r s).xmu = s.xmu ∧
    (trace r s).xfer = s.xfer ∧
    (trace r s).lnk = s.lnk ∧
    (trace r s).rsl = s.rsl ∧
    (trace r s).pwr = s.pwr ∧
    (trace r s).tap = s.tap ∧
    (trace r s).bezel = s.bezel ∧
    (trace r s).evts = s.evts ∧
    (trace r s).isolateHost = s.isolateHost ∧
    (trace r s).isolateSeen = s.isolateSeen ∧
    (trace r s).scratch = s.scratch ∧
    (trace r s).nvs = s.nvs ∧
    (trace r s).boot = s.boot ∧
    (trace r s).stretched = s.stretched ∧
    (trace r s).scrubAt = s.scrubAt :=
  ⟨rfl, rfl, rfl, rfl, rfl, rfl, rfl, rfl, rfl, rfl, rfl, rfl, rfl, rfl, rfl, rfl, rfl, rfl, rfl, rfl, rfl, rfl, rfl, rfl, rfl, rfl, rfl, rfl, rfl, rfl, rfl, rfl, rfl, rfl, rfl, rfl, rfl, rfl, rfl, rfl, rfl, rfl, rfl, rfl, rfl, rfl, rfl, rfl, rfl, rfl, rfl, rfl, rfl, rfl, rfl, rfl, rfl, rfl, rfl, rfl, rfl, rfl⟩

/-- What `pushEvent` leaves. -/
@[simp] theorem pushEvent_rest (code sev : Nat) (c : Option Ctx) (tag ht hs : Nat) (d : List Nat) :
    (pushEvent code sev c tag ht hs d s).pending = s.pending ∧
    (pushEvent code sev c tag ht hs d s).grade = s.grade ∧
    (pushEvent code sev c tag ht hs d s).fuseRows = s.fuseRows ∧
    (pushEvent code sev c tag ht hs d s).ec = s.ec ∧
    (pushEvent code sev c tag ht hs d s).wall = s.wall ∧
    (pushEvent code sev c tag ht hs d s).resetAt = s.resetAt ∧
    (pushEvent code sev c tag ht hs d s).factor = s.factor ∧
    (pushEvent code sev c tag ht hs d s).isolated = s.isolated ∧
    (pushEvent code sev c tag ht hs d s).resets = s.resets ∧
    (pushEvent code sev c tag ht hs d s).free = s.free ∧
    (pushEvent code sev c tag ht hs d s).out = s.out ∧
    (pushEvent code sev c tag ht hs d s).pos = s.pos ∧
    (pushEvent code sev c tag ht hs d s).alias_ = s.alias_ ∧
    (pushEvent code sev c tag ht hs d s).dispatched = s.dispatched ∧
    (pushEvent code sev c tag ht hs d s).switching = s.switching ∧
    (pushEvent code sev c tag ht hs d s).switchFrom = s.switchFrom ∧
    (pushEvent code sev c tag ht hs d s).switchTo = s.switchTo ∧
    (pushEvent code sev c tag ht hs d s).switchAc = s.switchAc ∧
    (pushEvent code sev c tag ht hs d s).lastDisp = s.lastDisp ∧
    (pushEvent code sev c tag ht hs d s).quantumUs = s.quantumUs ∧
    (pushEvent code sev c tag ht hs d s).slips = s.slips ∧
    (pushEvent code sev c tag ht hs d s).switches = s.switches ∧
    (pushEvent code sev c tag ht hs d s).lastSwitchAc = s.lastSwitchAc ∧
    (pushEvent code sev c tag ht hs d s).dispatchedAt = s.dispatchedAt ∧
    (pushEvent code sev c tag ht hs d s).quantumOver = s.quantumOver ∧
    (pushEvent code sev c tag ht hs d s).ctxs = s.ctxs ∧
    (pushEvent code sev c tag ht hs d s).code = s.code ∧
    (pushEvent code sev c tag ht hs d s).aff = s.aff ∧
    (pushEvent code sev c tag ht hs d s).queues = s.queues ∧
    (pushEvent code sev c tag ht hs d s).headAt = s.headAt ∧
    (pushEvent code sev c tag ht hs d s).runs = s.runs ∧
    (pushEvent code sev c tag ht hs d s).spans = s.spans ∧
    (pushEvent code sev c tag ht hs d s).mem = s.mem ∧
    (pushEvent code sev c tag ht hs d s).ecc = s.ecc ∧
    (pushEvent code sev c tag ht hs d s).banks = s.banks ∧
    (pushEvent code sev c tag ht hs d s).cm = s.cm ∧
    (pushEvent code sev c tag ht hs d s).mxe = s.mxe ∧
    (pushEvent code sev c tag ht hs d s).mxeSaved = s.mxeSaved ∧
    (pushEvent code sev c tag ht hs d s).sct = s.sct ∧
    (pushEvent code sev c tag ht hs d s).stash = s.stash ∧
    (pushEvent code sev c tag ht hs d s).vxe = s.vxe ∧
    (pushEvent code sev c tag ht hs d s).pin = s.pin ∧
    (pushEvent code sev c tag ht hs d s).seed = s.seed ∧
    (pushEvent code sev c tag ht hs d s).gens = s.gens ∧
    (pushEvent code sev c tag ht hs d s).reseeds = s.reseeds ∧
    (pushEvent code sev c tag ht hs d s).syn = s.syn ∧
    (pushEvent code sev c tag ht hs d s).err = s.err ∧
    (pushEvent code sev c tag ht hs d s).xmu = s.xmu ∧
    (pushEvent code sev c tag ht hs d s).xfer = s.xfer ∧
    (pushEvent code sev c tag ht hs d s).lnk = s.lnk ∧
    (pushEvent code sev c tag ht hs d s).rsl = s.rsl ∧
    (pushEvent code sev c tag ht hs d s).pwr = s.pwr ∧
    (pushEvent code sev c tag ht hs d s).tap = s.tap ∧
    (pushEvent code sev c tag ht hs d s).bezel = s.bezel ∧
    (pushEvent code sev c tag ht hs d s).evts = s.evts ∧
    (pushEvent code sev c tag ht hs d s).isolateHost = s.isolateHost ∧
    (pushEvent code sev c tag ht hs d s).isolateSeen = s.isolateSeen ∧
    (pushEvent code sev c tag ht hs d s).scratch = s.scratch ∧
    (pushEvent code sev c tag ht hs d s).nvs = s.nvs ∧
    (pushEvent code sev c tag ht hs d s).boot = s.boot ∧
    (pushEvent code sev c tag ht hs d s).stretched = s.stretched ∧
    (pushEvent code sev c tag ht hs d s).scrubAt = s.scrubAt :=
  ⟨rfl, rfl, rfl, rfl, rfl, rfl, rfl, rfl, rfl, rfl, rfl, rfl, rfl, rfl, rfl, rfl, rfl, rfl, rfl, rfl, rfl, rfl, rfl, rfl, rfl, rfl, rfl, rfl, rfl, rfl, rfl, rfl, rfl, rfl, rfl, rfl, rfl, rfl, rfl, rfl, rfl, rfl, rfl, rfl, rfl, rfl, rfl, rfl, rfl, rfl, rfl, rfl, rfl, rfl, rfl, rfl, rfl, rfl, rfl, rfl, rfl, rfl⟩

/-- What `takeFree` leaves. -/
@[simp] theorem takeFree_rest (n : Nat) :
    ((takeFree n s).2).pending = s.pending ∧
    ((takeFree n s).2).grade = s.grade ∧
    ((takeFree n s).2).fuseRows = s.fuseRows ∧
    ((takeFree n s).2).ec = s.ec ∧
    ((takeFree n s).2).wall = s.wall ∧
    ((takeFree n s).2).resetAt = s.resetAt ∧
    ((takeFree n s).2).factor = s.factor ∧
    ((takeFree n s).2).isolated = s.isolated ∧
    ((takeFree n s).2).resets = s.resets ∧
    ((takeFree n s).2).out = s.out ∧
    ((takeFree n s).2).pos = s.pos ∧
    ((takeFree n s).2).alias_ = s.alias_ ∧
    ((takeFree n s).2).dispatched = s.dispatched ∧
    ((takeFree n s).2).switching = s.switching ∧
    ((takeFree n s).2).switchFrom = s.switchFrom ∧
    ((takeFree n s).2).switchTo = s.switchTo ∧
    ((takeFree n s).2).switchAc = s.switchAc ∧
    ((takeFree n s).2).lastDisp = s.lastDisp ∧
    ((takeFree n s).2).quantumUs = s.quantumUs ∧
    ((takeFree n s).2).slips = s.slips ∧
    ((takeFree n s).2).switches = s.switches ∧
    ((takeFree n s).2).lastSwitchAc = s.lastSwitchAc ∧
    ((takeFree n s).2).dispatchedAt = s.dispatchedAt ∧
    ((takeFree n s).2).quantumOver = s.quantumOver ∧
    ((takeFree n s).2).ctxs = s.ctxs ∧
    ((takeFree n s).2).code = s.code ∧
    ((takeFree n s).2).aff = s.aff ∧
    ((takeFree n s).2).queues = s.queues ∧
    ((takeFree n s).2).headAt = s.headAt ∧
    ((takeFree n s).2).runs = s.runs ∧
    ((takeFree n s).2).spans = s.spans ∧
    ((takeFree n s).2).mem = s.mem ∧
    ((takeFree n s).2).ecc = s.ecc ∧
    ((takeFree n s).2).banks = s.banks ∧
    ((takeFree n s).2).cm = s.cm ∧
    ((takeFree n s).2).mxe = s.mxe ∧
    ((takeFree n s).2).mxeSaved = s.mxeSaved ∧
    ((takeFree n s).2).sct = s.sct ∧
    ((takeFree n s).2).stash = s.stash ∧
    ((takeFree n s).2).vxe = s.vxe ∧
    ((takeFree n s).2).pin = s.pin ∧
    ((takeFree n s).2).seed = s.seed ∧
    ((takeFree n s).2).gens = s.gens ∧
    ((takeFree n s).2).reseeds = s.reseeds ∧
    ((takeFree n s).2).syn = s.syn ∧
    ((takeFree n s).2).err = s.err ∧
    ((takeFree n s).2).hst = s.hst ∧
    ((takeFree n s).2).xmu = s.xmu ∧
    ((takeFree n s).2).xfer = s.xfer ∧
    ((takeFree n s).2).lnk = s.lnk ∧
    ((takeFree n s).2).rsl = s.rsl ∧
    ((takeFree n s).2).pwr = s.pwr ∧
    ((takeFree n s).2).tap = s.tap ∧
    ((takeFree n s).2).bezel = s.bezel ∧
    ((takeFree n s).2).evts = s.evts ∧
    ((takeFree n s).2).isolateHost = s.isolateHost ∧
    ((takeFree n s).2).isolateSeen = s.isolateSeen ∧
    ((takeFree n s).2).scratch = s.scratch ∧
    ((takeFree n s).2).nvs = s.nvs ∧
    ((takeFree n s).2).boot = s.boot ∧
    ((takeFree n s).2).stretched = s.stretched ∧
    ((takeFree n s).2).scrubAt = s.scrubAt :=
  ⟨rfl, rfl, rfl, rfl, rfl, rfl, rfl, rfl, rfl, rfl, rfl, rfl, rfl, rfl, rfl, rfl, rfl, rfl, rfl, rfl, rfl, rfl, rfl, rfl, rfl, rfl, rfl, rfl, rfl, rfl, rfl, rfl, rfl, rfl, rfl, rfl, rfl, rfl, rfl, rfl, rfl, rfl, rfl, rfl, rfl, rfl, rfl, rfl, rfl, rfl, rfl, rfl, rfl, rfl, rfl, rfl, rfl, rfl, rfl, rfl, rfl, rfl⟩

/-- What `modBank` leaves. -/
@[simp] theorem modBank_rest (b : Nat) (f : Bank → Bank) :
    (modBank s b f).pending = s.pending ∧
    (modBank s b f).grade = s.grade ∧
    (modBank s b f).fuseRows = s.fuseRows ∧
    (modBank s b f).ec = s.ec ∧
    (modBank s b f).wall = s.wall ∧
    (modBank s b f).resetAt = s.resetAt ∧
    (modBank s b f).factor = s.factor ∧
    (modBank s b f).isolated = s.isolated ∧
    (modBank s b f).resets = s.resets ∧
    (modBank s b f).free = s.free ∧
    (modBank s b f).out = s.out ∧
    (modBank s b f).pos = s.pos ∧
    (modBank s b f).alias_ = s.alias_ ∧
    (modBank s b f).dispatched = s.dispatched ∧
    (modBank s b f).switching = s.switching ∧
    (modBank s b f).switchFrom = s.switchFrom ∧
    (modBank s b f).switchTo = s.switchTo ∧
    (modBank s b f).switchAc = s.switchAc ∧
    (modBank s b f).lastDisp = s.lastDisp ∧
    (modBank s b f).quantumUs = s.quantumUs ∧
    (modBank s b f).slips = s.slips ∧
    (modBank s b f).switches = s.switches ∧
    (modBank s b f).lastSwitchAc = s.lastSwitchAc ∧
    (modBank s b f).dispatchedAt = s.dispatchedAt ∧
    (modBank s b f).quantumOver = s.quantumOver ∧
    (modBank s b f).ctxs = s.ctxs ∧
    (modBank s b f).code = s.code ∧
    (modBank s b f).aff = s.aff ∧
    (modBank s b f).queues = s.queues ∧
    (modBank s b f).headAt = s.headAt ∧
    (modBank s b f).runs = s.runs ∧
    (modBank s b f).spans = s.spans ∧
    (modBank s b f).mem = s.mem ∧
    (modBank s b f).ecc = s.ecc ∧
    (modBank s b f).cm = s.cm ∧
    (modBank s b f).mxe = s.mxe ∧
    (modBank s b f).mxeSaved = s.mxeSaved ∧
    (modBank s b f).sct = s.sct ∧
    (modBank s b f).stash = s.stash ∧
    (modBank s b f).vxe = s.vxe ∧
    (modBank s b f).pin = s.pin ∧
    (modBank s b f).seed = s.seed ∧
    (modBank s b f).gens = s.gens ∧
    (modBank s b f).reseeds = s.reseeds ∧
    (modBank s b f).syn = s.syn ∧
    (modBank s b f).err = s.err ∧
    (modBank s b f).hst = s.hst ∧
    (modBank s b f).xmu = s.xmu ∧
    (modBank s b f).xfer = s.xfer ∧
    (modBank s b f).lnk = s.lnk ∧
    (modBank s b f).rsl = s.rsl ∧
    (modBank s b f).pwr = s.pwr ∧
    (modBank s b f).tap = s.tap ∧
    (modBank s b f).bezel = s.bezel ∧
    (modBank s b f).evts = s.evts ∧
    (modBank s b f).isolateHost = s.isolateHost ∧
    (modBank s b f).isolateSeen = s.isolateSeen ∧
    (modBank s b f).scratch = s.scratch ∧
    (modBank s b f).nvs = s.nvs ∧
    (modBank s b f).boot = s.boot ∧
    (modBank s b f).stretched = s.stretched ∧
    (modBank s b f).scrubAt = s.scrubAt :=
  ⟨rfl, rfl, rfl, rfl, rfl, rfl, rfl, rfl, rfl, rfl, rfl, rfl, rfl, rfl, rfl, rfl, rfl, rfl, rfl, rfl, rfl, rfl, rfl, rfl, rfl, rfl, rfl, rfl, rfl, rfl, rfl, rfl, rfl, rfl, rfl, rfl, rfl, rfl, rfl, rfl, rfl, rfl, rfl, rfl, rfl, rfl, rfl, rfl, rfl, rfl, rfl, rfl, rfl, rfl, rfl, rfl, rfl, rfl, rfl, rfl, rfl, rfl⟩

/-- What `modSpan` leaves. -/
@[simp] theorem modSpan_rest (n : Nat) (f : Span → Span) :
    (modSpan n f s).pending = s.pending ∧
    (modSpan n f s).grade = s.grade ∧
    (modSpan n f s).fuseRows = s.fuseRows ∧
    (modSpan n f s).ec = s.ec ∧
    (modSpan n f s).wall = s.wall ∧
    (modSpan n f s).resetAt = s.resetAt ∧
    (modSpan n f s).factor = s.factor ∧
    (modSpan n f s).isolated = s.isolated ∧
    (modSpan n f s).resets = s.resets ∧
    (modSpan n f s).free = s.free ∧
    (modSpan n f s).out = s.out ∧
    (modSpan n f s).pos = s.pos ∧
    (modSpan n f s).alias_ = s.alias_ ∧
    (modSpan n f s).dispatched = s.dispatched ∧
    (modSpan n f s).switching = s.switching ∧
    (modSpan n f s).switchFrom = s.switchFrom ∧
    (modSpan n f s).switchTo = s.switchTo ∧
    (modSpan n f s).switchAc = s.switchAc ∧
    (modSpan n f s).lastDisp = s.lastDisp ∧
    (modSpan n f s).quantumUs = s.quantumUs ∧
    (modSpan n f s).slips = s.slips ∧
    (modSpan n f s).switches = s.switches ∧
    (modSpan n f s).lastSwitchAc = s.lastSwitchAc ∧
    (modSpan n f s).dispatchedAt = s.dispatchedAt ∧
    (modSpan n f s).quantumOver = s.quantumOver ∧
    (modSpan n f s).ctxs = s.ctxs ∧
    (modSpan n f s).code = s.code ∧
    (modSpan n f s).aff = s.aff ∧
    (modSpan n f s).queues = s.queues ∧
    (modSpan n f s).headAt = s.headAt ∧
    (modSpan n f s).runs = s.runs ∧
    (modSpan n f s).mem = s.mem ∧
    (modSpan n f s).ecc = s.ecc ∧
    (modSpan n f s).banks = s.banks ∧
    (modSpan n f s).cm = s.cm ∧
    (modSpan n f s).mxe = s.mxe ∧
    (modSpan n f s).mxeSaved = s.mxeSaved ∧
    (modSpan n f s).sct = s.sct ∧
    (modSpan n f s).stash = s.stash ∧
    (modSpan n f s).vxe = s.vxe ∧
    (modSpan n f s).pin = s.pin ∧
    (modSpan n f s).seed = s.seed ∧
    (modSpan n f s).gens = s.gens ∧
    (modSpan n f s).reseeds = s.reseeds ∧
    (modSpan n f s).syn = s.syn ∧
    (modSpan n f s).err = s.err ∧
    (modSpan n f s).hst = s.hst ∧
    (modSpan n f s).xmu = s.xmu ∧
    (modSpan n f s).xfer = s.xfer ∧
    (modSpan n f s).lnk = s.lnk ∧
    (modSpan n f s).rsl = s.rsl ∧
    (modSpan n f s).pwr = s.pwr ∧
    (modSpan n f s).tap = s.tap ∧
    (modSpan n f s).bezel = s.bezel ∧
    (modSpan n f s).evts = s.evts ∧
    (modSpan n f s).isolateHost = s.isolateHost ∧
    (modSpan n f s).isolateSeen = s.isolateSeen ∧
    (modSpan n f s).scratch = s.scratch ∧
    (modSpan n f s).nvs = s.nvs ∧
    (modSpan n f s).boot = s.boot ∧
    (modSpan n f s).stretched = s.stretched ∧
    (modSpan n f s).scrubAt = s.scrubAt :=
  ⟨rfl, rfl, rfl, rfl, rfl, rfl, rfl, rfl, rfl, rfl, rfl, rfl, rfl, rfl, rfl, rfl, rfl, rfl, rfl, rfl, rfl, rfl, rfl, rfl, rfl, rfl, rfl, rfl, rfl, rfl, rfl, rfl, rfl, rfl, rfl, rfl, rfl, rfl, rfl, rfl, rfl, rfl, rfl, rfl, rfl, rfl, rfl, rfl, rfl, rfl, rfl, rfl, rfl, rfl, rfl, rfl, rfl, rfl, rfl, rfl, rfl, rfl⟩

/-- What `modSct` leaves. -/
@[simp] theorem modSct_rest (n : Nat) (f : Sct → Sct) :
    (modSct n f s).pending = s.pending ∧
    (modSct n f s).grade = s.grade ∧
    (modSct n f s).fuseRows = s.fuseRows ∧
    (modSct n f s).ec = s.ec ∧
    (modSct n f s).wall = s.wall ∧
    (modSct n f s).resetAt = s.resetAt ∧
    (modSct n f s).factor = s.factor ∧
    (modSct n f s).isolated = s.isolated ∧
    (modSct n f s).resets = s.resets ∧
    (modSct n f s).free = s.free ∧
    (modSct n f s).out = s.out ∧
    (modSct n f s).pos = s.pos ∧
    (modSct n f s).alias_ = s.alias_ ∧
    (modSct n f s).dispatched = s.dispatched ∧
    (modSct n f s).switching = s.switching ∧
    (modSct n f s).switchFrom = s.switchFrom ∧
    (modSct n f s).switchTo = s.switchTo ∧
    (modSct n f s).switchAc = s.switchAc ∧
    (modSct n f s).lastDisp = s.lastDisp ∧
    (modSct n f s).quantumUs = s.quantumUs ∧
    (modSct n f s).slips = s.slips ∧
    (modSct n f s).switches = s.switches ∧
    (modSct n f s).lastSwitchAc = s.lastSwitchAc ∧
    (modSct n f s).dispatchedAt = s.dispatchedAt ∧
    (modSct n f s).quantumOver = s.quantumOver ∧
    (modSct n f s).ctxs = s.ctxs ∧
    (modSct n f s).code = s.code ∧
    (modSct n f s).aff = s.aff ∧
    (modSct n f s).queues = s.queues ∧
    (modSct n f s).headAt = s.headAt ∧
    (modSct n f s).runs = s.runs ∧
    (modSct n f s).spans = s.spans ∧
    (modSct n f s).mem = s.mem ∧
    (modSct n f s).ecc = s.ecc ∧
    (modSct n f s).banks = s.banks ∧
    (modSct n f s).cm = s.cm ∧
    (modSct n f s).mxe = s.mxe ∧
    (modSct n f s).mxeSaved = s.mxeSaved ∧
    (modSct n f s).stash = s.stash ∧
    (modSct n f s).vxe = s.vxe ∧
    (modSct n f s).pin = s.pin ∧
    (modSct n f s).seed = s.seed ∧
    (modSct n f s).gens = s.gens ∧
    (modSct n f s).reseeds = s.reseeds ∧
    (modSct n f s).syn = s.syn ∧
    (modSct n f s).err = s.err ∧
    (modSct n f s).hst = s.hst ∧
    (modSct n f s).xmu = s.xmu ∧
    (modSct n f s).xfer = s.xfer ∧
    (modSct n f s).lnk = s.lnk ∧
    (modSct n f s).rsl = s.rsl ∧
    (modSct n f s).pwr = s.pwr ∧
    (modSct n f s).tap = s.tap ∧
    (modSct n f s).bezel = s.bezel ∧
    (modSct n f s).evts = s.evts ∧
    (modSct n f s).isolateHost = s.isolateHost ∧
    (modSct n f s).isolateSeen = s.isolateSeen ∧
    (modSct n f s).scratch = s.scratch ∧
    (modSct n f s).nvs = s.nvs ∧
    (modSct n f s).boot = s.boot ∧
    (modSct n f s).stretched = s.stretched ∧
    (modSct n f s).scrubAt = s.scrubAt :=
  ⟨rfl, rfl, rfl, rfl, rfl, rfl, rfl, rfl, rfl, rfl, rfl, rfl, rfl, rfl, rfl, rfl, rfl, rfl, rfl, rfl, rfl, rfl, rfl, rfl, rfl, rfl, rfl, rfl, rfl, rfl, rfl, rfl, rfl, rfl, rfl, rfl, rfl, rfl, rfl, rfl, rfl, rfl, rfl, rfl, rfl, rfl, rfl, rfl, rfl, rfl, rfl, rfl, rfl, rfl, rfl, rfl, rfl, rfl, rfl, rfl, rfl, rfl⟩

/-- What `modMxe` leaves. -/
@[simp] theorem modMxe_rest (f : MxeSt → MxeSt) :
    (modMxe f s).pending = s.pending ∧
    (modMxe f s).grade = s.grade ∧
    (modMxe f s).fuseRows = s.fuseRows ∧
    (modMxe f s).ec = s.ec ∧
    (modMxe f s).wall = s.wall ∧
    (modMxe f s).resetAt = s.resetAt ∧
    (modMxe f s).factor = s.factor ∧
    (modMxe f s).isolated = s.isolated ∧
    (modMxe f s).resets = s.resets ∧
    (modMxe f s).free = s.free ∧
    (modMxe f s).out = s.out ∧
    (modMxe f s).pos = s.pos ∧
    (modMxe f s).alias_ = s.alias_ ∧
    (modMxe f s).dispatched = s.dispatched ∧
    (modMxe f s).switching = s.switching ∧
    (modMxe f s).switchFrom = s.switchFrom ∧
    (modMxe f s).switchTo = s.switchTo ∧
    (modMxe f s).switchAc = s.switchAc ∧
    (modMxe f s).lastDisp = s.lastDisp ∧
    (modMxe f s).quantumUs = s.quantumUs ∧
    (modMxe f s).slips = s.slips ∧
    (modMxe f s).switches = s.switches ∧
    (modMxe f s).lastSwitchAc = s.lastSwitchAc ∧
    (modMxe f s).dispatchedAt = s.dispatchedAt ∧
    (modMxe f s).quantumOver = s.quantumOver ∧
    (modMxe f s).ctxs = s.ctxs ∧
    (modMxe f s).code = s.code ∧
    (modMxe f s).aff = s.aff ∧
    (modMxe f s).queues = s.queues ∧
    (modMxe f s).headAt = s.headAt ∧
    (modMxe f s).runs = s.runs ∧
    (modMxe f s).spans = s.spans ∧
    (modMxe f s).mem = s.mem ∧
    (modMxe f s).ecc = s.ecc ∧
    (modMxe f s).banks = s.banks ∧
    (modMxe f s).cm = s.cm ∧
    (modMxe f s).mxeSaved = s.mxeSaved ∧
    (modMxe f s).sct = s.sct ∧
    (modMxe f s).stash = s.stash ∧
    (modMxe f s).vxe = s.vxe ∧
    (modMxe f s).pin = s.pin ∧
    (modMxe f s).seed = s.seed ∧
    (modMxe f s).gens = s.gens ∧
    (modMxe f s).reseeds = s.reseeds ∧
    (modMxe f s).syn = s.syn ∧
    (modMxe f s).err = s.err ∧
    (modMxe f s).hst = s.hst ∧
    (modMxe f s).xmu = s.xmu ∧
    (modMxe f s).xfer = s.xfer ∧
    (modMxe f s).lnk = s.lnk ∧
    (modMxe f s).rsl = s.rsl ∧
    (modMxe f s).pwr = s.pwr ∧
    (modMxe f s).tap = s.tap ∧
    (modMxe f s).bezel = s.bezel ∧
    (modMxe f s).evts = s.evts ∧
    (modMxe f s).isolateHost = s.isolateHost ∧
    (modMxe f s).isolateSeen = s.isolateSeen ∧
    (modMxe f s).scratch = s.scratch ∧
    (modMxe f s).nvs = s.nvs ∧
    (modMxe f s).boot = s.boot ∧
    (modMxe f s).stretched = s.stretched ∧
    (modMxe f s).scrubAt = s.scrubAt :=
  ⟨rfl, rfl, rfl, rfl, rfl, rfl, rfl, rfl, rfl, rfl, rfl, rfl, rfl, rfl, rfl, rfl, rfl, rfl, rfl, rfl, rfl, rfl, rfl, rfl, rfl, rfl, rfl, rfl, rfl, rfl, rfl, rfl, rfl, rfl, rfl, rfl, rfl, rfl, rfl, rfl, rfl, rfl, rfl, rfl, rfl, rfl, rfl, rfl, rfl, rfl, rfl, rfl, rfl, rfl, rfl, rfl, rfl, rfl, rfl, rfl, rfl, rfl⟩

/-- What `modStash` leaves. -/
@[simp] theorem modStash_rest (c : Nat) (f : Stash → Stash) :
    (modStash c f s).pending = s.pending ∧
    (modStash c f s).grade = s.grade ∧
    (modStash c f s).fuseRows = s.fuseRows ∧
    (modStash c f s).ec = s.ec ∧
    (modStash c f s).wall = s.wall ∧
    (modStash c f s).resetAt = s.resetAt ∧
    (modStash c f s).factor = s.factor ∧
    (modStash c f s).isolated = s.isolated ∧
    (modStash c f s).resets = s.resets ∧
    (modStash c f s).free = s.free ∧
    (modStash c f s).out = s.out ∧
    (modStash c f s).pos = s.pos ∧
    (modStash c f s).alias_ = s.alias_ ∧
    (modStash c f s).dispatched = s.dispatched ∧
    (modStash c f s).switching = s.switching ∧
    (modStash c f s).switchFrom = s.switchFrom ∧
    (modStash c f s).switchTo = s.switchTo ∧
    (modStash c f s).switchAc = s.switchAc ∧
    (modStash c f s).lastDisp = s.lastDisp ∧
    (modStash c f s).quantumUs = s.quantumUs ∧
    (modStash c f s).slips = s.slips ∧
    (modStash c f s).switches = s.switches ∧
    (modStash c f s).lastSwitchAc = s.lastSwitchAc ∧
    (modStash c f s).dispatchedAt = s.dispatchedAt ∧
    (modStash c f s).quantumOver = s.quantumOver ∧
    (modStash c f s).ctxs = s.ctxs ∧
    (modStash c f s).code = s.code ∧
    (modStash c f s).aff = s.aff ∧
    (modStash c f s).queues = s.queues ∧
    (modStash c f s).headAt = s.headAt ∧
    (modStash c f s).runs = s.runs ∧
    (modStash c f s).spans = s.spans ∧
    (modStash c f s).mem = s.mem ∧
    (modStash c f s).ecc = s.ecc ∧
    (modStash c f s).banks = s.banks ∧
    (modStash c f s).cm = s.cm ∧
    (modStash c f s).mxe = s.mxe ∧
    (modStash c f s).mxeSaved = s.mxeSaved ∧
    (modStash c f s).sct = s.sct ∧
    (modStash c f s).vxe = s.vxe ∧
    (modStash c f s).pin = s.pin ∧
    (modStash c f s).seed = s.seed ∧
    (modStash c f s).gens = s.gens ∧
    (modStash c f s).reseeds = s.reseeds ∧
    (modStash c f s).syn = s.syn ∧
    (modStash c f s).err = s.err ∧
    (modStash c f s).hst = s.hst ∧
    (modStash c f s).xmu = s.xmu ∧
    (modStash c f s).xfer = s.xfer ∧
    (modStash c f s).lnk = s.lnk ∧
    (modStash c f s).rsl = s.rsl ∧
    (modStash c f s).pwr = s.pwr ∧
    (modStash c f s).tap = s.tap ∧
    (modStash c f s).bezel = s.bezel ∧
    (modStash c f s).evts = s.evts ∧
    (modStash c f s).isolateHost = s.isolateHost ∧
    (modStash c f s).isolateSeen = s.isolateSeen ∧
    (modStash c f s).scratch = s.scratch ∧
    (modStash c f s).nvs = s.nvs ∧
    (modStash c f s).boot = s.boot ∧
    (modStash c f s).stretched = s.stretched ∧
    (modStash c f s).scrubAt = s.scrubAt :=
  ⟨rfl, rfl, rfl, rfl, rfl, rfl, rfl, rfl, rfl, rfl, rfl, rfl, rfl, rfl, rfl, rfl, rfl, rfl, rfl, rfl, rfl, rfl, rfl, rfl, rfl, rfl, rfl, rfl, rfl, rfl, rfl, rfl, rfl, rfl, rfl, rfl, rfl, rfl, rfl, rfl, rfl, rfl, rfl, rfl, rfl, rfl, rfl, rfl, rfl, rfl, rfl, rfl, rfl, rfl, rfl, rfl, rfl, rfl, rfl, rfl, rfl, rfl⟩

/-- What `modXmu` leaves. -/
@[simp] theorem modXmu_rest (f : XmuSt → XmuSt) :
    (modXmu f s).pending = s.pending ∧
    (modXmu f s).grade = s.grade ∧
    (modXmu f s).fuseRows = s.fuseRows ∧
    (modXmu f s).ec = s.ec ∧
    (modXmu f s).wall = s.wall ∧
    (modXmu f s).resetAt = s.resetAt ∧
    (modXmu f s).factor = s.factor ∧
    (modXmu f s).isolated = s.isolated ∧
    (modXmu f s).resets = s.resets ∧
    (modXmu f s).free = s.free ∧
    (modXmu f s).out = s.out ∧
    (modXmu f s).pos = s.pos ∧
    (modXmu f s).alias_ = s.alias_ ∧
    (modXmu f s).dispatched = s.dispatched ∧
    (modXmu f s).switching = s.switching ∧
    (modXmu f s).switchFrom = s.switchFrom ∧
    (modXmu f s).switchTo = s.switchTo ∧
    (modXmu f s).switchAc = s.switchAc ∧
    (modXmu f s).lastDisp = s.lastDisp ∧
    (modXmu f s).quantumUs = s.quantumUs ∧
    (modXmu f s).slips = s.slips ∧
    (modXmu f s).switches = s.switches ∧
    (modXmu f s).lastSwitchAc = s.lastSwitchAc ∧
    (modXmu f s).dispatchedAt = s.dispatchedAt ∧
    (modXmu f s).quantumOver = s.quantumOver ∧
    (modXmu f s).ctxs = s.ctxs ∧
    (modXmu f s).code = s.code ∧
    (modXmu f s).aff = s.aff ∧
    (modXmu f s).queues = s.queues ∧
    (modXmu f s).headAt = s.headAt ∧
    (modXmu f s).runs = s.runs ∧
    (modXmu f s).spans = s.spans ∧
    (modXmu f s).mem = s.mem ∧
    (modXmu f s).ecc = s.ecc ∧
    (modXmu f s).banks = s.banks ∧
    (modXmu f s).cm = s.cm ∧
    (modXmu f s).mxe = s.mxe ∧
    (modXmu f s).mxeSaved = s.mxeSaved ∧
    (modXmu f s).sct = s.sct ∧
    (modXmu f s).stash = s.stash ∧
    (modXmu f s).vxe = s.vxe ∧
    (modXmu f s).pin = s.pin ∧
    (modXmu f s).seed = s.seed ∧
    (modXmu f s).gens = s.gens ∧
    (modXmu f s).reseeds = s.reseeds ∧
    (modXmu f s).syn = s.syn ∧
    (modXmu f s).err = s.err ∧
    (modXmu f s).hst = s.hst ∧
    (modXmu f s).xfer = s.xfer ∧
    (modXmu f s).lnk = s.lnk ∧
    (modXmu f s).rsl = s.rsl ∧
    (modXmu f s).pwr = s.pwr ∧
    (modXmu f s).tap = s.tap ∧
    (modXmu f s).bezel = s.bezel ∧
    (modXmu f s).evts = s.evts ∧
    (modXmu f s).isolateHost = s.isolateHost ∧
    (modXmu f s).isolateSeen = s.isolateSeen ∧
    (modXmu f s).scratch = s.scratch ∧
    (modXmu f s).nvs = s.nvs ∧
    (modXmu f s).boot = s.boot ∧
    (modXmu f s).stretched = s.stretched ∧
    (modXmu f s).scrubAt = s.scrubAt :=
  ⟨rfl, rfl, rfl, rfl, rfl, rfl, rfl, rfl, rfl, rfl, rfl, rfl, rfl, rfl, rfl, rfl, rfl, rfl, rfl, rfl, rfl, rfl, rfl, rfl, rfl, rfl, rfl, rfl, rfl, rfl, rfl, rfl, rfl, rfl, rfl, rfl, rfl, rfl, rfl, rfl, rfl, rfl, rfl, rfl, rfl, rfl, rfl, rfl, rfl, rfl, rfl, rfl, rfl, rfl, rfl, rfl, rfl, rfl, rfl, rfl, rfl, rfl⟩

/-- What `modJob` leaves. -/
@[simp] theorem modJob_rest (n : Nat) (f : Job → Job) :
    (modJob n f s).pending = s.pending ∧
    (modJob n f s).grade = s.grade ∧
    (modJob n f s).fuseRows = s.fuseRows ∧
    (modJob n f s).ec = s.ec ∧
    (modJob n f s).wall = s.wall ∧
    (modJob n f s).resetAt = s.resetAt ∧
    (modJob n f s).factor = s.factor ∧
    (modJob n f s).isolated = s.isolated ∧
    (modJob n f s).resets = s.resets ∧
    (modJob n f s).free = s.free ∧
    (modJob n f s).out = s.out ∧
    (modJob n f s).pos = s.pos ∧
    (modJob n f s).alias_ = s.alias_ ∧
    (modJob n f s).dispatched = s.dispatched ∧
    (modJob n f s).switching = s.switching ∧
    (modJob n f s).switchFrom = s.switchFrom ∧
    (modJob n f s).switchTo = s.switchTo ∧
    (modJob n f s).switchAc = s.switchAc ∧
    (modJob n f s).lastDisp = s.lastDisp ∧
    (modJob n f s).quantumUs = s.quantumUs ∧
    (modJob n f s).slips = s.slips ∧
    (modJob n f s).switches = s.switches ∧
    (modJob n f s).lastSwitchAc = s.lastSwitchAc ∧
    (modJob n f s).dispatchedAt = s.dispatchedAt ∧
    (modJob n f s).quantumOver = s.quantumOver ∧
    (modJob n f s).ctxs = s.ctxs ∧
    (modJob n f s).code = s.code ∧
    (modJob n f s).aff = s.aff ∧
    (modJob n f s).queues = s.queues ∧
    (modJob n f s).headAt = s.headAt ∧
    (modJob n f s).runs = s.runs ∧
    (modJob n f s).spans = s.spans ∧
    (modJob n f s).mem = s.mem ∧
    (modJob n f s).ecc = s.ecc ∧
    (modJob n f s).banks = s.banks ∧
    (modJob n f s).cm = s.cm ∧
    (modJob n f s).mxe = s.mxe ∧
    (modJob n f s).mxeSaved = s.mxeSaved ∧
    (modJob n f s).sct = s.sct ∧
    (modJob n f s).stash = s.stash ∧
    (modJob n f s).vxe = s.vxe ∧
    (modJob n f s).pin = s.pin ∧
    (modJob n f s).seed = s.seed ∧
    (modJob n f s).gens = s.gens ∧
    (modJob n f s).reseeds = s.reseeds ∧
    (modJob n f s).syn = s.syn ∧
    (modJob n f s).err = s.err ∧
    (modJob n f s).hst = s.hst ∧
    (modJob n f s).xmu = s.xmu ∧
    (modJob n f s).lnk = s.lnk ∧
    (modJob n f s).rsl = s.rsl ∧
    (modJob n f s).pwr = s.pwr ∧
    (modJob n f s).tap = s.tap ∧
    (modJob n f s).bezel = s.bezel ∧
    (modJob n f s).evts = s.evts ∧
    (modJob n f s).isolateHost = s.isolateHost ∧
    (modJob n f s).isolateSeen = s.isolateSeen ∧
    (modJob n f s).scratch = s.scratch ∧
    (modJob n f s).nvs = s.nvs ∧
    (modJob n f s).boot = s.boot ∧
    (modJob n f s).stretched = s.stretched ∧
    (modJob n f s).scrubAt = s.scrubAt :=
  ⟨rfl, rfl, rfl, rfl, rfl, rfl, rfl, rfl, rfl, rfl, rfl, rfl, rfl, rfl, rfl, rfl, rfl, rfl, rfl, rfl, rfl, rfl, rfl, rfl, rfl, rfl, rfl, rfl, rfl, rfl, rfl, rfl, rfl, rfl, rfl, rfl, rfl, rfl, rfl, rfl, rfl, rfl, rfl, rfl, rfl, rfl, rfl, rfl, rfl, rfl, rfl, rfl, rfl, rfl, rfl, rfl, rfl, rfl, rfl, rfl, rfl, rfl⟩

/-- What `modPort` leaves. -/
@[simp] theorem modPort_rest (p : Nat) (f : PortSt → PortSt) :
    (modPort p f s).pending = s.pending ∧
    (modPort p f s).grade = s.grade ∧
    (modPort p f s).fuseRows = s.fuseRows ∧
    (modPort p f s).ec = s.ec ∧
    (modPort p f s).wall = s.wall ∧
    (modPort p f s).resetAt = s.resetAt ∧
    (modPort p f s).factor = s.factor ∧
    (modPort p f s).isolated = s.isolated ∧
    (modPort p f s).resets = s.resets ∧
    (modPort p f s).free = s.free ∧
    (modPort p f s).out = s.out ∧
    (modPort p f s).pos = s.pos ∧
    (modPort p f s).alias_ = s.alias_ ∧
    (modPort p f s).dispatched = s.dispatched ∧
    (modPort p f s).switching = s.switching ∧
    (modPort p f s).switchFrom = s.switchFrom ∧
    (modPort p f s).switchTo = s.switchTo ∧
    (modPort p f s).switchAc = s.switchAc ∧
    (modPort p f s).lastDisp = s.lastDisp ∧
    (modPort p f s).quantumUs = s.quantumUs ∧
    (modPort p f s).slips = s.slips ∧
    (modPort p f s).switches = s.switches ∧
    (modPort p f s).lastSwitchAc = s.lastSwitchAc ∧
    (modPort p f s).dispatchedAt = s.dispatchedAt ∧
    (modPort p f s).quantumOver = s.quantumOver ∧
    (modPort p f s).ctxs = s.ctxs ∧
    (modPort p f s).code = s.code ∧
    (modPort p f s).aff = s.aff ∧
    (modPort p f s).queues = s.queues ∧
    (modPort p f s).headAt = s.headAt ∧
    (modPort p f s).runs = s.runs ∧
    (modPort p f s).spans = s.spans ∧
    (modPort p f s).mem = s.mem ∧
    (modPort p f s).ecc = s.ecc ∧
    (modPort p f s).banks = s.banks ∧
    (modPort p f s).cm = s.cm ∧
    (modPort p f s).mxe = s.mxe ∧
    (modPort p f s).mxeSaved = s.mxeSaved ∧
    (modPort p f s).sct = s.sct ∧
    (modPort p f s).stash = s.stash ∧
    (modPort p f s).vxe = s.vxe ∧
    (modPort p f s).pin = s.pin ∧
    (modPort p f s).seed = s.seed ∧
    (modPort p f s).gens = s.gens ∧
    (modPort p f s).reseeds = s.reseeds ∧
    (modPort p f s).syn = s.syn ∧
    (modPort p f s).err = s.err ∧
    (modPort p f s).hst = s.hst ∧
    (modPort p f s).xmu = s.xmu ∧
    (modPort p f s).xfer = s.xfer ∧
    (modPort p f s).rsl = s.rsl ∧
    (modPort p f s).pwr = s.pwr ∧
    (modPort p f s).tap = s.tap ∧
    (modPort p f s).bezel = s.bezel ∧
    (modPort p f s).evts = s.evts ∧
    (modPort p f s).isolateHost = s.isolateHost ∧
    (modPort p f s).isolateSeen = s.isolateSeen ∧
    (modPort p f s).scratch = s.scratch ∧
    (modPort p f s).nvs = s.nvs ∧
    (modPort p f s).boot = s.boot ∧
    (modPort p f s).stretched = s.stretched ∧
    (modPort p f s).scrubAt = s.scrubAt :=
  ⟨rfl, rfl, rfl, rfl, rfl, rfl, rfl, rfl, rfl, rfl, rfl, rfl, rfl, rfl, rfl, rfl, rfl, rfl, rfl, rfl, rfl, rfl, rfl, rfl, rfl, rfl, rfl, rfl, rfl, rfl, rfl, rfl, rfl, rfl, rfl, rfl, rfl, rfl, rfl, rfl, rfl, rfl, rfl, rfl, rfl, rfl, rfl, rfl, rfl, rfl, rfl, rfl, rfl, rfl, rfl, rfl, rfl, rfl, rfl, rfl, rfl, rfl⟩

/-- What `modHoist` leaves. -/
@[simp] theorem modHoist_rest (h : Nat) (f : Hoist → Hoist) :
    (modHoist h f s).pending = s.pending ∧
    (modHoist h f s).grade = s.grade ∧
    (modHoist h f s).fuseRows = s.fuseRows ∧
    (modHoist h f s).ec = s.ec ∧
    (modHoist h f s).wall = s.wall ∧
    (modHoist h f s).resetAt = s.resetAt ∧
    (modHoist h f s).factor = s.factor ∧
    (modHoist h f s).isolated = s.isolated ∧
    (modHoist h f s).resets = s.resets ∧
    (modHoist h f s).free = s.free ∧
    (modHoist h f s).out = s.out ∧
    (modHoist h f s).pos = s.pos ∧
    (modHoist h f s).alias_ = s.alias_ ∧
    (modHoist h f s).dispatched = s.dispatched ∧
    (modHoist h f s).switching = s.switching ∧
    (modHoist h f s).switchFrom = s.switchFrom ∧
    (modHoist h f s).switchTo = s.switchTo ∧
    (modHoist h f s).switchAc = s.switchAc ∧
    (modHoist h f s).lastDisp = s.lastDisp ∧
    (modHoist h f s).quantumUs = s.quantumUs ∧
    (modHoist h f s).slips = s.slips ∧
    (modHoist h f s).switches = s.switches ∧
    (modHoist h f s).lastSwitchAc = s.lastSwitchAc ∧
    (modHoist h f s).dispatchedAt = s.dispatchedAt ∧
    (modHoist h f s).quantumOver = s.quantumOver ∧
    (modHoist h f s).ctxs = s.ctxs ∧
    (modHoist h f s).code = s.code ∧
    (modHoist h f s).aff = s.aff ∧
    (modHoist h f s).queues = s.queues ∧
    (modHoist h f s).headAt = s.headAt ∧
    (modHoist h f s).runs = s.runs ∧
    (modHoist h f s).spans = s.spans ∧
    (modHoist h f s).mem = s.mem ∧
    (modHoist h f s).ecc = s.ecc ∧
    (modHoist h f s).banks = s.banks ∧
    (modHoist h f s).cm = s.cm ∧
    (modHoist h f s).mxe = s.mxe ∧
    (modHoist h f s).mxeSaved = s.mxeSaved ∧
    (modHoist h f s).sct = s.sct ∧
    (modHoist h f s).stash = s.stash ∧
    (modHoist h f s).vxe = s.vxe ∧
    (modHoist h f s).pin = s.pin ∧
    (modHoist h f s).seed = s.seed ∧
    (modHoist h f s).gens = s.gens ∧
    (modHoist h f s).reseeds = s.reseeds ∧
    (modHoist h f s).err = s.err ∧
    (modHoist h f s).hst = s.hst ∧
    (modHoist h f s).xmu = s.xmu ∧
    (modHoist h f s).xfer = s.xfer ∧
    (modHoist h f s).lnk = s.lnk ∧
    (modHoist h f s).rsl = s.rsl ∧
    (modHoist h f s).pwr = s.pwr ∧
    (modHoist h f s).tap = s.tap ∧
    (modHoist h f s).bezel = s.bezel ∧
    (modHoist h f s).evts = s.evts ∧
    (modHoist h f s).isolateHost = s.isolateHost ∧
    (modHoist h f s).isolateSeen = s.isolateSeen ∧
    (modHoist h f s).scratch = s.scratch ∧
    (modHoist h f s).nvs = s.nvs ∧
    (modHoist h f s).boot = s.boot ∧
    (modHoist h f s).stretched = s.stretched ∧
    (modHoist h f s).scrubAt = s.scrubAt :=
  ⟨rfl, rfl, rfl, rfl, rfl, rfl, rfl, rfl, rfl, rfl, rfl, rfl, rfl, rfl, rfl, rfl, rfl, rfl, rfl, rfl, rfl, rfl, rfl, rfl, rfl, rfl, rfl, rfl, rfl, rfl, rfl, rfl, rfl, rfl, rfl, rfl, rfl, rfl, rfl, rfl, rfl, rfl, rfl, rfl, rfl, rfl, rfl, rfl, rfl, rfl, rfl, rfl, rfl, rfl, rfl, rfl, rfl, rfl, rfl, rfl, rfl, rfl⟩

/-- What `setPennant` leaves. -/
@[simp] theorem setPennant_rest (p v : Nat) :
    (setPennant p v s).pending = s.pending ∧
    (setPennant p v s).grade = s.grade ∧
    (setPennant p v s).fuseRows = s.fuseRows ∧
    (setPennant p v s).ec = s.ec ∧
    (setPennant p v s).wall = s.wall ∧
    (setPennant p v s).resetAt = s.resetAt ∧
    (setPennant p v s).factor = s.factor ∧
    (setPennant p v s).isolated = s.isolated ∧
    (setPennant p v s).resets = s.resets ∧
    (setPennant p v s).free = s.free ∧
    (setPennant p v s).out = s.out ∧
    (setPennant p v s).pos = s.pos ∧
    (setPennant p v s).alias_ = s.alias_ ∧
    (setPennant p v s).dispatched = s.dispatched ∧
    (setPennant p v s).switching = s.switching ∧
    (setPennant p v s).switchFrom = s.switchFrom ∧
    (setPennant p v s).switchTo = s.switchTo ∧
    (setPennant p v s).switchAc = s.switchAc ∧
    (setPennant p v s).lastDisp = s.lastDisp ∧
    (setPennant p v s).quantumUs = s.quantumUs ∧
    (setPennant p v s).slips = s.slips ∧
    (setPennant p v s).switches = s.switches ∧
    (setPennant p v s).lastSwitchAc = s.lastSwitchAc ∧
    (setPennant p v s).dispatchedAt = s.dispatchedAt ∧
    (setPennant p v s).quantumOver = s.quantumOver ∧
    (setPennant p v s).ctxs = s.ctxs ∧
    (setPennant p v s).code = s.code ∧
    (setPennant p v s).aff = s.aff ∧
    (setPennant p v s).queues = s.queues ∧
    (setPennant p v s).headAt = s.headAt ∧
    (setPennant p v s).runs = s.runs ∧
    (setPennant p v s).spans = s.spans ∧
    (setPennant p v s).mem = s.mem ∧
    (setPennant p v s).ecc = s.ecc ∧
    (setPennant p v s).banks = s.banks ∧
    (setPennant p v s).cm = s.cm ∧
    (setPennant p v s).mxe = s.mxe ∧
    (setPennant p v s).mxeSaved = s.mxeSaved ∧
    (setPennant p v s).sct = s.sct ∧
    (setPennant p v s).stash = s.stash ∧
    (setPennant p v s).vxe = s.vxe ∧
    (setPennant p v s).pin = s.pin ∧
    (setPennant p v s).seed = s.seed ∧
    (setPennant p v s).gens = s.gens ∧
    (setPennant p v s).reseeds = s.reseeds ∧
    (setPennant p v s).err = s.err ∧
    (setPennant p v s).hst = s.hst ∧
    (setPennant p v s).xmu = s.xmu ∧
    (setPennant p v s).xfer = s.xfer ∧
    (setPennant p v s).lnk = s.lnk ∧
    (setPennant p v s).rsl = s.rsl ∧
    (setPennant p v s).pwr = s.pwr ∧
    (setPennant p v s).tap = s.tap ∧
    (setPennant p v s).bezel = s.bezel ∧
    (setPennant p v s).evts = s.evts ∧
    (setPennant p v s).isolateHost = s.isolateHost ∧
    (setPennant p v s).isolateSeen = s.isolateSeen ∧
    (setPennant p v s).scratch = s.scratch ∧
    (setPennant p v s).nvs = s.nvs ∧
    (setPennant p v s).boot = s.boot ∧
    (setPennant p v s).stretched = s.stretched ∧
    (setPennant p v s).scrubAt = s.scrubAt :=
  ⟨rfl, rfl, rfl, rfl, rfl, rfl, rfl, rfl, rfl, rfl, rfl, rfl, rfl, rfl, rfl, rfl, rfl, rfl, rfl, rfl, rfl, rfl, rfl, rfl, rfl, rfl, rfl, rfl, rfl, rfl, rfl, rfl, rfl, rfl, rfl, rfl, rfl, rfl, rfl, rfl, rfl, rfl, rfl, rfl, rfl, rfl, rfl, rfl, rfl, rfl, rfl, rfl, rfl, rfl, rfl, rfl, rfl, rfl, rfl, rfl, rfl, rfl⟩

/-- What `dropWait` leaves. -/
@[simp] theorem dropWait_rest (w : PWait) :
    (dropWait w s).pending = s.pending ∧
    (dropWait w s).grade = s.grade ∧
    (dropWait w s).fuseRows = s.fuseRows ∧
    (dropWait w s).ec = s.ec ∧
    (dropWait w s).wall = s.wall ∧
    (dropWait w s).resetAt = s.resetAt ∧
    (dropWait w s).factor = s.factor ∧
    (dropWait w s).isolated = s.isolated ∧
    (dropWait w s).resets = s.resets ∧
    (dropWait w s).free = s.free ∧
    (dropWait w s).out = s.out ∧
    (dropWait w s).pos = s.pos ∧
    (dropWait w s).alias_ = s.alias_ ∧
    (dropWait w s).dispatched = s.dispatched ∧
    (dropWait w s).switching = s.switching ∧
    (dropWait w s).switchFrom = s.switchFrom ∧
    (dropWait w s).switchTo = s.switchTo ∧
    (dropWait w s).switchAc = s.switchAc ∧
    (dropWait w s).lastDisp = s.lastDisp ∧
    (dropWait w s).quantumUs = s.quantumUs ∧
    (dropWait w s).slips = s.slips ∧
    (dropWait w s).switches = s.switches ∧
    (dropWait w s).lastSwitchAc = s.lastSwitchAc ∧
    (dropWait w s).dispatchedAt = s.dispatchedAt ∧
    (dropWait w s).quantumOver = s.quantumOver ∧
    (dropWait w s).ctxs = s.ctxs ∧
    (dropWait w s).code = s.code ∧
    (dropWait w s).aff = s.aff ∧
    (dropWait w s).queues = s.queues ∧
    (dropWait w s).headAt = s.headAt ∧
    (dropWait w s).runs = s.runs ∧
    (dropWait w s).spans = s.spans ∧
    (dropWait w s).mem = s.mem ∧
    (dropWait w s).ecc = s.ecc ∧
    (dropWait w s).banks = s.banks ∧
    (dropWait w s).cm = s.cm ∧
    (dropWait w s).mxe = s.mxe ∧
    (dropWait w s).mxeSaved = s.mxeSaved ∧
    (dropWait w s).sct = s.sct ∧
    (dropWait w s).stash = s.stash ∧
    (dropWait w s).vxe = s.vxe ∧
    (dropWait w s).pin = s.pin ∧
    (dropWait w s).seed = s.seed ∧
    (dropWait w s).gens = s.gens ∧
    (dropWait w s).reseeds = s.reseeds ∧
    (dropWait w s).err = s.err ∧
    (dropWait w s).hst = s.hst ∧
    (dropWait w s).xmu = s.xmu ∧
    (dropWait w s).xfer = s.xfer ∧
    (dropWait w s).lnk = s.lnk ∧
    (dropWait w s).rsl = s.rsl ∧
    (dropWait w s).pwr = s.pwr ∧
    (dropWait w s).tap = s.tap ∧
    (dropWait w s).bezel = s.bezel ∧
    (dropWait w s).evts = s.evts ∧
    (dropWait w s).isolateHost = s.isolateHost ∧
    (dropWait w s).isolateSeen = s.isolateSeen ∧
    (dropWait w s).scratch = s.scratch ∧
    (dropWait w s).nvs = s.nvs ∧
    (dropWait w s).boot = s.boot ∧
    (dropWait w s).stretched = s.stretched ∧
    (dropWait w s).scrubAt = s.scrubAt :=
  ⟨rfl, rfl, rfl, rfl, rfl, rfl, rfl, rfl, rfl, rfl, rfl, rfl, rfl, rfl, rfl, rfl, rfl, rfl, rfl, rfl, rfl, rfl, rfl, rfl, rfl, rfl, rfl, rfl, rfl, rfl, rfl, rfl, rfl, rfl, rfl, rfl, rfl, rfl, rfl, rfl, rfl, rfl, rfl, rfl, rfl, rfl, rfl, rfl, rfl, rfl, rfl, rfl, rfl, rfl, rfl, rfl, rfl, rfl, rfl, rfl, rfl, rfl⟩

/-- What `emit` leaves. -/
@[simp] theorem emit_rest (o : OutEv) :
    (emit o s).pending = s.pending ∧
    (emit o s).grade = s.grade ∧
    (emit o s).fuseRows = s.fuseRows ∧
    (emit o s).ec = s.ec ∧
    (emit o s).wall = s.wall ∧
    (emit o s).resetAt = s.resetAt ∧
    (emit o s).factor = s.factor ∧
    (emit o s).isolated = s.isolated ∧
    (emit o s).resets = s.resets ∧
    (emit o s).free = s.free ∧
    (emit o s).pos = s.pos ∧
    (emit o s).alias_ = s.alias_ ∧
    (emit o s).dispatched = s.dispatched ∧
    (emit o s).switching = s.switching ∧
    (emit o s).switchFrom = s.switchFrom ∧
    (emit o s).switchTo = s.switchTo ∧
    (emit o s).switchAc = s.switchAc ∧
    (emit o s).lastDisp = s.lastDisp ∧
    (emit o s).quantumUs = s.quantumUs ∧
    (emit o s).slips = s.slips ∧
    (emit o s).switches = s.switches ∧
    (emit o s).lastSwitchAc = s.lastSwitchAc ∧
    (emit o s).dispatchedAt = s.dispatchedAt ∧
    (emit o s).quantumOver = s.quantumOver ∧
    (emit o s).ctxs = s.ctxs ∧
    (emit o s).code = s.code ∧
    (emit o s).aff = s.aff ∧
    (emit o s).queues = s.queues ∧
    (emit o s).headAt = s.headAt ∧
    (emit o s).runs = s.runs ∧
    (emit o s).spans = s.spans ∧
    (emit o s).mem = s.mem ∧
    (emit o s).ecc = s.ecc ∧
    (emit o s).banks = s.banks ∧
    (emit o s).cm = s.cm ∧
    (emit o s).mxe = s.mxe ∧
    (emit o s).mxeSaved = s.mxeSaved ∧
    (emit o s).sct = s.sct ∧
    (emit o s).stash = s.stash ∧
    (emit o s).vxe = s.vxe ∧
    (emit o s).pin = s.pin ∧
    (emit o s).seed = s.seed ∧
    (emit o s).gens = s.gens ∧
    (emit o s).reseeds = s.reseeds ∧
    (emit o s).syn = s.syn ∧
    (emit o s).err = s.err ∧
    (emit o s).hst = s.hst ∧
    (emit o s).xmu = s.xmu ∧
    (emit o s).xfer = s.xfer ∧
    (emit o s).lnk = s.lnk ∧
    (emit o s).rsl = s.rsl ∧
    (emit o s).pwr = s.pwr ∧
    (emit o s).tap = s.tap ∧
    (emit o s).bezel = s.bezel ∧
    (emit o s).evts = s.evts ∧
    (emit o s).isolateHost = s.isolateHost ∧
    (emit o s).isolateSeen = s.isolateSeen ∧
    (emit o s).scratch = s.scratch ∧
    (emit o s).nvs = s.nvs ∧
    (emit o s).boot = s.boot ∧
    (emit o s).stretched = s.stretched ∧
    (emit o s).scrubAt = s.scrubAt :=
  ⟨rfl, rfl, rfl, rfl, rfl, rfl, rfl, rfl, rfl, rfl, rfl, rfl, rfl, rfl, rfl, rfl, rfl, rfl, rfl, rfl, rfl, rfl, rfl, rfl, rfl, rfl, rfl, rfl, rfl, rfl, rfl, rfl, rfl, rfl, rfl, rfl, rfl, rfl, rfl, rfl, rfl, rfl, rfl, rfl, rfl, rfl, rfl, rfl, rfl, rfl, rfl, rfl, rfl, rfl, rfl, rfl, rfl, rfl, rfl, rfl, rfl, rfl⟩

/-- What `modHst` leaves. -/
@[simp] theorem modHst_rest (f : HstSt → HstSt) :
    (modHst f s).pending = s.pending ∧
    (modHst f s).grade = s.grade ∧
    (modHst f s).fuseRows = s.fuseRows ∧
    (modHst f s).ec = s.ec ∧
    (modHst f s).wall = s.wall ∧
    (modHst f s).resetAt = s.resetAt ∧
    (modHst f s).factor = s.factor ∧
    (modHst f s).isolated = s.isolated ∧
    (modHst f s).resets = s.resets ∧
    (modHst f s).free = s.free ∧
    (modHst f s).out = s.out ∧
    (modHst f s).pos = s.pos ∧
    (modHst f s).alias_ = s.alias_ ∧
    (modHst f s).dispatched = s.dispatched ∧
    (modHst f s).switching = s.switching ∧
    (modHst f s).switchFrom = s.switchFrom ∧
    (modHst f s).switchTo = s.switchTo ∧
    (modHst f s).switchAc = s.switchAc ∧
    (modHst f s).lastDisp = s.lastDisp ∧
    (modHst f s).quantumUs = s.quantumUs ∧
    (modHst f s).slips = s.slips ∧
    (modHst f s).switches = s.switches ∧
    (modHst f s).lastSwitchAc = s.lastSwitchAc ∧
    (modHst f s).dispatchedAt = s.dispatchedAt ∧
    (modHst f s).quantumOver = s.quantumOver ∧
    (modHst f s).ctxs = s.ctxs ∧
    (modHst f s).code = s.code ∧
    (modHst f s).aff = s.aff ∧
    (modHst f s).queues = s.queues ∧
    (modHst f s).headAt = s.headAt ∧
    (modHst f s).runs = s.runs ∧
    (modHst f s).spans = s.spans ∧
    (modHst f s).mem = s.mem ∧
    (modHst f s).ecc = s.ecc ∧
    (modHst f s).banks = s.banks ∧
    (modHst f s).cm = s.cm ∧
    (modHst f s).mxe = s.mxe ∧
    (modHst f s).mxeSaved = s.mxeSaved ∧
    (modHst f s).sct = s.sct ∧
    (modHst f s).stash = s.stash ∧
    (modHst f s).vxe = s.vxe ∧
    (modHst f s).pin = s.pin ∧
    (modHst f s).seed = s.seed ∧
    (modHst f s).gens = s.gens ∧
    (modHst f s).reseeds = s.reseeds ∧
    (modHst f s).syn = s.syn ∧
    (modHst f s).err = s.err ∧
    (modHst f s).xmu = s.xmu ∧
    (modHst f s).xfer = s.xfer ∧
    (modHst f s).lnk = s.lnk ∧
    (modHst f s).rsl = s.rsl ∧
    (modHst f s).pwr = s.pwr ∧
    (modHst f s).tap = s.tap ∧
    (modHst f s).bezel = s.bezel ∧
    (modHst f s).evts = s.evts ∧
    (modHst f s).isolateHost = s.isolateHost ∧
    (modHst f s).isolateSeen = s.isolateSeen ∧
    (modHst f s).scratch = s.scratch ∧
    (modHst f s).nvs = s.nvs ∧
    (modHst f s).boot = s.boot ∧
    (modHst f s).stretched = s.stretched ∧
    (modHst f s).scrubAt = s.scrubAt :=
  ⟨rfl, rfl, rfl, rfl, rfl, rfl, rfl, rfl, rfl, rfl, rfl, rfl, rfl, rfl, rfl, rfl, rfl, rfl, rfl, rfl, rfl, rfl, rfl, rfl, rfl, rfl, rfl, rfl, rfl, rfl, rfl, rfl, rfl, rfl, rfl, rfl, rfl, rfl, rfl, rfl, rfl, rfl, rfl, rfl, rfl, rfl, rfl, rfl, rfl, rfl, rfl, rfl, rfl, rfl, rfl, rfl, rfl, rfl, rfl, rfl, rfl, rfl⟩

/-- What `modRing` leaves. -/
@[simp] theorem modRing_rest (r : Nat) (f : SRing → SRing) :
    (modRing r f s).pending = s.pending ∧
    (modRing r f s).grade = s.grade ∧
    (modRing r f s).fuseRows = s.fuseRows ∧
    (modRing r f s).ec = s.ec ∧
    (modRing r f s).wall = s.wall ∧
    (modRing r f s).resetAt = s.resetAt ∧
    (modRing r f s).factor = s.factor ∧
    (modRing r f s).isolated = s.isolated ∧
    (modRing r f s).resets = s.resets ∧
    (modRing r f s).free = s.free ∧
    (modRing r f s).out = s.out ∧
    (modRing r f s).pos = s.pos ∧
    (modRing r f s).alias_ = s.alias_ ∧
    (modRing r f s).dispatched = s.dispatched ∧
    (modRing r f s).switching = s.switching ∧
    (modRing r f s).switchFrom = s.switchFrom ∧
    (modRing r f s).switchTo = s.switchTo ∧
    (modRing r f s).switchAc = s.switchAc ∧
    (modRing r f s).lastDisp = s.lastDisp ∧
    (modRing r f s).quantumUs = s.quantumUs ∧
    (modRing r f s).slips = s.slips ∧
    (modRing r f s).switches = s.switches ∧
    (modRing r f s).lastSwitchAc = s.lastSwitchAc ∧
    (modRing r f s).dispatchedAt = s.dispatchedAt ∧
    (modRing r f s).quantumOver = s.quantumOver ∧
    (modRing r f s).ctxs = s.ctxs ∧
    (modRing r f s).code = s.code ∧
    (modRing r f s).aff = s.aff ∧
    (modRing r f s).queues = s.queues ∧
    (modRing r f s).headAt = s.headAt ∧
    (modRing r f s).runs = s.runs ∧
    (modRing r f s).spans = s.spans ∧
    (modRing r f s).mem = s.mem ∧
    (modRing r f s).ecc = s.ecc ∧
    (modRing r f s).banks = s.banks ∧
    (modRing r f s).cm = s.cm ∧
    (modRing r f s).mxe = s.mxe ∧
    (modRing r f s).mxeSaved = s.mxeSaved ∧
    (modRing r f s).sct = s.sct ∧
    (modRing r f s).stash = s.stash ∧
    (modRing r f s).vxe = s.vxe ∧
    (modRing r f s).pin = s.pin ∧
    (modRing r f s).seed = s.seed ∧
    (modRing r f s).gens = s.gens ∧
    (modRing r f s).reseeds = s.reseeds ∧
    (modRing r f s).syn = s.syn ∧
    (modRing r f s).err = s.err ∧
    (modRing r f s).xmu = s.xmu ∧
    (modRing r f s).xfer = s.xfer ∧
    (modRing r f s).lnk = s.lnk ∧
    (modRing r f s).rsl = s.rsl ∧
    (modRing r f s).pwr = s.pwr ∧
    (modRing r f s).tap = s.tap ∧
    (modRing r f s).bezel = s.bezel ∧
    (modRing r f s).evts = s.evts ∧
    (modRing r f s).isolateHost = s.isolateHost ∧
    (modRing r f s).isolateSeen = s.isolateSeen ∧
    (modRing r f s).scratch = s.scratch ∧
    (modRing r f s).nvs = s.nvs ∧
    (modRing r f s).boot = s.boot ∧
    (modRing r f s).stretched = s.stretched ∧
    (modRing r f s).scrubAt = s.scrubAt :=
  ⟨rfl, rfl, rfl, rfl, rfl, rfl, rfl, rfl, rfl, rfl, rfl, rfl, rfl, rfl, rfl, rfl, rfl, rfl, rfl, rfl, rfl, rfl, rfl, rfl, rfl, rfl, rfl, rfl, rfl, rfl, rfl, rfl, rfl, rfl, rfl, rfl, rfl, rfl, rfl, rfl, rfl, rfl, rfl, rfl, rfl, rfl, rfl, rfl, rfl, rfl, rfl, rfl, rfl, rfl, rfl, rfl, rfl, rfl, rfl, rfl, rfl, rfl⟩

/-- What `modCm` leaves. -/
@[simp] theorem modCm_rest (f : CmemCtl → CmemCtl) :
    (modCm f s).pending = s.pending ∧
    (modCm f s).grade = s.grade ∧
    (modCm f s).fuseRows = s.fuseRows ∧
    (modCm f s).ec = s.ec ∧
    (modCm f s).wall = s.wall ∧
    (modCm f s).resetAt = s.resetAt ∧
    (modCm f s).factor = s.factor ∧
    (modCm f s).isolated = s.isolated ∧
    (modCm f s).resets = s.resets ∧
    (modCm f s).free = s.free ∧
    (modCm f s).out = s.out ∧
    (modCm f s).pos = s.pos ∧
    (modCm f s).alias_ = s.alias_ ∧
    (modCm f s).dispatched = s.dispatched ∧
    (modCm f s).switching = s.switching ∧
    (modCm f s).switchFrom = s.switchFrom ∧
    (modCm f s).switchTo = s.switchTo ∧
    (modCm f s).switchAc = s.switchAc ∧
    (modCm f s).lastDisp = s.lastDisp ∧
    (modCm f s).quantumUs = s.quantumUs ∧
    (modCm f s).slips = s.slips ∧
    (modCm f s).switches = s.switches ∧
    (modCm f s).lastSwitchAc = s.lastSwitchAc ∧
    (modCm f s).dispatchedAt = s.dispatchedAt ∧
    (modCm f s).quantumOver = s.quantumOver ∧
    (modCm f s).ctxs = s.ctxs ∧
    (modCm f s).code = s.code ∧
    (modCm f s).aff = s.aff ∧
    (modCm f s).queues = s.queues ∧
    (modCm f s).headAt = s.headAt ∧
    (modCm f s).runs = s.runs ∧
    (modCm f s).spans = s.spans ∧
    (modCm f s).mem = s.mem ∧
    (modCm f s).ecc = s.ecc ∧
    (modCm f s).banks = s.banks ∧
    (modCm f s).mxe = s.mxe ∧
    (modCm f s).mxeSaved = s.mxeSaved ∧
    (modCm f s).sct = s.sct ∧
    (modCm f s).stash = s.stash ∧
    (modCm f s).vxe = s.vxe ∧
    (modCm f s).pin = s.pin ∧
    (modCm f s).seed = s.seed ∧
    (modCm f s).gens = s.gens ∧
    (modCm f s).reseeds = s.reseeds ∧
    (modCm f s).syn = s.syn ∧
    (modCm f s).err = s.err ∧
    (modCm f s).hst = s.hst ∧
    (modCm f s).xmu = s.xmu ∧
    (modCm f s).xfer = s.xfer ∧
    (modCm f s).lnk = s.lnk ∧
    (modCm f s).rsl = s.rsl ∧
    (modCm f s).pwr = s.pwr ∧
    (modCm f s).tap = s.tap ∧
    (modCm f s).bezel = s.bezel ∧
    (modCm f s).evts = s.evts ∧
    (modCm f s).isolateHost = s.isolateHost ∧
    (modCm f s).isolateSeen = s.isolateSeen ∧
    (modCm f s).scratch = s.scratch ∧
    (modCm f s).nvs = s.nvs ∧
    (modCm f s).boot = s.boot ∧
    (modCm f s).stretched = s.stretched ∧
    (modCm f s).scrubAt = s.scrubAt :=
  ⟨rfl, rfl, rfl, rfl, rfl, rfl, rfl, rfl, rfl, rfl, rfl, rfl, rfl, rfl, rfl, rfl, rfl, rfl, rfl, rfl, rfl, rfl, rfl, rfl, rfl, rfl, rfl, rfl, rfl, rfl, rfl, rfl, rfl, rfl, rfl, rfl, rfl, rfl, rfl, rfl, rfl, rfl, rfl, rfl, rfl, rfl, rfl, rfl, rfl, rfl, rfl, rfl, rfl, rfl, rfl, rfl, rfl, rfl, rfl, rfl, rfl, rfl⟩

/-- What `modPwr` leaves. -/
@[simp] theorem modPwr_rest (f : PwrSt → PwrSt) :
    (modPwr f s).pending = s.pending ∧
    (modPwr f s).grade = s.grade ∧
    (modPwr f s).fuseRows = s.fuseRows ∧
    (modPwr f s).ec = s.ec ∧
    (modPwr f s).wall = s.wall ∧
    (modPwr f s).resetAt = s.resetAt ∧
    (modPwr f s).factor = s.factor ∧
    (modPwr f s).isolated = s.isolated ∧
    (modPwr f s).resets = s.resets ∧
    (modPwr f s).free = s.free ∧
    (modPwr f s).out = s.out ∧
    (modPwr f s).pos = s.pos ∧
    (modPwr f s).alias_ = s.alias_ ∧
    (modPwr f s).dispatched = s.dispatched ∧
    (modPwr f s).switching = s.switching ∧
    (modPwr f s).switchFrom = s.switchFrom ∧
    (modPwr f s).switchTo = s.switchTo ∧
    (modPwr f s).switchAc = s.switchAc ∧
    (modPwr f s).lastDisp = s.lastDisp ∧
    (modPwr f s).quantumUs = s.quantumUs ∧
    (modPwr f s).slips = s.slips ∧
    (modPwr f s).switches = s.switches ∧
    (modPwr f s).lastSwitchAc = s.lastSwitchAc ∧
    (modPwr f s).dispatchedAt = s.dispatchedAt ∧
    (modPwr f s).quantumOver = s.quantumOver ∧
    (modPwr f s).ctxs = s.ctxs ∧
    (modPwr f s).code = s.code ∧
    (modPwr f s).aff = s.aff ∧
    (modPwr f s).queues = s.queues ∧
    (modPwr f s).headAt = s.headAt ∧
    (modPwr f s).runs = s.runs ∧
    (modPwr f s).spans = s.spans ∧
    (modPwr f s).mem = s.mem ∧
    (modPwr f s).ecc = s.ecc ∧
    (modPwr f s).banks = s.banks ∧
    (modPwr f s).cm = s.cm ∧
    (modPwr f s).mxe = s.mxe ∧
    (modPwr f s).mxeSaved = s.mxeSaved ∧
    (modPwr f s).sct = s.sct ∧
    (modPwr f s).stash = s.stash ∧
    (modPwr f s).vxe = s.vxe ∧
    (modPwr f s).pin = s.pin ∧
    (modPwr f s).seed = s.seed ∧
    (modPwr f s).gens = s.gens ∧
    (modPwr f s).reseeds = s.reseeds ∧
    (modPwr f s).syn = s.syn ∧
    (modPwr f s).err = s.err ∧
    (modPwr f s).hst = s.hst ∧
    (modPwr f s).xmu = s.xmu ∧
    (modPwr f s).xfer = s.xfer ∧
    (modPwr f s).lnk = s.lnk ∧
    (modPwr f s).rsl = s.rsl ∧
    (modPwr f s).tap = s.tap ∧
    (modPwr f s).bezel = s.bezel ∧
    (modPwr f s).evts = s.evts ∧
    (modPwr f s).isolateHost = s.isolateHost ∧
    (modPwr f s).isolateSeen = s.isolateSeen ∧
    (modPwr f s).scratch = s.scratch ∧
    (modPwr f s).nvs = s.nvs ∧
    (modPwr f s).boot = s.boot ∧
    (modPwr f s).stretched = s.stretched ∧
    (modPwr f s).scrubAt = s.scrubAt :=
  ⟨rfl, rfl, rfl, rfl, rfl, rfl, rfl, rfl, rfl, rfl, rfl, rfl, rfl, rfl, rfl, rfl, rfl, rfl, rfl, rfl, rfl, rfl, rfl, rfl, rfl, rfl, rfl, rfl, rfl, rfl, rfl, rfl, rfl, rfl, rfl, rfl, rfl, rfl, rfl, rfl, rfl, rfl, rfl, rfl, rfl, rfl, rfl, rfl, rfl, rfl, rfl, rfl, rfl, rfl, rfl, rfl, rfl, rfl, rfl, rfl, rfl, rfl⟩

/-- What `modEvt` leaves. -/
@[simp] theorem modEvt_rest (i : Nat) (f : EvtIn → EvtIn) :
    (modEvt i f s).pending = s.pending ∧
    (modEvt i f s).grade = s.grade ∧
    (modEvt i f s).fuseRows = s.fuseRows ∧
    (modEvt i f s).ec = s.ec ∧
    (modEvt i f s).wall = s.wall ∧
    (modEvt i f s).resetAt = s.resetAt ∧
    (modEvt i f s).factor = s.factor ∧
    (modEvt i f s).isolated = s.isolated ∧
    (modEvt i f s).resets = s.resets ∧
    (modEvt i f s).free = s.free ∧
    (modEvt i f s).out = s.out ∧
    (modEvt i f s).pos = s.pos ∧
    (modEvt i f s).alias_ = s.alias_ ∧
    (modEvt i f s).dispatched = s.dispatched ∧
    (modEvt i f s).switching = s.switching ∧
    (modEvt i f s).switchFrom = s.switchFrom ∧
    (modEvt i f s).switchTo = s.switchTo ∧
    (modEvt i f s).switchAc = s.switchAc ∧
    (modEvt i f s).lastDisp = s.lastDisp ∧
    (modEvt i f s).quantumUs = s.quantumUs ∧
    (modEvt i f s).slips = s.slips ∧
    (modEvt i f s).switches = s.switches ∧
    (modEvt i f s).lastSwitchAc = s.lastSwitchAc ∧
    (modEvt i f s).dispatchedAt = s.dispatchedAt ∧
    (modEvt i f s).quantumOver = s.quantumOver ∧
    (modEvt i f s).ctxs = s.ctxs ∧
    (modEvt i f s).code = s.code ∧
    (modEvt i f s).aff = s.aff ∧
    (modEvt i f s).queues = s.queues ∧
    (modEvt i f s).headAt = s.headAt ∧
    (modEvt i f s).runs = s.runs ∧
    (modEvt i f s).spans = s.spans ∧
    (modEvt i f s).mem = s.mem ∧
    (modEvt i f s).ecc = s.ecc ∧
    (modEvt i f s).banks = s.banks ∧
    (modEvt i f s).cm = s.cm ∧
    (modEvt i f s).mxe = s.mxe ∧
    (modEvt i f s).mxeSaved = s.mxeSaved ∧
    (modEvt i f s).sct = s.sct ∧
    (modEvt i f s).stash = s.stash ∧
    (modEvt i f s).vxe = s.vxe ∧
    (modEvt i f s).pin = s.pin ∧
    (modEvt i f s).seed = s.seed ∧
    (modEvt i f s).gens = s.gens ∧
    (modEvt i f s).reseeds = s.reseeds ∧
    (modEvt i f s).syn = s.syn ∧
    (modEvt i f s).err = s.err ∧
    (modEvt i f s).hst = s.hst ∧
    (modEvt i f s).xmu = s.xmu ∧
    (modEvt i f s).xfer = s.xfer ∧
    (modEvt i f s).lnk = s.lnk ∧
    (modEvt i f s).rsl = s.rsl ∧
    (modEvt i f s).pwr = s.pwr ∧
    (modEvt i f s).tap = s.tap ∧
    (modEvt i f s).bezel = s.bezel ∧
    (modEvt i f s).isolateHost = s.isolateHost ∧
    (modEvt i f s).isolateSeen = s.isolateSeen ∧
    (modEvt i f s).scratch = s.scratch ∧
    (modEvt i f s).nvs = s.nvs ∧
    (modEvt i f s).boot = s.boot ∧
    (modEvt i f s).stretched = s.stretched ∧
    (modEvt i f s).scrubAt = s.scrubAt :=
  ⟨rfl, rfl, rfl, rfl, rfl, rfl, rfl, rfl, rfl, rfl, rfl, rfl, rfl, rfl, rfl, rfl, rfl, rfl, rfl, rfl, rfl, rfl, rfl, rfl, rfl, rfl, rfl, rfl, rfl, rfl, rfl, rfl, rfl, rfl, rfl, rfl, rfl, rfl, rfl, rfl, rfl, rfl, rfl, rfl, rfl, rfl, rfl, rfl, rfl, rfl, rfl, rfl, rfl, rfl, rfl, rfl, rfl, rfl, rfl, rfl, rfl, rfl⟩

/-- What `modNvs` leaves. -/
@[simp] theorem modNvs_rest (f : NvsSt → NvsSt) :
    (modNvs f s).pending = s.pending ∧
    (modNvs f s).grade = s.grade ∧
    (modNvs f s).fuseRows = s.fuseRows ∧
    (modNvs f s).ec = s.ec ∧
    (modNvs f s).wall = s.wall ∧
    (modNvs f s).resetAt = s.resetAt ∧
    (modNvs f s).factor = s.factor ∧
    (modNvs f s).isolated = s.isolated ∧
    (modNvs f s).resets = s.resets ∧
    (modNvs f s).free = s.free ∧
    (modNvs f s).out = s.out ∧
    (modNvs f s).pos = s.pos ∧
    (modNvs f s).alias_ = s.alias_ ∧
    (modNvs f s).dispatched = s.dispatched ∧
    (modNvs f s).switching = s.switching ∧
    (modNvs f s).switchFrom = s.switchFrom ∧
    (modNvs f s).switchTo = s.switchTo ∧
    (modNvs f s).switchAc = s.switchAc ∧
    (modNvs f s).lastDisp = s.lastDisp ∧
    (modNvs f s).quantumUs = s.quantumUs ∧
    (modNvs f s).slips = s.slips ∧
    (modNvs f s).switches = s.switches ∧
    (modNvs f s).lastSwitchAc = s.lastSwitchAc ∧
    (modNvs f s).dispatchedAt = s.dispatchedAt ∧
    (modNvs f s).quantumOver = s.quantumOver ∧
    (modNvs f s).ctxs = s.ctxs ∧
    (modNvs f s).code = s.code ∧
    (modNvs f s).aff = s.aff ∧
    (modNvs f s).queues = s.queues ∧
    (modNvs f s).headAt = s.headAt ∧
    (modNvs f s).runs = s.runs ∧
    (modNvs f s).spans = s.spans ∧
    (modNvs f s).mem = s.mem ∧
    (modNvs f s).ecc = s.ecc ∧
    (modNvs f s).banks = s.banks ∧
    (modNvs f s).cm = s.cm ∧
    (modNvs f s).mxe = s.mxe ∧
    (modNvs f s).mxeSaved = s.mxeSaved ∧
    (modNvs f s).sct = s.sct ∧
    (modNvs f s).stash = s.stash ∧
    (modNvs f s).vxe = s.vxe ∧
    (modNvs f s).pin = s.pin ∧
    (modNvs f s).seed = s.seed ∧
    (modNvs f s).gens = s.gens ∧
    (modNvs f s).reseeds = s.reseeds ∧
    (modNvs f s).syn = s.syn ∧
    (modNvs f s).err = s.err ∧
    (modNvs f s).hst = s.hst ∧
    (modNvs f s).xmu = s.xmu ∧
    (modNvs f s).xfer = s.xfer ∧
    (modNvs f s).lnk = s.lnk ∧
    (modNvs f s).rsl = s.rsl ∧
    (modNvs f s).pwr = s.pwr ∧
    (modNvs f s).tap = s.tap ∧
    (modNvs f s).bezel = s.bezel ∧
    (modNvs f s).evts = s.evts ∧
    (modNvs f s).isolateHost = s.isolateHost ∧
    (modNvs f s).isolateSeen = s.isolateSeen ∧
    (modNvs f s).scratch = s.scratch ∧
    (modNvs f s).boot = s.boot ∧
    (modNvs f s).stretched = s.stretched ∧
    (modNvs f s).scrubAt = s.scrubAt :=
  ⟨rfl, rfl, rfl, rfl, rfl, rfl, rfl, rfl, rfl, rfl, rfl, rfl, rfl, rfl, rfl, rfl, rfl, rfl, rfl, rfl, rfl, rfl, rfl, rfl, rfl, rfl, rfl, rfl, rfl, rfl, rfl, rfl, rfl, rfl, rfl, rfl, rfl, rfl, rfl, rfl, rfl, rfl, rfl, rfl, rfl, rfl, rfl, rfl, rfl, rfl, rfl, rfl, rfl, rfl, rfl, rfl, rfl, rfl, rfl, rfl, rfl, rfl⟩

/-- What `modBezel` leaves. -/
@[simp] theorem modBezel_rest (f : BezelSt → BezelSt) :
    (modBezel f s).pending = s.pending ∧
    (modBezel f s).grade = s.grade ∧
    (modBezel f s).fuseRows = s.fuseRows ∧
    (modBezel f s).ec = s.ec ∧
    (modBezel f s).wall = s.wall ∧
    (modBezel f s).resetAt = s.resetAt ∧
    (modBezel f s).factor = s.factor ∧
    (modBezel f s).isolated = s.isolated ∧
    (modBezel f s).resets = s.resets ∧
    (modBezel f s).free = s.free ∧
    (modBezel f s).out = s.out ∧
    (modBezel f s).pos = s.pos ∧
    (modBezel f s).alias_ = s.alias_ ∧
    (modBezel f s).dispatched = s.dispatched ∧
    (modBezel f s).switching = s.switching ∧
    (modBezel f s).switchFrom = s.switchFrom ∧
    (modBezel f s).switchTo = s.switchTo ∧
    (modBezel f s).switchAc = s.switchAc ∧
    (modBezel f s).lastDisp = s.lastDisp ∧
    (modBezel f s).quantumUs = s.quantumUs ∧
    (modBezel f s).slips = s.slips ∧
    (modBezel f s).switches = s.switches ∧
    (modBezel f s).lastSwitchAc = s.lastSwitchAc ∧
    (modBezel f s).dispatchedAt = s.dispatchedAt ∧
    (modBezel f s).quantumOver = s.quantumOver ∧
    (modBezel f s).ctxs = s.ctxs ∧
    (modBezel f s).code = s.code ∧
    (modBezel f s).aff = s.aff ∧
    (modBezel f s).queues = s.queues ∧
    (modBezel f s).headAt = s.headAt ∧
    (modBezel f s).runs = s.runs ∧
    (modBezel f s).spans = s.spans ∧
    (modBezel f s).mem = s.mem ∧
    (modBezel f s).ecc = s.ecc ∧
    (modBezel f s).banks = s.banks ∧
    (modBezel f s).cm = s.cm ∧
    (modBezel f s).mxe = s.mxe ∧
    (modBezel f s).mxeSaved = s.mxeSaved ∧
    (modBezel f s).sct = s.sct ∧
    (modBezel f s).stash = s.stash ∧
    (modBezel f s).vxe = s.vxe ∧
    (modBezel f s).pin = s.pin ∧
    (modBezel f s).seed = s.seed ∧
    (modBezel f s).gens = s.gens ∧
    (modBezel f s).reseeds = s.reseeds ∧
    (modBezel f s).syn = s.syn ∧
    (modBezel f s).err = s.err ∧
    (modBezel f s).hst = s.hst ∧
    (modBezel f s).xmu = s.xmu ∧
    (modBezel f s).xfer = s.xfer ∧
    (modBezel f s).lnk = s.lnk ∧
    (modBezel f s).rsl = s.rsl ∧
    (modBezel f s).pwr = s.pwr ∧
    (modBezel f s).tap = s.tap ∧
    (modBezel f s).evts = s.evts ∧
    (modBezel f s).isolateHost = s.isolateHost ∧
    (modBezel f s).isolateSeen = s.isolateSeen ∧
    (modBezel f s).scratch = s.scratch ∧
    (modBezel f s).nvs = s.nvs ∧
    (modBezel f s).boot = s.boot ∧
    (modBezel f s).stretched = s.stretched ∧
    (modBezel f s).scrubAt = s.scrubAt :=
  ⟨rfl, rfl, rfl, rfl, rfl, rfl, rfl, rfl, rfl, rfl, rfl, rfl, rfl, rfl, rfl, rfl, rfl, rfl, rfl, rfl, rfl, rfl, rfl, rfl, rfl, rfl, rfl, rfl, rfl, rfl, rfl, rfl, rfl, rfl, rfl, rfl, rfl, rfl, rfl, rfl, rfl, rfl, rfl, rfl, rfl, rfl, rfl, rfl, rfl, rfl, rfl, rfl, rfl, rfl, rfl, rfl, rfl, rfl, rfl, rfl, rfl, rfl⟩

/-- What `modHealth` leaves. -/
@[simp] theorem modHealth_rest (f : HealthSt → HealthSt) :
    (modHealth f s).pending = s.pending ∧
    (modHealth f s).grade = s.grade ∧
    (modHealth f s).fuseRows = s.fuseRows ∧
    (modHealth f s).ec = s.ec ∧
    (modHealth f s).wall = s.wall ∧
    (modHealth f s).resetAt = s.resetAt ∧
    (modHealth f s).factor = s.factor ∧
    (modHealth f s).isolated = s.isolated ∧
    (modHealth f s).resets = s.resets ∧
    (modHealth f s).free = s.free ∧
    (modHealth f s).out = s.out ∧
    (modHealth f s).pos = s.pos ∧
    (modHealth f s).alias_ = s.alias_ ∧
    (modHealth f s).dispatched = s.dispatched ∧
    (modHealth f s).switching = s.switching ∧
    (modHealth f s).switchFrom = s.switchFrom ∧
    (modHealth f s).switchTo = s.switchTo ∧
    (modHealth f s).switchAc = s.switchAc ∧
    (modHealth f s).lastDisp = s.lastDisp ∧
    (modHealth f s).quantumUs = s.quantumUs ∧
    (modHealth f s).slips = s.slips ∧
    (modHealth f s).switches = s.switches ∧
    (modHealth f s).lastSwitchAc = s.lastSwitchAc ∧
    (modHealth f s).dispatchedAt = s.dispatchedAt ∧
    (modHealth f s).quantumOver = s.quantumOver ∧
    (modHealth f s).ctxs = s.ctxs ∧
    (modHealth f s).code = s.code ∧
    (modHealth f s).aff = s.aff ∧
    (modHealth f s).queues = s.queues ∧
    (modHealth f s).headAt = s.headAt ∧
    (modHealth f s).runs = s.runs ∧
    (modHealth f s).spans = s.spans ∧
    (modHealth f s).mem = s.mem ∧
    (modHealth f s).ecc = s.ecc ∧
    (modHealth f s).banks = s.banks ∧
    (modHealth f s).cm = s.cm ∧
    (modHealth f s).mxe = s.mxe ∧
    (modHealth f s).mxeSaved = s.mxeSaved ∧
    (modHealth f s).sct = s.sct ∧
    (modHealth f s).stash = s.stash ∧
    (modHealth f s).vxe = s.vxe ∧
    (modHealth f s).pin = s.pin ∧
    (modHealth f s).seed = s.seed ∧
    (modHealth f s).gens = s.gens ∧
    (modHealth f s).reseeds = s.reseeds ∧
    (modHealth f s).syn = s.syn ∧
    (modHealth f s).err = s.err ∧
    (modHealth f s).hst = s.hst ∧
    (modHealth f s).xmu = s.xmu ∧
    (modHealth f s).xfer = s.xfer ∧
    (modHealth f s).lnk = s.lnk ∧
    (modHealth f s).pwr = s.pwr ∧
    (modHealth f s).tap = s.tap ∧
    (modHealth f s).bezel = s.bezel ∧
    (modHealth f s).evts = s.evts ∧
    (modHealth f s).isolateHost = s.isolateHost ∧
    (modHealth f s).isolateSeen = s.isolateSeen ∧
    (modHealth f s).scratch = s.scratch ∧
    (modHealth f s).nvs = s.nvs ∧
    (modHealth f s).boot = s.boot ∧
    (modHealth f s).stretched = s.stretched ∧
    (modHealth f s).scrubAt = s.scrubAt :=
  ⟨rfl, rfl, rfl, rfl, rfl, rfl, rfl, rfl, rfl, rfl, rfl, rfl, rfl, rfl, rfl, rfl, rfl, rfl, rfl, rfl, rfl, rfl, rfl, rfl, rfl, rfl, rfl, rfl, rfl, rfl, rfl, rfl, rfl, rfl, rfl, rfl, rfl, rfl, rfl, rfl, rfl, rfl, rfl, rfl, rfl, rfl, rfl, rfl, rfl, rfl, rfl, rfl, rfl, rfl, rfl, rfl, rfl, rfl, rfl, rfl, rfl, rfl⟩

/-- What `modSnap` leaves. -/
@[simp] theorem modSnap_rest (f : SnapSt → SnapSt) :
    (modSnap f s).pending = s.pending ∧
    (modSnap f s).grade = s.grade ∧
    (modSnap f s).fuseRows = s.fuseRows ∧
    (modSnap f s).ec = s.ec ∧
    (modSnap f s).wall = s.wall ∧
    (modSnap f s).resetAt = s.resetAt ∧
    (modSnap f s).factor = s.factor ∧
    (modSnap f s).isolated = s.isolated ∧
    (modSnap f s).resets = s.resets ∧
    (modSnap f s).free = s.free ∧
    (modSnap f s).out = s.out ∧
    (modSnap f s).pos = s.pos ∧
    (modSnap f s).alias_ = s.alias_ ∧
    (modSnap f s).dispatched = s.dispatched ∧
    (modSnap f s).switching = s.switching ∧
    (modSnap f s).switchFrom = s.switchFrom ∧
    (modSnap f s).switchTo = s.switchTo ∧
    (modSnap f s).switchAc = s.switchAc ∧
    (modSnap f s).lastDisp = s.lastDisp ∧
    (modSnap f s).quantumUs = s.quantumUs ∧
    (modSnap f s).slips = s.slips ∧
    (modSnap f s).switches = s.switches ∧
    (modSnap f s).lastSwitchAc = s.lastSwitchAc ∧
    (modSnap f s).dispatchedAt = s.dispatchedAt ∧
    (modSnap f s).quantumOver = s.quantumOver ∧
    (modSnap f s).ctxs = s.ctxs ∧
    (modSnap f s).code = s.code ∧
    (modSnap f s).aff = s.aff ∧
    (modSnap f s).queues = s.queues ∧
    (modSnap f s).headAt = s.headAt ∧
    (modSnap f s).runs = s.runs ∧
    (modSnap f s).spans = s.spans ∧
    (modSnap f s).mem = s.mem ∧
    (modSnap f s).ecc = s.ecc ∧
    (modSnap f s).banks = s.banks ∧
    (modSnap f s).cm = s.cm ∧
    (modSnap f s).mxe = s.mxe ∧
    (modSnap f s).mxeSaved = s.mxeSaved ∧
    (modSnap f s).sct = s.sct ∧
    (modSnap f s).stash = s.stash ∧
    (modSnap f s).vxe = s.vxe ∧
    (modSnap f s).pin = s.pin ∧
    (modSnap f s).seed = s.seed ∧
    (modSnap f s).gens = s.gens ∧
    (modSnap f s).reseeds = s.reseeds ∧
    (modSnap f s).syn = s.syn ∧
    (modSnap f s).err = s.err ∧
    (modSnap f s).hst = s.hst ∧
    (modSnap f s).xmu = s.xmu ∧
    (modSnap f s).xfer = s.xfer ∧
    (modSnap f s).lnk = s.lnk ∧
    (modSnap f s).pwr = s.pwr ∧
    (modSnap f s).tap = s.tap ∧
    (modSnap f s).bezel = s.bezel ∧
    (modSnap f s).evts = s.evts ∧
    (modSnap f s).isolateHost = s.isolateHost ∧
    (modSnap f s).isolateSeen = s.isolateSeen ∧
    (modSnap f s).scratch = s.scratch ∧
    (modSnap f s).nvs = s.nvs ∧
    (modSnap f s).boot = s.boot ∧
    (modSnap f s).stretched = s.stretched ∧
    (modSnap f s).scrubAt = s.scrubAt :=
  ⟨rfl, rfl, rfl, rfl, rfl, rfl, rfl, rfl, rfl, rfl, rfl, rfl, rfl, rfl, rfl, rfl, rfl, rfl, rfl, rfl, rfl, rfl, rfl, rfl, rfl, rfl, rfl, rfl, rfl, rfl, rfl, rfl, rfl, rfl, rfl, rfl, rfl, rfl, rfl, rfl, rfl, rfl, rfl, rfl, rfl, rfl, rfl, rfl, rfl, rfl, rfl, rfl, rfl, rfl, rfl, rfl, rfl, rfl, rfl, rfl, rfl, rfl⟩

/-- What `modFill` leaves. -/
@[simp] theorem modFill_rest (f : FillSt → FillSt) :
    (modFill f s).pending = s.pending ∧
    (modFill f s).grade = s.grade ∧
    (modFill f s).fuseRows = s.fuseRows ∧
    (modFill f s).ec = s.ec ∧
    (modFill f s).wall = s.wall ∧
    (modFill f s).resetAt = s.resetAt ∧
    (modFill f s).factor = s.factor ∧
    (modFill f s).isolated = s.isolated ∧
    (modFill f s).resets = s.resets ∧
    (modFill f s).free = s.free ∧
    (modFill f s).out = s.out ∧
    (modFill f s).pos = s.pos ∧
    (modFill f s).alias_ = s.alias_ ∧
    (modFill f s).dispatched = s.dispatched ∧
    (modFill f s).switching = s.switching ∧
    (modFill f s).switchFrom = s.switchFrom ∧
    (modFill f s).switchTo = s.switchTo ∧
    (modFill f s).switchAc = s.switchAc ∧
    (modFill f s).lastDisp = s.lastDisp ∧
    (modFill f s).quantumUs = s.quantumUs ∧
    (modFill f s).slips = s.slips ∧
    (modFill f s).switches = s.switches ∧
    (modFill f s).lastSwitchAc = s.lastSwitchAc ∧
    (modFill f s).dispatchedAt = s.dispatchedAt ∧
    (modFill f s).quantumOver = s.quantumOver ∧
    (modFill f s).ctxs = s.ctxs ∧
    (modFill f s).code = s.code ∧
    (modFill f s).aff = s.aff ∧
    (modFill f s).queues = s.queues ∧
    (modFill f s).headAt = s.headAt ∧
    (modFill f s).runs = s.runs ∧
    (modFill f s).spans = s.spans ∧
    (modFill f s).mem = s.mem ∧
    (modFill f s).ecc = s.ecc ∧
    (modFill f s).banks = s.banks ∧
    (modFill f s).cm = s.cm ∧
    (modFill f s).mxe = s.mxe ∧
    (modFill f s).mxeSaved = s.mxeSaved ∧
    (modFill f s).sct = s.sct ∧
    (modFill f s).stash = s.stash ∧
    (modFill f s).vxe = s.vxe ∧
    (modFill f s).pin = s.pin ∧
    (modFill f s).seed = s.seed ∧
    (modFill f s).gens = s.gens ∧
    (modFill f s).reseeds = s.reseeds ∧
    (modFill f s).syn = s.syn ∧
    (modFill f s).err = s.err ∧
    (modFill f s).hst = s.hst ∧
    (modFill f s).xmu = s.xmu ∧
    (modFill f s).xfer = s.xfer ∧
    (modFill f s).lnk = s.lnk ∧
    (modFill f s).pwr = s.pwr ∧
    (modFill f s).tap = s.tap ∧
    (modFill f s).bezel = s.bezel ∧
    (modFill f s).evts = s.evts ∧
    (modFill f s).isolateHost = s.isolateHost ∧
    (modFill f s).isolateSeen = s.isolateSeen ∧
    (modFill f s).scratch = s.scratch ∧
    (modFill f s).nvs = s.nvs ∧
    (modFill f s).boot = s.boot ∧
    (modFill f s).stretched = s.stretched ∧
    (modFill f s).scrubAt = s.scrubAt :=
  ⟨rfl, rfl, rfl, rfl, rfl, rfl, rfl, rfl, rfl, rfl, rfl, rfl, rfl, rfl, rfl, rfl, rfl, rfl, rfl, rfl, rfl, rfl, rfl, rfl, rfl, rfl, rfl, rfl, rfl, rfl, rfl, rfl, rfl, rfl, rfl, rfl, rfl, rfl, rfl, rfl, rfl, rfl, rfl, rfl, rfl, rfl, rfl, rfl, rfl, rfl, rfl, rfl, rfl, rfl, rfl, rfl, rfl, rfl, rfl, rfl, rfl, rfl⟩

/-- What `writeBytes` leaves. -/
@[simp] theorem writeBytes_rest (a : Nat) (bs : List W8) :
    (writeBytes s a bs).pending = s.pending ∧
    (writeBytes s a bs).grade = s.grade ∧
    (writeBytes s a bs).fuseRows = s.fuseRows ∧
    (writeBytes s a bs).ec = s.ec ∧
    (writeBytes s a bs).wall = s.wall ∧
    (writeBytes s a bs).resetAt = s.resetAt ∧
    (writeBytes s a bs).factor = s.factor ∧
    (writeBytes s a bs).isolated = s.isolated ∧
    (writeBytes s a bs).resets = s.resets ∧
    (writeBytes s a bs).free = s.free ∧
    (writeBytes s a bs).out = s.out ∧
    (writeBytes s a bs).pos = s.pos ∧
    (writeBytes s a bs).alias_ = s.alias_ ∧
    (writeBytes s a bs).dispatched = s.dispatched ∧
    (writeBytes s a bs).switching = s.switching ∧
    (writeBytes s a bs).switchFrom = s.switchFrom ∧
    (writeBytes s a bs).switchTo = s.switchTo ∧
    (writeBytes s a bs).switchAc = s.switchAc ∧
    (writeBytes s a bs).lastDisp = s.lastDisp ∧
    (writeBytes s a bs).quantumUs = s.quantumUs ∧
    (writeBytes s a bs).slips = s.slips ∧
    (writeBytes s a bs).switches = s.switches ∧
    (writeBytes s a bs).lastSwitchAc = s.lastSwitchAc ∧
    (writeBytes s a bs).dispatchedAt = s.dispatchedAt ∧
    (writeBytes s a bs).quantumOver = s.quantumOver ∧
    (writeBytes s a bs).ctxs = s.ctxs ∧
    (writeBytes s a bs).code = s.code ∧
    (writeBytes s a bs).aff = s.aff ∧
    (writeBytes s a bs).queues = s.queues ∧
    (writeBytes s a bs).headAt = s.headAt ∧
    (writeBytes s a bs).runs = s.runs ∧
    (writeBytes s a bs).banks = s.banks ∧
    (writeBytes s a bs).mxe = s.mxe ∧
    (writeBytes s a bs).mxeSaved = s.mxeSaved ∧
    (writeBytes s a bs).sct = s.sct ∧
    (writeBytes s a bs).stash = s.stash ∧
    (writeBytes s a bs).vxe = s.vxe ∧
    (writeBytes s a bs).pin = s.pin ∧
    (writeBytes s a bs).seed = s.seed ∧
    (writeBytes s a bs).gens = s.gens ∧
    (writeBytes s a bs).reseeds = s.reseeds ∧
    (writeBytes s a bs).syn = s.syn ∧
    (writeBytes s a bs).err = s.err ∧
    (writeBytes s a bs).hst = s.hst ∧
    (writeBytes s a bs).xmu = s.xmu ∧
    (writeBytes s a bs).xfer = s.xfer ∧
    (writeBytes s a bs).lnk = s.lnk ∧
    (writeBytes s a bs).rsl = s.rsl ∧
    (writeBytes s a bs).pwr = s.pwr ∧
    (writeBytes s a bs).tap = s.tap ∧
    (writeBytes s a bs).bezel = s.bezel ∧
    (writeBytes s a bs).evts = s.evts ∧
    (writeBytes s a bs).isolateHost = s.isolateHost ∧
    (writeBytes s a bs).isolateSeen = s.isolateSeen ∧
    (writeBytes s a bs).scratch = s.scratch ∧
    (writeBytes s a bs).nvs = s.nvs ∧
    (writeBytes s a bs).boot = s.boot ∧
    (writeBytes s a bs).stretched = s.stretched ∧
    (writeBytes s a bs).scrubAt = s.scrubAt :=
  ⟨rfl, rfl, rfl, rfl, rfl, rfl, rfl, rfl, rfl, rfl, rfl, rfl, rfl, rfl, rfl, rfl, rfl, rfl, rfl, rfl, rfl, rfl, rfl, rfl, rfl, rfl, rfl, rfl, rfl, rfl, rfl, rfl, rfl, rfl, rfl, rfl, rfl, rfl, rfl, rfl, rfl, rfl, rfl, rfl, rfl, rfl, rfl, rfl, rfl, rfl, rfl, rfl, rfl, rfl, rfl, rfl, rfl, rfl, rfl⟩

/-! ### Reads after updates -/

@[simp] theorem ctx_modCtx_same (c : Ctx) (f : CtxSt → CtxSt) : ctx (modCtx s c f) c = f (ctx s c) := by simp [ctx, modCtx]

theorem ctx_modCtx_ne (c d : Ctx) (f : CtxSt → CtxSt) (h : d ≠ c) : ctx (modCtx s c f) d = ctx s d := by
  have : d.val ≠ c.val := fun e => h (Fin.ext e)
  simp [ctx, modCtx, SMap.get_mod_ne _ _ this]

theorem qIdx_inj {p q : QName} (h : qIdx p = qIdx q) : p = q := by cases p <;> cases q <;> first | rfl | cases h

@[simp] theorem queue_setQueue_same (q : QName) (l : List QEnt) : queue (setQueue s q l) q = l := by simp [queue, setQueue]

theorem queue_setQueue_ne (p q : QName) (l : List QEnt) (h : p ≠ q) : queue (setQueue s q l) p = queue s p := by
  have : qIdx p ≠ qIdx q := fun e => h (qIdx_inj e)
  simp [queue, setQueue, SMap.get_set_ne _ this]

@[simp] theorem sctSlot_modSct_same (n : Nat) (f : Sct → Sct) : sctSlot (modSct n f s) n = f (sctSlot s n) := by
  simp [sctSlot, modSct]

@[simp] theorem bank_modBank_same (b : Nat) (f : Bank → Bank) : bank (modBank s b f) b = f (bank s b) := by
  simp [bank, modBank]

@[simp] theorem port_modPort_same (p : Nat) (f : PortSt → PortSt) : port (modPort p f s) p = f (port s p) := by
  simp [port, modPort]

@[simp] theorem hoist_modHoist_same (h : Nat) (f : Hoist → Hoist) : hoist (modHoist h f s) h = f (hoist s h) := by
  simp [hoist, modHoist]

@[simp] theorem ring_modRing_same (r : Nat) (f : SRing → SRing) : ring (modRing r f s) r = f (ring s r) := by
  simp [ring, modRing, modHst]

@[simp] theorem evt_modEvt_same (i : Nat) (f : EvtIn → EvtIn) : evt (modEvt i f s) i = f (evt s i) := by
  simp [evt, modEvt]

@[simp] theorem pennant_setPennant_same (p v : Nat) : pennant (setPennant p v s) p = v := by simp [pennant, setPennant]

theorem pennant_setPennant_ne (p q v : Nat) (h : q ≠ p) : pennant (setPennant p v s) q = pennant s q := by
  simp [pennant, setPennant, SMap.get_set_ne _ h]

@[simp] theorem getAreg_setAreg_same (x : CtxSt) (a : Nat) (v : W64) : getAreg (setAreg x a v) a = v := by
  simp [getAreg, setAreg]

theorem getAreg_setAreg_ne (x : CtxSt) (a b : Nat) (v : W64) (h : b ≠ a) : getAreg (setAreg x a v) b = getAreg x b := by
  simp [getAreg, setAreg, SMap.get_set_ne _ h]

/-- p0 reads 1 whatever is written (R196). -/
@[simp] theorem getPred_zero (x : CtxSt) : getPred x 0 = true := by simp [getPred]

/-- A write of p0 has no effect (R196). -/
@[simp] theorem setPred_zero (x : CtxSt) (b : Bool) : setPred x 0 b = x := by simp [setPred]

/-! ### Memory -/

theorem putBytes_wf (m : List Host.Cell) (a : Nat) (bs : List W8) (h : SMap.wf emptyByte m = true) :
    SMap.wf emptyByte (putBytes m a bs) = true := by
  induction bs generalizing m a with
  | nil => exact h
  | cons b bs ih => exact ih _ _ (SMap.wf_set h)

/-- A write of core memory keeps its canonical form. -/
theorem writeBytes_wf (a : Nat) (bs : List W8) (h : SMap.wf emptyByte s.mem = true) :
    SMap.wf emptyByte (writeBytes s a bs).mem = true := putBytes_wf _ _ _ h

theorem get_putBytes (m : List Host.Cell) (a : Nat) (bs : List W8) (k : Nat) :
    SMap.get emptyByte (putBytes m a bs) k =
      if a ≤ k ∧ k < a + bs.length then bs.getD (k - a) emptyByte else SMap.get emptyByte m k := by
  induction bs generalizing m a with
  | nil => simp [putBytes]
  | cons b bs ih =>
    rw [putBytes, ih, SMap.get_set]
    by_cases hk : k = a
    · subst hk; simp
    · by_cases h : a ≤ k ∧ k < a + (b :: bs).length
      · have h1 : a + 1 ≤ k ∧ k < a + 1 + bs.length := by simp at h; omega
        rw [if_pos h1, if_pos h]
        have : k - a = (k - (a + 1)) + 1 := by omega
        rw [this]; simp
      · have h1 : ¬ (a + 1 ≤ k ∧ k < a + 1 + bs.length) := by simp at h; omega
        rw [if_neg h1, if_neg h, if_neg hk]

/-- What a read gives after a write: the byte written, and outside the bytes written what was there. -/
theorem readByte_writeBytes (a : Nat) (bs : List W8) (k : Nat) :
    readByte (writeBytes s a bs) k =
      if a ≤ k ∧ k < a + bs.length then bs.getD (k - a) emptyByte else readByte s k := get_putBytes _ _ _ _

end Sys2Proof.Machine
end

