-- ==== Sys2Proof/Laws/Ops.lean ====
section
/-!
SUPPORT. What the shared operations can do: the fields each one may change, and what a fault leaves of its context.
-/
namespace Sys2Proof.Machine

variable (s : State)

/-! ### Fields that may change -/

/-- Time alone passes. -/
theorem pass_frame (e : Nat) : pass e s = { s with ec := (pass e s).ec, wall := (pass e s).wall, stretched := (pass e s).stretched } := by
  unfold pass; split <;> rfl

/-- Time passes up to an EC, never back. -/
theorem pass_ec (e : Nat) : (pass e s).ec = Nat.max s.ec e := by
  unfold pass; split <;> simp <;> omega

theorem trace_frame (r : TraceRec) : trace r s = { s with err := (trace r s).err } := rfl

theorem pushEvent_frame (code sev : Nat) (c : Option Ctx) (tag ht hs : Nat) (d : List Nat) :
    pushEvent code sev c tag ht hs d s = { s with hst := (pushEvent code sev c tag ht hs d s).hst } := rfl

theorem complete_frame (r : HostRef) (a b c d e : Nat) :
    complete r a b c d e s = { s with hst := (complete r a b c d e s).hst } := by
  unfold complete; dsimp only; split <;> rfl

/-- An error reaches the log, the event ring and the counter of free values. -/
theorem logErr_frame (code sev : Nat) (cause : Cause) (d : List Nat) : logErr code sev cause d s =
    { s with err := (logErr code sev cause d s).err, hst := (logErr code sev cause d s).hst
             free := (logErr code sev cause d s).free } := by
  unfold logErr
  split
  · rfl
  · rfl

theorem advise_frame (code : Nat) (cause : Cause) (d : List Nat) : advise code cause d s =
    { s with err := (advise code cause d s).err, hst := (advise code cause d s).hst, free := (advise code cause d s).free } :=
  logErr_frame s code 1 cause d

/-- A stop reaches contexts and what they wait for in the pennant unit. -/
theorem stopCtx_frame (c : Ctx) (code sev tag : Nat) : stopCtx c code sev tag s =
    { s with ctxs := (stopCtx c code sev tag s).ctxs, syn := (stopCtx c code sev tag s).syn } := by
  unfold stopCtx; dsimp only; split <;> rfl

theorem faultCtx_frame (c : Ctx) (code sev tag : Nat) (d : List Nat) : faultCtx c code sev tag d s =
    { s with
      err := (faultCtx c code sev tag d s).err, hst := (faultCtx c code sev tag d s).hst
      free := (faultCtx c code sev tag d s).free, ctxs := (faultCtx c code sev tag d s).ctxs
      syn := (faultCtx c code sev tag d s).syn } := by
  unfold faultCtx; rw [stopCtx_frame, logErr_frame]

/-- A core that is released takes a command. -/
@[simp] theorem afterBoot_of (o : Out) (h : 8 ≤ s.nvs.phase) : afterBoot s o = o := if_neg (by omega)

/-! ### Contexts -/

@[simp] theorem ctx_pass (e : Nat) (c : Ctx) : ctx (pass e s) c = ctx s c := by rw [pass_frame]; rfl

@[simp] theorem ctx_trace (r : TraceRec) (c : Ctx) : ctx (trace r s) c = ctx s c := rfl

@[simp] theorem ctx_modSyn (f : SynSt → SynSt) (c : Ctx) : ctx (modSyn f s) c = ctx s c := rfl

@[simp] theorem ctx_logErr (code sev : Nat) (cause : Cause) (d : List Nat) (c : Ctx) :
    ctx (logErr code sev cause d s) c = ctx s c := by rw [logErr_frame]; rfl

/-- A fault of a context that runs: it is stopping, with its code and tag; the rest of it is as it was (R198, R400). -/
theorem ctx_faultCtx (c : Ctx) (code sev tag : Nat) (d : List Nat)
    (h1 : (ctx s c).stopping = false) (h2 : (ctx s c).cstate ≠ .stopped) :
    ctx (faultCtx c code sev tag d s) c =
      { ctx s c with stopping := true, faultCode := code, faultTag := tag, faultSev := sev
                     imageValid := (ctx s c).imageValid && decide (sev ≠ 4) } := by
  unfold faultCtx stopCtx
  simp only [ctx_logErr, h1, h2, Bool.false_or, decide_false, Bool.false_eq_true, if_false]
  rw [ctx_modSyn, ctx_modCtx_same, ctx_logErr]

/-- A fault of one context leaves every other one as it was. -/
theorem ctx_faultCtx_ne (c e : Ctx) (code sev tag : Nat) (d : List Nat) (h : e ≠ c) :
    ctx (faultCtx c code sev tag d s) e = ctx s e := by
  unfold faultCtx stopCtx
  dsimp only
  split
  · rw [ctx_modCtx_ne _ _ _ _ h, ctx_logErr]
  · rw [ctx_modSyn, ctx_modCtx_ne _ _ _ _ h, ctx_logErr]

theorem queue_congr {t : State} (h : t.queues = s.queues) (q : QName) : queue t q = queue s q := by unfold queue; rw [h]

theorem readByte_congr {t : State} (h : t.mem = s.mem) (a : Nat) : readByte t a = readByte s a := by unfold readByte; rw [h]

theorem ctx_congr {t : State} (h : t.ctxs = s.ctxs) (c : Ctx) : ctx t c = ctx s c := by unfold ctx; rw [h]

/-! ### The pennant unit -/

theorem ringDone_frame (r : HostRef) : ringDone r s = { s with hst := (ringDone r s).hst } := rfl

theorem releaseWait_frame (k : Nat) (w : PWait) : releaseWait k w s =
    { s with ctxs := (releaseWait k w s).ctxs, err := (releaseWait k w s).err, hst := (releaseWait k w s).hst } := by
  unfold releaseWait; split <;> rfl

theorem dropWait_frame (w : PWait) : dropWait w s = { s with syn := (dropWait w s).syn } := rfl

theorem saturate_frame (x : PUpd × Nat) : saturate s x =
    { s with syn := (saturate s x).syn, err := (saturate s x).err, hst := (saturate s x).hst
             free := (saturate s x).free } := by
  unfold saturate; rw [advise_frame]

theorem saturates_frame (l : List (PUpd × Nat)) : l.foldl saturate s =
    { s with syn := (l.foldl saturate s).syn, err := (l.foldl saturate s).err, hst := (l.foldl saturate s).hst
             free := (l.foldl saturate s).free } := by
  induction l generalizing s with
  | nil => rfl
  | cons x l ih => rw [List.foldl_cons, ih]; generalize l.foldl saturate (saturate s x) = t; rw [saturate_frame]

theorem updatePennant_frame (cls p op v : Nat) (cause : Cause) : updatePennant cls p op v cause s =
    { s with syn := (updatePennant cls p op v cause s).syn } := rfl

theorem releaseThresholds_frame (p k : Nat) (ws : List PWait) : releaseThresholds p k ws s =
    { s with ctxs := (releaseThresholds p k ws s).ctxs, err := (releaseThresholds p k ws s).err
             hst := (releaseThresholds p k ws s).hst, syn := (releaseThresholds p k ws s).syn } := by
  unfold releaseThresholds
  induction ws generalizing s with
  | nil => rfl
  | cons w ws ih =>
    rw [List.foldl_cons, ih]
    split
    · rw [releaseWait_frame, dropWait_frame]
    · rfl

theorem releaseTakes_frame (p k : Nat) (ws : List PWait) : releaseTakes p k ws s =
    { s with ctxs := (releaseTakes p k ws s).ctxs, err := (releaseTakes p k ws s).err
             hst := (releaseTakes p k ws s).hst, syn := (releaseTakes p k ws s).syn } := by
  induction ws generalizing s with
  | nil => rfl
  | cons w ws ih =>
    unfold releaseTakes
    split
    · split
      · have h : setPennant p (pennant s p - w.value) (dropWait w s) =
            { s with syn := (setPennant p (pennant s p - w.value) (dropWait w s)).syn } := rfl
        generalize setPennant p _ (dropWait w s) = s1 at h ⊢
        have h2 := releaseWait_frame s1 k w
        generalize releaseWait k w s1 = s2 at h2 ⊢
        rw [ih s2]
        generalize releaseTakes p k ws s2 = s3
        rw [h2, h]
      · rfl
    · exact ih s

theorem gateSample_frame (p : Nat) : gateSample p s = { s with mxe := (gateSample p s).mxe } := by
  unfold gateSample; split
  · split <;> rfl
  · rfl

/-- The first half of an evaluation reaches the pennant unit, the log, the contexts and host waits it releases, and the gate. -/
theorem evalTops_frame (p k : Nat) : evalTops p k s =
    { s with ctxs := (evalTops p k s).ctxs, err := (evalTops p k s).err, hst := (evalTops p k s).hst
             syn := (evalTops p k s).syn, mxe := (evalTops p k s).mxe, free := (evalTops p k s).free } := by
  unfold evalTops
  dsimp only
  generalize (if s.syn.updAc = k then saturations p s.syn.upds else []) = l
  have h0 := saturates_frame s l
  generalize l.foldl saturate s = s0 at h0 ⊢
  have h1 := gateSample_frame { s0 with syn := openEval p k s0.syn } p
  generalize gateSample p { s0 with syn := openEval p k s0.syn } = s1 at h1 ⊢
  have h2 := releaseThresholds_frame s1 p k s1.syn.waits
  generalize releaseThresholds p k s1.syn.waits s1 = s2 at h2 ⊢
  rw [h2, h1, h0]

/-- An evaluation reaches the pennant unit, the log, the contexts and host waits it releases, and the gate. -/
theorem evalAt_frame (p k : Nat) : evalAt p k s =
    { s with ctxs := (evalAt p k s).ctxs, err := (evalAt p k s).err, hst := (evalAt p k s).hst
             syn := (evalAt p k s).syn, mxe := (evalAt p k s).mxe, free := (evalAt p k s).free } := by
  unfold evalAt
  dsimp only
  have h1 := evalTops_frame s p k
  generalize evalTops p k s = s1 at h1 ⊢
  have h2 := releaseTakes_frame s1 p k s1.syn.waits
  generalize releaseTakes p k s1.syn.waits s1 = s2 at h2 ⊢
  split
  · rw [h1]
  · rw [h2, h1]

theorem evalUpTo_frame (p k : Nat) : evalUpTo p k s =
    { s with ctxs := (evalUpTo p k s).ctxs, err := (evalUpTo p k s).err, hst := (evalUpTo p k s).hst
             syn := (evalUpTo p k s).syn, mxe := (evalUpTo p k s).mxe, free := (evalUpTo p k s).free } := by
  unfold evalUpTo
  generalize s.syn.evals.filter (fun x => decide (x.2 = p) && decide (x.1 < k)) = l
  induction l generalizing s with
  | nil => rfl
  | cons x l ih =>
    rw [List.foldl_cons, ih]
    generalize l.foldl (fun s x => evalAt p x.1 s) (evalAt p x.1 s) = t
    rw [evalAt_frame]

theorem evalUpTo_none (p k : Nat) (h : ∀ x ∈ s.syn.evals, x.2 = p → k ≤ x.1) : evalUpTo p k s = s := by
  unfold evalUpTo
  rw [List.filter_eq_nil_iff.2 (by
    intro x hx
    by_cases hp : x.2 = p
    · have := h x hx hp; simp [hp]; omega
    · simp [hp])]
  rfl

/-! ### The hoists -/

theorem hoistMsgs_frame (kind h : Nat) (parity : Bool) (value t : Nat) (ws : List Nat) : hoistMsgs kind h parity value t ws s =
    { s with syn := (hoistMsgs kind h parity value t ws s).syn } := by
  unfold hoistMsgs
  induction ws generalizing s with
  | nil => rfl
  | cons w ws ih => rw [List.foldl_cons, ih]; rfl

theorem releaseHWaits_frame (h t : Nat) (l : List HWait) : l.foldl (releaseHWait h t) s =
    { s with ctxs := (l.foldl (releaseHWait h t) s).ctxs, err := (l.foldl (releaseHWait h t) s).err } := by
  induction l generalizing s with
  | nil => rfl
  | cons w l ih => rw [List.foldl_cons, ih]; rfl

/-- The close of an epoch reaches the contexts it releases, the event ring, the trace and the synchronisation block (R258). -/
theorem closeEpoch_frame (h t : Nat) : closeEpoch h t s =
    { s with ctxs := (closeEpoch h t s).ctxs, err := (closeEpoch h t s).err, hst := (closeEpoch h t s).hst
             syn := (closeEpoch h t s).syn } := by
  unfold closeEpoch
  dsimp only
  generalize ((hoist s h).waiters.filter (fun w => !w.next)) = l
  have h0 := releaseHWaits_frame s h t l
  generalize l.foldl (releaseHWait h t) s = s0 at h0 ⊢
  generalize hoist s h = x
  split
  · have h2 := hoistMsgs_frame (pushEvent cHOIST_RELEASED 0 none 0 0 0 [h + b2n x.parity * 2 ^ 8] s0) 3 h x.parity 0 t
      (childWords (pushEvent cHOIST_RELEASED 0 none 0 0 0 [h + b2n x.parity * 2 ^ 8] s0) x)
    rw [h2, pushEvent_frame, h0]; rfl
  · have h2 := hoistMsgs_frame s0 3 h x.parity 0 t (childWords s0 x)
    rw [h2, h0]; rfl

theorem checkHoist_frame (h t : Nat) : checkHoist h t s =
    { s with ctxs := (checkHoist h t s).ctxs, err := (checkHoist h t s).err, hst := (checkHoist h t s).hst
             syn := (checkHoist h t s).syn } := by
  unfold checkHoist
  dsimp only
  split
  · rfl
  · split
    · unfold closeNext
      dsimp only
      have h1 := closeEpoch_frame s h t
      generalize closeEpoch h t s = s1 at h1 ⊢
      split
      · unfold dueAtEnd; rw [h1]
      · rw [h1]
    · rfl

theorem hoistPass_frame (n : HEnt) : hoistPass n s = { s with ctxs := (hoistPass n s).ctxs, err := (hoistPass n s).err } := by
  unfold hoistPass; split <;> rfl

theorem hoistWait_frame (n : HEnt) (b : Bool) : hoistWait n b s = { s with syn := (hoistWait n b s).syn } := by
  unfold hoistWait; dsimp only; split <;> rfl

/-- A fault changes no more than an evaluation does. -/
theorem streamFault_frame (c : Ctx) (code tag : Nat) (d : List Nat) : streamFault c code tag d s =
    { s with
      err := (streamFault c code tag d s).err, hst := (streamFault c code tag d s).hst
      free := (streamFault c code tag d s).free, ctxs := (streamFault c code tag d s).ctxs
      syn := (streamFault c code tag d s).syn } := faultCtx_frame s c code 3 tag d

theorem hoistEnter_frame (b : Bool) (n : HEnt) : hoistEnter b n s =
    { s with ctxs := (hoistEnter b n s).ctxs, err := (hoistEnter b n s).err, hst := (hoistEnter b n s).hst
             syn := (hoistEnter b n s).syn, free := (hoistEnter b n s).free } := by
  unfold hoistEnter
  split
  · rw [streamFault_frame]
  · rename_i next _
    dsimp only
    have h0 : markEntry n.hoist n.ctx.val next s = { s with syn := (markEntry n.hoist n.ctx.val next s).syn } := rfl
    generalize markEntry n.hoist n.ctx.val next s = s0 at h0 ⊢
    have h1 : (if b then hoistWait n next s0 else hoistPass n s0) =
        { s0 with ctxs := (if b then hoistWait n next s0 else hoistPass n s0).ctxs
                  err := (if b then hoistWait n next s0 else hoistPass n s0).err
                  syn := (if b then hoistWait n next s0 else hoistPass n s0).syn } := by
      split
      · rw [hoistWait_frame]
      · rw [hoistPass_frame]
    generalize (if b then hoistWait n next s0 else hoistPass n s0) = s1 at h1 ⊢
    rw [checkHoist_frame, h1, h0]

theorem hoistWaitOnly_frame (n : HEnt) : hoistWaitOnly n s =
    { s with ctxs := (hoistWaitOnly n s).ctxs, err := (hoistWaitOnly n s).err, hst := (hoistWaitOnly n s).hst
             syn := (hoistWaitOnly n s).syn, free := (hoistWaitOnly n s).free } := by
  unfold hoistWaitOnly
  dsimp only
  split_ifs
  · rw [hoistEnter_frame]
  · rw [streamFault_frame]
  · rw [hoistWait_frame]
  · rw [hoistWait_frame]
  · rw [hoistPass_frame]

theorem hoistArrives_frame (c k : Nat) : hoistArrives c k s =
    { s with ctxs := (hoistArrives c k s).ctxs, err := (hoistArrives c k s).err, hst := (hoistArrives c k s).hst
             syn := (hoistArrives c k s).syn, free := (hoistArrives c k s).free } := by
  unfold hoistArrives
  split
  · rfl
  · dsimp only
    split
    · rw [hoistEnter_frame]
    · rw [hoistEnter_frame]
    · rw [hoistWaitOnly_frame]

theorem signalStarts_frame (a : Nat) : signalStarts a s = { s with err := (signalStarts a s).err } := by
  unfold signalStarts
  generalize s.runs.filter (fun r => decide (r.opcode = 0x28) && decide (r.startAc = a)) = l
  induction l generalizing s with
  | nil => rfl
  | cons r l ih => rw [List.foldl_cons, ih]; rfl

/-! ### What is due, and time -/

/-- What comes about at the end of an AC changes what an evaluation does. -/
theorem comeDue_frame (n k : Nat) : comeDue n k s =
    { s with ctxs := (comeDue n k s).ctxs, err := (comeDue n k s).err, hst := (comeDue n k s).hst
             syn := (comeDue n k s).syn, mxe := (comeDue n k s).mxe, free := (comeDue n k s).free } := by
  unfold comeDue
  dsimp only
  split_ifs
  · rw [evalAt_frame]
  · rw [checkHoist_frame]
  · rw [hoistArrives_frame]
  · rw [signalStarts_frame]

/-- What is due before an AC changes the time, the contexts, the synchronisation block, the log, the records, the gate and the
counter of free values. -/
theorem settleDue_frame (n k : Nat) : settleDue n k s =
    { s with ec := (settleDue n k s).ec, wall := (settleDue n k s).wall, stretched := (settleDue n k s).stretched
             ctxs := (settleDue n k s).ctxs, err := (settleDue n k s).err, hst := (settleDue n k s).hst
             syn := (settleDue n k s).syn, mxe := (settleDue n k s).mxe, free := (settleDue n k s).free } := by
  induction n generalizing s with
  | zero => rfl
  | succ n ih =>
    unfold settleDue
    split
    · rfl
    · split
      · rw [ih, comeDue_frame, pass_frame]
      · rfl

theorem evalBefore_frame (k : Nat) : evalBefore k s =
    { s with ec := (evalBefore k s).ec, wall := (evalBefore k s).wall, stretched := (evalBefore k s).stretched
             ctxs := (evalBefore k s).ctxs, err := (evalBefore k s).err, hst := (evalBefore k s).hst
             syn := (evalBefore k s).syn, mxe := (evalBefore k s).mxe, free := (evalBefore k s).free } := settleDue_frame s 8192 k

/-- With nothing due before an AC nothing happens. -/
theorem evalBefore_none (k : Nat) (h : ∀ x ∈ s.syn.evals, k ≤ x.1) : evalBefore k s = s := by
  unfold evalBefore settleDue
  split
  · rfl
  · rename_i x l hx
    rw [if_neg (by have := h x (by simp [hx]); omega)]

/-- What is due before AC k comes about before the AC begins. -/
theorem settleDue_ec (n k : Nat) : s.ec ≤ (settleDue n k s).ec ∧ (settleDue n k s).ec ≤ Nat.max s.ec (2 * k) := by
  induction n generalizing s with
  | zero => simp [settleDue]
  | succ n ih =>
    unfold settleDue
    split
    · simp
    · rename_i x _ _
      split
      · rename_i hx
        have h1 := ih (comeDue x.2 x.1 (pass (2 * x.1 + 1) s))
        have h2 : (comeDue x.2 x.1 (pass (2 * x.1 + 1) s)).ec = Nat.max s.ec (2 * x.1 + 1) := by rw [comeDue_frame, pass_ec]
        rw [h2] at h1
        constructor
        · exact le_trans (Nat.le_max_left _ _) h1.1
        · exact le_trans h1.2 (by simp only [Nat.max_def]; split_ifs <;> omega)
      · simp

/-- Time passes, and what is due by then comes about. -/
theorem advance_frame (e : Nat) : advance e s =
    { s with ec := (advance e s).ec, wall := (advance e s).wall, stretched := (advance e s).stretched
             ctxs := (advance e s).ctxs, err := (advance e s).err, hst := (advance e s).hst
             syn := (advance e s).syn, mxe := (advance e s).mxe, free := (advance e s).free } := by
  unfold advance
  split
  · rw [pass_frame, evalBefore_frame]
  · rfl

/-- Time passes up to an EC, never back. -/
theorem advance_ec (e : Nat) : (advance e s).ec = Nat.max s.ec e := by
  unfold advance
  split
  · rename_i h
    have h1 := settleDue_ec s 8192 (e / 2)
    rw [pass_ec, evalBefore]
    have h2 : Nat.max s.ec (2 * (e / 2)) ≤ e := by simp only [Nat.max_def]; split <;> omega
    have h3 := le_trans h1.2 h2
    simp only [Nat.max_def]; split_ifs <;> omega
  · simp only [Nat.max_def]; split_ifs <;> omega

/-- With nothing due by then, time alone passes. -/
theorem advance_none (e : Nat) (h : ∀ x ∈ s.syn.evals, e / 2 ≤ x.1) : advance e s = pass e s := by
  unfold advance
  split
  · rw [evalBefore_none s _ h]
  · unfold pass; rw [if_neg (by assumption)]

theorem advanceWall_frame (w : Nat) : advanceWall w s =
    { s with ec := (advanceWall w s).ec, wall := (advanceWall w s).wall, stretched := (advanceWall w s).stretched
             ctxs := (advanceWall w s).ctxs, err := (advanceWall w s).err, hst := (advanceWall w s).hst
             syn := (advanceWall w s).syn, mxe := (advanceWall w s).mxe, free := (advanceWall w s).free } := by
  unfold advanceWall; split
  · exact advance_frame s _
  · rfl

/-- An update of a pennant reaches the pennant unit and the trace. -/
theorem raise_frame (cls p op v : Nat) (cause : Cause) : raise cls p op v cause s =
    { s with syn := (raise cls p op v cause s).syn, err := (raise cls p op v cause s).err } := by
  unfold raise; dsimp only; split <;> rfl

/-- An update of a pennant that nothing waits on and that does not saturate. -/
theorem raise_unwatched (cls p op v : Nat) (cause : Cause) (hw : watched p s = false)
    (hs : saturations p (acUpds (updatePennant cls p op v cause s)) = []) :
    raise cls p op v cause s = trace
      { kind := 6, ctx := cause.ctx, tag := cause.tag, time := s.ec, argA := p
        argB := pennant (updatePennant cls p op v cause s) p } (updatePennant cls p op v cause s) := by
  unfold raise
  dsimp only
  have hw' : watched p (trace
      { kind := 6, ctx := cause.ctx, tag := cause.tag, time := (updatePennant cls p op v cause s).ec, argA := p
        argB := pennant (updatePennant cls p op v cause s) p } (updatePennant cls p op v cause s)) = false := hw
  have hs' : saturations p (acUpds (trace
      { kind := 6, ctx := cause.ctx, tag := cause.tag, time := (updatePennant cls p op v cause s).ec, argA := p
        argB := pennant (updatePennant cls p op v cause s) p } (updatePennant cls p op v cause s))) = [] := hs
  rw [hw', hs']
  rfl

/-- Waits on other pennants are passed by. -/
theorem releaseThresholds_other (p k : Nat) (ws : List PWait) (h : ∀ w ∈ ws, w.pennant ≠ p) :
    releaseThresholds p k ws s = s := by
  unfold releaseThresholds
  induction ws generalizing s with
  | nil => rfl
  | cons w ws ih =>
    rw [List.foldl_cons, if_neg (fun c => h w (by simp) c.1)]
    exact ih s (fun x hx => h x (by simp [hx]))

theorem releaseTakes_other (p k : Nat) (ws : List PWait) (h : ∀ w ∈ ws, w.pennant ≠ p) : releaseTakes p k ws s = s := by
  induction ws generalizing s with
  | nil => rfl
  | cons w ws ih =>
    unfold releaseTakes
    rw [if_neg (fun c => h w (by simp) c.1)]
    exact ih s (fun x hx => h x (by simp [hx]))

end Sys2Proof.Machine
end

