-- ==== Sys2Proof/Laws/Issue.lean ====
section
/-!
SUPPORT. Laws of issue (R26, R27, R209): what the issue of a due slot comes to, and what a scalar command leaves.
-/
namespace Sys2Proof.Machine

/-- A property that every round keeps. -/
theorem iter_pres {σ} (P : σ → Prop) (f : Nat → σ → σ) (h : ∀ i x, P x → P (f i x)) : ∀ n x, P x → P (iter f n x)
  | 0, _, hx => hx
  | n+1, x, hx => h n _ (iter_pres P f h n x hx)


/-- A predicate write changes the predicates alone. -/
theorem setPred_pred (x : CtxSt) (i b) : setPred x i b = { x with pred := (setPred x i b).pred } := by
  unfold setPred; split <;> rfl

/-- The comparators change the predicates alone (R212). -/
theorem updateCmps_eq (x : CtxSt) : updateCmps x = { x with pred := (updateCmps x).pred } := by
  refine iter_pres (fun y => y = { x with pred := y.pred }) _ ?_ 8 x rfl
  intro i y hy
  dsimp only
  split
  · rw [setPred_pred]; generalize (setPred y _ _).pred = p; rw [hy]
  · exact hy

/-- A due slot is the one that issues. -/
theorem issuing_due {s c sl} (h : Due s c sl) : issuing s sl = some c := by
  unfold issuing; rw [h.dispatched]
  simp [h.running, h.going, h.inSection, h.notSwitching, h.atPos]


/-- The state of an issue with the comparators updated. -/
def atIssueState (s : State) (c : Ctx) (sl : Slot) : State := modCtx (issueState s c sl) c (atIssue (dueEc s (ctx s c) sl))

theorem ctx_atIssue (s c sl) : ctx (atIssueState s c sl) c = issueCtx s c sl := by simp [atIssueState, issueCtx]

theorem ctx_atIssue_ne (s c sl) {d : Ctx} (h : d ≠ c) : ctx (atIssueState s c sl) d = ctx (issueState s c sl) d :=
  ctx_modCtx_ne _ _ _ _ h

theorem issueState_ec (s c sl) : (issueState s c sl).ec = Nat.max s.ec (dueEc s (ctx s c) sl) := advance_ec s _

/-- The issue of a due slot: the comparators, the predicate, then the command (R209). -/
theorem doIssue_due {s c sl} (h : Due s c sl) (al : Bool) (act) :
   doIssue al act sl s =
    if !al && (getPred (issueCtx s c sl) (predOf sl) == predInv sl) then skipped c (cmdOf s (ctx s c) sl) (atIssueState s c sl)
    else act c (cmdOf s (ctx s c) sl) (atIssueState s c sl) := by
  unfold doIssue
  rw [issuing_due h]
  simp only [h.completed, Bool.true_eq_false, if_false]
  rw [← ctx_atIssue]
  rfl

/-- A due slot that its predicate lets pass. -/
theorem doIssue_pass {s c sl} (h : Due s c sl) (hp : Passes s c sl) (al : Bool) (act) :
   doIssue al act sl s = act c (cmdOf s (ctx s c) sl) (atIssueState s c sl) := by
  rw [doIssue_due h]
  have : (getPred (issueCtx s c sl) (predOf sl) == predInv sl) = false := by simpa [Passes] using hp
  simp [this]

/-- A due slot that its predicate does not hold back. -/
theorem doIssue_always {s c sl} (h : Due s c sl) (act) :
   doIssue true act sl s = act c (cmdOf s (ctx s c) sl) (atIssueState s c sl) := by
  rw [doIssue_due h]; simp

/-- The trace leaves the log alone. -/
theorem traceStore_log (r e) : (traceStore r e).log = e.log ∧ (traceStore r e).active = e.active ∧ (traceStore r e).lost = e.lost ∧ (traceStore r e).counts = e.counts := by
  unfold traceStore; dsimp only; split
  · split <;> simp
  · simp

/-- The trace leaves the log alone. -/
theorem traceLost_log (t e) : (traceLost t e).log = e.log ∧ (traceLost t e).active = e.active ∧ (traceLost t e).lost = e.lost ∧ (traceLost t e).counts = e.counts := by
  unfold traceLost
  dsimp only
  split_ifs
  · simpa using traceStore_log _ _
  · simp

/-- The trace leaves the log alone. -/
theorem traceTake_log (e r) : (traceTake e r).log = e.log ∧ (traceTake e r).active = e.active ∧ (traceTake e r).lost = e.lost ∧ (traceTake e r).counts = e.counts := by
  unfold traceTake freezeOn
  dsimp only
  split_ifs <;> simp [traceStore_log, traceLost_log]

/-- The trace leaves the log alone. -/
theorem flushTrc_log (e) : (flushTrc e).log = e.log ∧ (flushTrc e).active = e.active ∧ (flushTrc e).lost = e.lost ∧ (flushTrc e).counts = e.counts := by
  have h : ∀ (l : List TraceRec) (e : ErrSt), (l.foldl traceTake e).log = e.log ∧ (l.foldl traceTake e).active = e.active ∧
      (l.foldl traceTake e).lost = e.lost ∧ (l.foldl traceTake e).counts = e.counts := by
    intro l
    induction l with
    | nil => intro e; simp
    | cons r l ih => intro e; rw [List.foldl_cons]; have := traceTake_log e r; have := ih (traceTake e r); simp_all
  exact h _ _

/-- The trace leaves the log alone. -/
theorem traceErr_log (r e) : (traceErr r e).log = e.log ∧ (traceErr r e).active = e.active ∧ (traceErr r e).lost = e.lost ∧ (traceErr r e).counts = e.counts := by
  unfold traceErr
  split
  · simp
  · split_ifs
    · simp
    · simpa using flushTrc_log e

/-- A change of context c and of the trace alone is a scalar command's frame. -/
theorem frame_of {s c sl t} (h1 : t = { issueState s c sl with ctxs := t.ctxs, err := t.err })
    (h2 : ∀ d : Ctx, d ≠ c → ctx t d = ctx (issueState s c sl) d) (h3 : SameLog (issueState s c sl) t) : ScalarFrame s c sl t := by
  refine ⟨h1, ?_, h2, ?_, ?_, h3⟩
  · rw [h1]; exact issueState_ec ..
  · intro a; apply readByte_congr; rw [h1, issueState, advance_frame]
  · intro q; apply queue_congr; rw [h1, issueState, advance_frame]

/-- The frame of a command that issues and changes its context. -/
theorem frame_passed {s c sl} (f : CtxSt → CtxSt) :
   ScalarFrame s c sl (modCtx (passed c (cmdOf s (ctx s c) sl) (atIssueState s c sl)) c f) := by
  apply frame_of
  · unfold passed atIssueState; generalize issueState s c sl = u; dsimp only [modCtx, trace]
  · intro d hd
    rw [ctx_modCtx_ne _ _ _ _ hd, passed, ctx_trace, ctx_modCtx_ne _ _ _ _ hd, ctx_atIssue_ne _ _ _ hd]
  · unfold passed atIssueState; generalize issueState s c sl = u; simp only [SameLog, modCtx, trace]; exact traceErr_log _ u.err

/-- The context after an issue. -/
theorem ctx_passed (s c sl) : ctx (passed c (cmdOf s (ctx s c) sl) (atIssueState s c sl)) c = afterIssue s c sl := by
  rw [passed, ctx_trace, ctx_modCtx_same, ctx_atIssue]; rfl

/-- The frame of an issue that changes its context alone. -/
theorem frame_point {s c sl} (f : CtxSt → CtxSt) : ScalarFrame s c sl (modCtx (atIssueState s c sl) c f) := by
  apply frame_of
  · unfold atIssueState; generalize issueState s c sl = u; rfl
  · intro d hd
    rw [ctx_modCtx_ne _ _ _ _ hd, ctx_atIssue_ne _ _ _ hd]
  · unfold atIssueState; generalize issueState s c sl = u; exact ⟨rfl, rfl, rfl, rfl⟩

/-- The frame of a skipped command (R27). -/
theorem frame_skipped {s c sl} : ScalarFrame s c sl (skipped c (cmdOf s (ctx s c) sl) (atIssueState s c sl)) := by
  apply frame_of
  · unfold skipped atIssueState; generalize issueState s c sl = u; dsimp only [modCtx, trace]
  · intro d hd
    rw [skipped, ctx_trace, ctx_modCtx_ne _ _ _ _ hd, ctx_atIssue_ne _ _ _ hd]
  · unfold skipped atIssueState; generalize issueState s c sl = u; simp only [SameLog, modCtx, trace]; exact traceErr_log _ u.err

/-- The context after a skipped command (R27). -/
theorem ctx_skipped (s c sl) : ctx (skipped c (cmdOf s (ctx s c) sl) (atIssueState s c sl)) c = { issueCtx s c sl with
        pos := (ctx s c).pos + 1, lastIssue := dueEc s (ctx s c) sl, fresh := false, slipping := false } := by
  rw [skipped, ctx_trace, ctx_modCtx_same, ctx_atIssue]; rfl

/-- A row whose slot its predicate holds back (R27). -/
theorem issueRow_skip {s c sl} (h : Due s c sl) (hp : ¬ Passes s c sl) (op act) (hf : ∀ f, issueRow op false act sl s ≠ .fault f) :
   issueRow op false act sl s = .next (skipped c (cmdOf s (ctx s c) sl) (atIssueState s c sl)) := by
  unfold issueRow at *
  split
  · rw [doIssue_due h]
    have : (getPred (issueCtx s c sl) (predOf sl) == predInv sl) = true := by simpa [Passes] using hp
    simp [this]
  · rename_i h2; exact absurd (if_neg h2) (hf _)

end Sys2Proof.Machine
end

