-- ==== Sys2Proof/Laws/Rings.lean ====
section
/-!
SUPPORT. The host block: what an event or completion record changes of it, what a read of a ring's entry at head leaves, and the
ring that each ring operation changes.
-/
namespace Sys2Proof.Machine

variable (s : State)

/-! ### Records -/

theorem pushEventH_frame (h : HstSt) (ws : List Nat) : pushEventH h ws =
    { h with nextOut := (pushEventH h ws).nextOut, lost := (pushEventH h ws).lost, ovCount := (pushEventH h ws).ovCount
             ovFirst := (pushEventH h ws).ovFirst, eqQ := (pushEventH h ws).eqQ } := by
  unfold pushEventH; dsimp only; split <;> rfl

/-- An event record reaches the event queue and its counts. -/
theorem pushEvent_hst (code sev : Nat) (c : Option Ctx) (tag ht hs : Nat) (d : List Nat) (s : State) :
    (pushEvent code sev c tag ht hs d s).hst = { s.hst with
      nextOut := (pushEvent code sev c tag ht hs d s).hst.nextOut, lost := (pushEvent code sev c tag ht hs d s).hst.lost
      ovCount := (pushEvent code sev c tag ht hs d s).hst.ovCount, ovFirst := (pushEvent code sev c tag ht hs d s).hst.ovFirst
      eqQ := (pushEvent code sev c tag ht hs d s).hst.eqQ } := by
  unfold pushEvent; dsimp only; exact pushEventH_frame ..

/-- So do several. -/
theorem pushEvents_frame (evs : List (List Nat)) (p : HstSt × List Nat) :
    (evs.foldl (fun (p : HstSt × List Nat) ws => (pushEventH p.1 ws, p.2 ++ [p.1.nextOut])) p).1 = { p.1 with
      nextOut := (evs.foldl (fun (p : HstSt × List Nat) ws => (pushEventH p.1 ws, p.2 ++ [p.1.nextOut])) p).1.nextOut
      lost := (evs.foldl (fun (p : HstSt × List Nat) ws => (pushEventH p.1 ws, p.2 ++ [p.1.nextOut])) p).1.lost
      ovCount := (evs.foldl (fun (p : HstSt × List Nat) ws => (pushEventH p.1 ws, p.2 ++ [p.1.nextOut])) p).1.ovCount
      ovFirst := (evs.foldl (fun (p : HstSt × List Nat) ws => (pushEventH p.1 ws, p.2 ++ [p.1.nextOut])) p).1.ovFirst
      eqQ := (evs.foldl (fun (p : HstSt × List Nat) ws => (pushEventH p.1 ws, p.2 ++ [p.1.nextOut])) p).1.eqQ } := by
  induction evs generalizing p with
  | nil => rfl
  | cons ws evs ih => rw [List.foldl_cons, ih]; dsimp only; rw [pushEventH_frame]

theorem syncEvents_hst (evs : List (List Nat)) : (syncEvents evs s).hst = { s.hst with
      nextOut := (syncEvents evs s).hst.nextOut, lost := (syncEvents evs s).hst.lost
      ovCount := (syncEvents evs s).hst.ovCount, ovFirst := (syncEvents evs s).hst.ovFirst
      eqQ := (syncEvents evs s).hst.eqQ } := by
  unfold syncEvents
  dsimp only
  rw [pushEvents_frame]

/-- So does an error. -/
theorem logErr_hst (code sev : Nat) (cause : Cause) (d : List Nat) (s : State) :
    (logErr code sev cause d s).hst = { s.hst with
      nextOut := (logErr code sev cause d s).hst.nextOut, lost := (logErr code sev cause d s).hst.lost
      ovCount := (logErr code sev cause d s).hst.ovCount, ovFirst := (logErr code sev cause d s).hst.ovFirst
      eqQ := (logErr code sev cause d s).hst.eqQ } := by
  unfold logErr
  split
  · exact pushEvent_hst ..
  · exact syncEvents_hst _ _

/-- A completion record reaches the completion queue, or what waits for room in it. -/
theorem complete_hst (r : HostRef) (a b c d e : Nat) (s : State) : (complete r a b c d e s).hst =
    { s.hst with nextOut := (complete r a b c d e s).hst.nextOut, cqQ := (complete r a b c d e s).hst.cqQ
                 late := (complete r a b c d e s).hst.late } := by
  unfold complete pushDone; dsimp only; split
  · rfl
  · dsimp only; split <;> rfl

/-- A completion record is placed when it is asked for or reports a status, and the queue has room. -/
theorem complete_cqQ (r : HostRef) (a b c d e : Nat) (h : r.kind ≠ 5) (hq : s.hst.cqQ.length < 64) :
    (complete r a b c d e s).hst.cqQ.length =
      s.hst.cqQ.length + (if r.cmpl = true ∨ a ≠ 0 then 1 else 0) := by
  unfold complete pushDone
  by_cases hc : r.cmpl = true <;> by_cases ha : a = 0 <;> simp [h, hc, ha, Nat.not_le.2 hq]

theorem logErr_cqQ (code sev : Nat) (cause : Cause) (d : List Nat) : (logErr code sev cause d s).hst.cqQ = s.hst.cqQ := by
  rw [logErr_hst]

/-! ### Rings -/

theorem ring_congr {t : State} (h : t.hst.rings = s.hst.rings) (k : Nat) : ring t k = ring s k := by unfold ring; rw [h]

theorem ring_logErr (code sev : Nat) (cause : Cause) (d : List Nat) (k : Nat) : ring (logErr code sev cause d s) k = ring s k := by
  apply ring_congr; rw [logErr_hst]

theorem ring_advise (code : Nat) (cause : Cause) (d : List Nat) (k : Nat) : ring (advise code cause d s) k = ring s k :=
  ring_logErr s code 1 cause d k

theorem ring_complete (r : HostRef) (a b c d e k : Nat) : ring (complete r a b c d e s) k = ring s k := by
  apply ring_congr; rw [complete_hst]

theorem ring_modRing (r k : Nat) (f : SRing → SRing) : ring (modRing r f s) k = if k = r then f (ring s r) else ring s k := by
  unfold ring modRing modHst
  dsimp only
  by_cases h : k = r
  · subst h; simp
  · rw [if_neg h]; exact SMap.get_mod_ne _ _ h

theorem fetchHead_frame (r : Nat) : fetchHead s r =
    { s with out := (fetchHead s r).out, xfer := { s.xfer with hreads := (fetchHead s r).xfer.hreads } } := by
  unfold fetchHead hostRead emit
  split
  · cases readTag s <;> rfl
  · rfl

theorem fetches_frame (l : List Nat) : l.foldl fetchHead s =
    { s with out := (l.foldl fetchHead s).out, xfer := { s.xfer with hreads := (l.foldl fetchHead s).xfer.hreads } } := by
  induction l generalizing s with
  | nil => rfl
  | cons r l ih => rw [List.foldl_cons, ih, fetchHead_frame]

/-- A read of the entries at head sends host reads and nothing else. -/
theorem fetchHeads_frame : fetchHeads s =
    { s with out := (fetchHeads s).out, xfer := { s.xfer with hreads := (fetchHeads s).xfer.hreads } } := fetches_frame s _

theorem ring_fetchHeads (k : Nat) : ring (fetchHeads s) k = ring s k := by rw [fetchHeads_frame]; rfl

/-- Rings that are disabled read nothing. -/
theorem fetches_disabled (l : List Nat) (h : ∀ k ∈ l, (ring s k).en = false) : l.foldl fetchHead s = s := by
  induction l with
  | nil => rfl
  | cons r l ih =>
    have hr : fetchHead s r = s := by simp [fetchHead, wantsFetch, h r (by simp)]
    rw [List.foldl_cons, hr]
    exact ih (fun k hk => h k (by simp [hk]))

theorem range_split : ∀ c : Ctx, List.range 8 = List.range c.val ++ c.val :: (List.range (7 - c.val)).map (· + (c.val + 1)) := by
  decide

/-- With one ring enabled, one read goes out. -/
theorem fetchHeads_one (c : Ctx) (he : s.hst.enable = true) (ho : ∀ k, k ≠ c.val → (ring s k).en = false)
    (h1 : (ring s c).en = true) (h2 : (ring s c).halted = false) (h3 : (ring s c).held = none) (h4 : s.xfer.hreads = [])
    (h5 : (ring s c).head ≠ (ring s c).tail) : fetchHeads s =
      { s with out := s.out ++ [.hostRead 0 ((ring s c).base + 64 * (ring s c).head) 64]
               xfer := { s.xfer with hreads := [(0, .desc c)] } } := by
  unfold fetchHeads
  rw [range_split c, List.foldl_append,
    fetches_disabled s (List.range c.val) (by intro k hk; simp at hk; exact ho k (by omega)), List.foldl_cons]
  have hw : wantsFetch s c.val = true := by simp [wantsFetch, he, h1, h2, h3, h4, h5]
  have ht : readTag s = some 0 := by simp [readTag, h4]
  have hh : fetchHead s c = { s with out := s.out ++ [.hostRead 0 ((ring s c).base + 64 * (ring s c).head) 64]
                                     xfer := { s.xfer with hreads := [(0, .desc c)] } } := by
    unfold fetchHead; rw [if_pos hw]; simp [hostRead, ht, emit, h4, SMap.put]
  rw [hh]
  exact fetches_disabled _ _ (by intro k hk; simp at hk; exact ho k (by omega))

theorem ring_dropHeld (r k : Nat) : ring (dropHeld r s) k = if k = r then { ring s r with held := none } else ring s k := by
  unfold dropHeld; exact ring_modRing ..

theorem ring_haltRing (r a k : Nat) : ring (haltRing r a s) k =
    if k = r then { ring s r with held := none, halted := true, reason := a } else ring s k := by
  unfold haltRing; rw [ring_modRing, ring_dropHeld]; split
  · simp
  · rw [ring_dropHeld, if_neg ‹_›]

theorem askAll_nil (h : s.xfer.jobs = []) : askAll s = s := by simp [askAll, h]

end Sys2Proof.Machine
end

