-- ==== Sys2Proof/Laws/Rest.lean ====
section
/-!
SUPPORT. What each shared operation leaves, field by field, from the law that says which fields it may change.
-/
namespace Sys2Proof.Machine

variable (s : State)

/-- What `pass` leaves. -/
@[simp] theorem pass_rest (e : Nat) :
    (pass e s).pending = s.pending ∧
    (pass e s).grade = s.grade ∧
    (pass e s).fuseRows = s.fuseRows ∧
    (pass e s).resetAt = s.resetAt ∧
    (pass e s).factor = s.factor ∧
    (pass e s).isolated = s.isolated ∧
    (pass e s).resets = s.resets ∧
    (pass e s).free = s.free ∧
    (pass e s).out = s.out ∧
    (pass e s).pos = s.pos ∧
    (pass e s).alias_ = s.alias_ ∧
    (pass e s).dispatched = s.dispatched ∧
    (pass e s).switching = s.switching ∧
    (pass e s).switchFrom = s.switchFrom ∧
    (pass e s).switchTo = s.switchTo ∧
    (pass e s).switchAc = s.switchAc ∧
    (pass e s).lastDisp = s.lastDisp ∧
    (pass e s).quantumUs = s.quantumUs ∧
    (pass e s).slips = s.slips ∧
    (pass e s).switches = s.switches ∧
    (pass e s).lastSwitchAc = s.lastSwitchAc ∧
    (pass e s).dispatchedAt = s.dispatchedAt ∧
    (pass e s).quantumOver = s.quantumOver ∧
    (pass e s).ctxs = s.ctxs ∧
    (pass e s).code = s.code ∧
    (pass e s).aff = s.aff ∧
    (pass e s).queues = s.queues ∧
    (pass e s).headAt = s.headAt ∧
    (pass e s).runs = s.runs ∧
    (pass e s).spans = s.spans ∧
    (pass e s).mem = s.mem ∧
    (pass e s).ecc = s.ecc ∧
    (pass e s).banks = s.banks ∧
    (pass e s).cm = s.cm ∧
    (pass e s).mxe = s.mxe ∧
    (pass e s).mxeSaved = s.mxeSaved ∧
    (pass e s).sct = s.sct ∧
    (pass e s).stash = s.stash ∧
    (pass e s).vxe = s.vxe ∧
    (pass e s).pin = s.pin ∧
    (pass e s).seed = s.seed ∧
    (pass e s).gens = s.gens ∧
    (pass e s).reseeds = s.reseeds ∧
    (pass e s).syn = s.syn ∧
    (pass e s).err = s.err ∧
    (pass e s).hst = s.hst ∧
    (pass e s).xmu = s.xmu ∧
    (pass e s).xfer = s.xfer ∧
    (pass e s).lnk = s.lnk ∧
    (pass e s).rsl = s.rsl ∧
    (pass e s).pwr = s.pwr ∧
    (pass e s).tap = s.tap ∧
    (pass e s).bezel = s.bezel ∧
    (pass e s).evts = s.evts ∧
    (pass e s).isolateHost = s.isolateHost ∧
    (pass e s).isolateSeen = s.isolateSeen ∧
    (pass e s).scratch = s.scratch ∧
    (pass e s).nvs = s.nvs ∧
    (pass e s).boot = s.boot ∧
    (pass e s).scrubAt = s.scrubAt := by
  have h := pass_frame s e
  generalize pass e s = t at h
  refine ⟨?_, ?_, ?_, ?_, ?_, ?_, ?_, ?_, ?_, ?_, ?_, ?_, ?_, ?_, ?_, ?_, ?_, ?_, ?_, ?_, ?_, ?_, ?_, ?_, ?_, ?_, ?_,
    ?_, ?_, ?_, ?_, ?_, ?_, ?_, ?_, ?_, ?_, ?_, ?_, ?_, ?_, ?_, ?_, ?_, ?_, ?_, ?_, ?_, ?_, ?_, ?_, ?_, ?_, ?_, ?_, ?_,
    ?_, ?_, ?_, ?_⟩ <;> rw [h]

/-- What `advance` leaves. -/
@[simp] theorem advance_rest (e : Nat) :
    (advance e s).pending = s.pending ∧
    (advance e s).grade = s.grade ∧
    (advance e s).fuseRows = s.fuseRows ∧
    (advance e s).resetAt = s.resetAt ∧
    (advance e s).factor = s.factor ∧
    (advance e s).isolated = s.isolated ∧
    (advance e s).resets = s.resets ∧
    (advance e s).out = s.out ∧
    (advance e s).pos = s.pos ∧
    (advance e s).alias_ = s.alias_ ∧
    (advance e s).dispatched = s.dispatched ∧
    (advance e s).switching = s.switching ∧
    (advance e s).switchFrom = s.switchFrom ∧
    (advance e s).switchTo = s.switchTo ∧
    (advance e s).switchAc = s.switchAc ∧
    (advance e s).lastDisp = s.lastDisp ∧
    (advance e s).quantumUs = s.quantumUs ∧
    (advance e s).slips = s.slips ∧
    (advance e s).switches = s.switches ∧
    (advance e s).lastSwitchAc = s.lastSwitchAc ∧
    (advance e s).dispatchedAt = s.dispatchedAt ∧
    (advance e s).quantumOver = s.quantumOver ∧
    (advance e s).code = s.code ∧
    (advance e s).aff = s.aff ∧
    (advance e s).queues = s.queues ∧
    (advance e s).headAt = s.headAt ∧
    (advance e s).runs = s.runs ∧
    (advance e s).spans = s.spans ∧
    (advance e s).mem = s.mem ∧
    (advance e s).ecc = s.ecc ∧
    (advance e s).banks = s.banks ∧
    (advance e s).cm = s.cm ∧
    (advance e s).mxeSaved = s.mxeSaved ∧
    (advance e s).sct = s.sct ∧
    (advance e s).stash = s.stash ∧
    (advance e s).vxe = s.vxe ∧
    (advance e s).pin = s.pin ∧
    (advance e s).seed = s.seed ∧
    (advance e s).gens = s.gens ∧
    (advance e s).reseeds = s.reseeds ∧
    (advance e s).xmu = s.xmu ∧
    (advance e s).xfer = s.xfer ∧
    (advance e s).lnk = s.lnk ∧
    (advance e s).rsl = s.rsl ∧
    (advance e s).pwr = s.pwr ∧
    (advance e s).tap = s.tap ∧
    (advance e s).bezel = s.bezel ∧
    (advance e s).evts = s.evts ∧
    (advance e s).isolateHost = s.isolateHost ∧
    (advance e s).isolateSeen = s.isolateSeen ∧
    (advance e s).scratch = s.scratch ∧
    (advance e s).nvs = s.nvs ∧
    (advance e s).boot = s.boot ∧
    (advance e s).scrubAt = s.scrubAt := by
  have h := advance_frame s e
  generalize advance e s = t at h
  refine ⟨?_, ?_, ?_, ?_, ?_, ?_, ?_, ?_, ?_, ?_, ?_, ?_, ?_, ?_, ?_, ?_, ?_, ?_, ?_, ?_, ?_, ?_, ?_, ?_, ?_, ?_, ?_,
    ?_, ?_, ?_, ?_, ?_, ?_, ?_, ?_, ?_, ?_, ?_, ?_, ?_, ?_, ?_, ?_, ?_, ?_, ?_, ?_, ?_, ?_, ?_, ?_, ?_, ?_,
    ?_⟩ <;> rw [h]

/-- What `advanceWall` leaves. -/
@[simp] theorem advanceWall_rest (w : Nat) :
    (advanceWall w s).pending = s.pending ∧
    (advanceWall w s).grade = s.grade ∧
    (advanceWall w s).fuseRows = s.fuseRows ∧
    (advanceWall w s).resetAt = s.resetAt ∧
    (advanceWall w s).factor = s.factor ∧
    (advanceWall w s).isolated = s.isolated ∧
    (advanceWall w s).resets = s.resets ∧
    (advanceWall w s).out = s.out ∧
    (advanceWall w s).pos = s.pos ∧
    (advanceWall w s).alias_ = s.alias_ ∧
    (advanceWall w s).dispatched = s.dispatched ∧
    (advanceWall w s).switching = s.switching ∧
    (advanceWall w s).switchFrom = s.switchFrom ∧
    (advanceWall w s).switchTo = s.switchTo ∧
    (advanceWall w s).switchAc = s.switchAc ∧
    (advanceWall w s).lastDisp = s.lastDisp ∧
    (advanceWall w s).quantumUs = s.quantumUs ∧
    (advanceWall w s).slips = s.slips ∧
    (advanceWall w s).switches = s.switches ∧
    (advanceWall w s).lastSwitchAc = s.lastSwitchAc ∧
    (advanceWall w s).dispatchedAt = s.dispatchedAt ∧
    (advanceWall w s).quantumOver = s.quantumOver ∧
    (advanceWall w s).code = s.code ∧
    (advanceWall w s).aff = s.aff ∧
    (advanceWall w s).queues = s.queues ∧
    (advanceWall w s).headAt = s.headAt ∧
    (advanceWall w s).runs = s.runs ∧
    (advanceWall w s).spans = s.spans ∧
    (advanceWall w s).mem = s.mem ∧
    (advanceWall w s).ecc = s.ecc ∧
    (advanceWall w s).banks = s.banks ∧
    (advanceWall w s).cm = s.cm ∧
    (advanceWall w s).mxeSaved = s.mxeSaved ∧
    (advanceWall w s).sct = s.sct ∧
    (advanceWall w s).stash = s.stash ∧
    (advanceWall w s).vxe = s.vxe ∧
    (advanceWall w s).pin = s.pin ∧
    (advanceWall w s).seed = s.seed ∧
    (advanceWall w s).gens = s.gens ∧
    (advanceWall w s).reseeds = s.reseeds ∧
    (advanceWall w s).xmu = s.xmu ∧
    (advanceWall w s).xfer = s.xfer ∧
    (advanceWall w s).lnk = s.lnk ∧
    (advanceWall w s).rsl = s.rsl ∧
    (advanceWall w s).pwr = s.pwr ∧
    (advanceWall w s).tap = s.tap ∧
    (advanceWall w s).bezel = s.bezel ∧
    (advanceWall w s).evts = s.evts ∧
    (advanceWall w s).isolateHost = s.isolateHost ∧
    (advanceWall w s).isolateSeen = s.isolateSeen ∧
    (advanceWall w s).scratch = s.scratch ∧
    (advanceWall w s).nvs = s.nvs ∧
    (advanceWall w s).boot = s.boot ∧
    (advanceWall w s).scrubAt = s.scrubAt := by
  have h := advanceWall_frame s w
  generalize advanceWall w s = t at h
  refine ⟨?_, ?_, ?_, ?_, ?_, ?_, ?_, ?_, ?_, ?_, ?_, ?_, ?_, ?_, ?_, ?_, ?_, ?_, ?_, ?_, ?_, ?_, ?_, ?_, ?_, ?_, ?_,
    ?_, ?_, ?_, ?_, ?_, ?_, ?_, ?_, ?_, ?_, ?_, ?_, ?_, ?_, ?_, ?_, ?_, ?_, ?_, ?_, ?_, ?_, ?_, ?_, ?_, ?_,
    ?_⟩ <;> rw [h]

/-- What `complete` leaves. -/
@[simp] theorem complete_rest (r : HostRef) (a b c d e : Nat) :
    (complete r a b c d e s).pending = s.pending ∧
    (complete r a b c d e s).grade = s.grade ∧
    (complete r a b c d e s).fuseRows = s.fuseRows ∧
    (complete r a b c d e s).ec = s.ec ∧
    (complete r a b c d e s).wall = s.wall ∧
    (complete r a b c d e s).resetAt = s.resetAt ∧
    (complete r a b c d e s).factor = s.factor ∧
    (complete r a b c d e s).isolated = s.isolated ∧
    (complete r a b c d e s).resets = s.resets ∧
    (complete r a b c d e s).free = s.free ∧
    (complete r a b c d e s).out = s.out ∧
    (complete r a b c d e s).pos = s.pos ∧
    (complete r a b c d e s).alias_ = s.alias_ ∧
    (complete r a b c d e s).dispatched = s.dispatched ∧
    (complete r a b c d e s).switching = s.switching ∧
    (complete r a b c d e s).switchFrom = s.switchFrom ∧
    (complete r a b c d e s).switchTo = s.switchTo ∧
    (complete r a b c d e s).switchAc = s.switchAc ∧
    (complete r a b c d e s).lastDisp = s.lastDisp ∧
    (complete r a b c d e s).quantumUs = s.quantumUs ∧
    (complete r a b c d e s).slips = s.slips ∧
    (complete r a b c d e s).switches = s.switches ∧
    (complete r a b c d e s).lastSwitchAc = s.lastSwitchAc ∧
    (complete r a b c d e s).dispatchedAt = s.dispatchedAt ∧
    (complete r a b c d e s).quantumOver = s.quantumOver ∧
    (complete r a b c d e s).ctxs = s.ctxs ∧
    (complete r a b c d e s).code = s.code ∧
    (complete r a b c d e s).aff = s.aff ∧
    (complete r a b c d e s).queues = s.queues ∧
    (complete r a b c d e s).headAt = s.headAt ∧
    (complete r a b c d e s).runs = s.runs ∧
    (complete r a b c d e s).spans = s.spans ∧
    (complete r a b c d e s).mem = s.mem ∧
    (complete r a b c d e s).ecc = s.ecc ∧
    (complete r a b c d e s).banks = s.banks ∧
    (complete r a b c d e s).cm = s.cm ∧
    (complete r a b c d e s).mxe = s.mxe ∧
    (complete r a b c d e s).mxeSaved = s.mxeSaved ∧
    (complete r a b c d e s).sct = s.sct ∧
    (complete r a b c d e s).stash = s.stash ∧
    (complete r a b c d e s).vxe = s.vxe ∧
    (complete r a b c d e s).pin = s.pin ∧
    (complete r a b c d e s).seed = s.seed ∧
    (complete r a b c d e s).gens = s.gens ∧
    (complete r a b c d e s).reseeds = s.reseeds ∧
    (complete r a b c d e s).syn = s.syn ∧
    (complete r a b c d e s).err = s.err ∧
    (complete r a b c d e s).xmu = s.xmu ∧
    (complete r a b c d e s).xfer = s.xfer ∧
    (complete r a b c d e s).lnk = s.lnk ∧
    (complete r a b c d e s).rsl = s.rsl ∧
    (complete r a b c d e s).pwr = s.pwr ∧
    (complete r a b c d e s).tap = s.tap ∧
    (complete r a b c d e s).bezel = s.bezel ∧
    (complete r a b c d e s).evts = s.evts ∧
    (complete r a b c d e s).isolateHost = s.isolateHost ∧
    (complete r a b c d e s).isolateSeen = s.isolateSeen ∧
    (complete r a b c d e s).scratch = s.scratch ∧
    (complete r a b c d e s).nvs = s.nvs ∧
    (complete r a b c d e s).boot = s.boot ∧
    (complete r a b c d e s).stretched = s.stretched ∧
    (complete r a b c d e s).scrubAt = s.scrubAt := by
  have h := complete_frame s r a b c d e
  generalize complete r a b c d e s = t at h
  refine ⟨?_, ?_, ?_, ?_, ?_, ?_, ?_, ?_, ?_, ?_, ?_, ?_, ?_, ?_, ?_, ?_, ?_, ?_, ?_, ?_, ?_, ?_, ?_, ?_, ?_, ?_, ?_,
    ?_, ?_, ?_, ?_, ?_, ?_, ?_, ?_, ?_, ?_, ?_, ?_, ?_, ?_, ?_, ?_, ?_, ?_, ?_, ?_, ?_, ?_, ?_, ?_, ?_, ?_, ?_, ?_, ?_,
    ?_, ?_, ?_, ?_, ?_, ?_⟩ <;> rw [h]

/-- What `logErr` leaves. -/
@[simp] theorem logErr_rest (code sev : Nat) (cause : Cause) (d : List Nat) :
    (logErr code sev cause d s).pending = s.pending ∧
    (logErr code sev cause d s).grade = s.grade ∧
    (logErr code sev cause d s).fuseRows = s.fuseRows ∧
    (logErr code sev cause d s).ec = s.ec ∧
    (logErr code sev cause d s).wall = s.wall ∧
    (logErr code sev cause d s).resetAt = s.resetAt ∧
    (logErr code sev cause d s).factor = s.factor ∧
    (logErr code sev cause d s).isolated = s.isolated ∧
    (logErr code sev cause d s).resets = s.resets ∧
    (logErr code sev cause d s).out = s.out ∧
    (logErr code sev cause d s).pos = s.pos ∧
    (logErr code sev cause d s).alias_ = s.alias_ ∧
    (logErr code sev cause d s).dispatched = s.dispatched ∧
    (logErr code sev cause d s).switching = s.switching ∧
    (logErr code sev cause d s).switchFrom = s.switchFrom ∧
    (logErr code sev cause d s).switchTo = s.switchTo ∧
    (logErr code sev cause d s).switchAc = s.switchAc ∧
    (logErr code sev cause d s).lastDisp = s.lastDisp ∧
    (logErr code sev cause d s).quantumUs = s.quantumUs ∧
    (logErr code sev cause d s).slips = s.slips ∧
    (logErr code sev cause d s).switches = s.switches ∧
    (logErr code sev cause d s).lastSwitchAc = s.lastSwitchAc ∧
    (logErr code sev cause d s).dispatchedAt = s.dispatchedAt ∧
    (logErr code sev cause d s).quantumOver = s.quantumOver ∧
    (logErr code sev cause d s).ctxs = s.ctxs ∧
    (logErr code sev cause d s).code = s.code ∧
    (logErr code sev cause d s).aff = s.aff ∧
    (logErr code sev cause d s).queues = s.queues ∧
    (logErr code sev cause d s).headAt = s.headAt ∧
    (logErr code sev cause d s).runs = s.runs ∧
    (logErr code sev cause d s).spans = s.spans ∧
    (logErr code sev cause d s).mem = s.mem ∧
    (logErr code sev cause d s).ecc = s.ecc ∧
    (logErr code sev cause d s).banks = s.banks ∧
    (logErr code sev cause d s).cm = s.cm ∧
    (logErr code sev cause d s).mxe = s.mxe ∧
    (logErr code sev cause d s).mxeSaved = s.mxeSaved ∧
    (logErr code sev cause d s).sct = s.sct ∧
    (logErr code sev cause d s).stash = s.stash ∧
    (logErr code sev cause d s).vxe = s.vxe ∧
    (logErr code sev cause d s).pin = s.pin ∧
    (logErr code sev cause d s).seed = s.seed ∧
    (logErr code sev cause d s).gens = s.gens ∧
    (logErr code sev cause d s).reseeds = s.reseeds ∧
    (logErr code sev cause d s).syn = s.syn ∧
    (logErr code sev cause d s).xmu = s.xmu ∧
    (logErr code sev cause d s).xfer = s.xfer ∧
    (logErr code sev cause d s).lnk = s.lnk ∧
    (logErr code sev cause d s).rsl = s.rsl ∧
    (logErr code sev cause d s).pwr = s.pwr ∧
    (logErr code sev cause d s).tap = s.tap ∧
    (logErr code sev cause d s).bezel = s.bezel ∧
    (logErr code sev cause d s).evts = s.evts ∧
    (logErr code sev cause d s).isolateHost = s.isolateHost ∧
    (logErr code sev cause d s).isolateSeen = s.isolateSeen ∧
    (logErr code sev cause d s).scratch = s.scratch ∧
    (logErr code sev cause d s).nvs = s.nvs ∧
    (logErr code sev cause d s).boot = s.boot ∧
    (logErr code sev cause d s).stretched = s.stretched ∧
    (logErr code sev cause d s).scrubAt = s.scrubAt := by
  have h := logErr_frame s code sev cause d
  generalize logErr code sev cause d s = t at h
  refine ⟨?_, ?_, ?_, ?_, ?_, ?_, ?_, ?_, ?_, ?_, ?_, ?_, ?_, ?_, ?_, ?_, ?_, ?_, ?_, ?_, ?_, ?_, ?_, ?_, ?_, ?_, ?_,
    ?_, ?_, ?_, ?_, ?_, ?_, ?_, ?_, ?_, ?_, ?_, ?_, ?_, ?_, ?_, ?_, ?_, ?_, ?_, ?_, ?_, ?_, ?_, ?_, ?_, ?_, ?_, ?_, ?_,
    ?_, ?_, ?_, ?_⟩ <;> rw [h]

/-- What `advise` leaves. -/
@[simp] theorem advise_rest (code : Nat) (cause : Cause) (d : List Nat) :
    (advise code cause d s).pending = s.pending ∧
    (advise code cause d s).grade = s.grade ∧
    (advise code cause d s).fuseRows = s.fuseRows ∧
    (advise code cause d s).ec = s.ec ∧
    (advise code cause d s).wall = s.wall ∧
    (advise code cause d s).resetAt = s.resetAt ∧
    (advise code cause d s).factor = s.factor ∧
    (advise code cause d s).isolated = s.isolated ∧
    (advise code cause d s).resets = s.resets ∧
    (advise code cause d s).out = s.out ∧
    (advise code cause d s).pos = s.pos ∧
    (advise code cause d s).alias_ = s.alias_ ∧
    (advise code cause d s).dispatched = s.dispatched ∧
    (advise code cause d s).switching = s.switching ∧
    (advise code cause d s).switchFrom = s.switchFrom ∧
    (advise code cause d s).switchTo = s.switchTo ∧
    (advise code cause d s).switchAc = s.switchAc ∧
    (advise code cause d s).lastDisp = s.lastDisp ∧
    (advise code cause d s).quantumUs = s.quantumUs ∧
    (advise code cause d s).slips = s.slips ∧
    (advise code cause d s).switches = s.switches ∧
    (advise code cause d s).lastSwitchAc = s.lastSwitchAc ∧
    (advise code cause d s).dispatchedAt = s.dispatchedAt ∧
    (advise code cause d s).quantumOver = s.quantumOver ∧
    (advise code cause d s).ctxs = s.ctxs ∧
    (advise code cause d s).code = s.code ∧
    (advise code cause d s).aff = s.aff ∧
    (advise code cause d s).queues = s.queues ∧
    (advise code cause d s).headAt = s.headAt ∧
    (advise code cause d s).runs = s.runs ∧
    (advise code cause d s).spans = s.spans ∧
    (advise code cause d s).mem = s.mem ∧
    (advise code cause d s).ecc = s.ecc ∧
    (advise code cause d s).banks = s.banks ∧
    (advise code cause d s).cm = s.cm ∧
    (advise code cause d s).mxe = s.mxe ∧
    (advise code cause d s).mxeSaved = s.mxeSaved ∧
    (advise code cause d s).sct = s.sct ∧
    (advise code cause d s).stash = s.stash ∧
    (advise code cause d s).vxe = s.vxe ∧
    (advise code cause d s).pin = s.pin ∧
    (advise code cause d s).seed = s.seed ∧
    (advise code cause d s).gens = s.gens ∧
    (advise code cause d s).reseeds = s.reseeds ∧
    (advise code cause d s).syn = s.syn ∧
    (advise code cause d s).xmu = s.xmu ∧
    (advise code cause d s).xfer = s.xfer ∧
    (advise code cause d s).lnk = s.lnk ∧
    (advise code cause d s).rsl = s.rsl ∧
    (advise code cause d s).pwr = s.pwr ∧
    (advise code cause d s).tap = s.tap ∧
    (advise code cause d s).bezel = s.bezel ∧
    (advise code cause d s).evts = s.evts ∧
    (advise code cause d s).isolateHost = s.isolateHost ∧
    (advise code cause d s).isolateSeen = s.isolateSeen ∧
    (advise code cause d s).scratch = s.scratch ∧
    (advise code cause d s).nvs = s.nvs ∧
    (advise code cause d s).boot = s.boot ∧
    (advise code cause d s).stretched = s.stretched ∧
    (advise code cause d s).scrubAt = s.scrubAt := by
  have h := advise_frame s code cause d
  generalize advise code cause d s = t at h
  refine ⟨?_, ?_, ?_, ?_, ?_, ?_, ?_, ?_, ?_, ?_, ?_, ?_, ?_, ?_, ?_, ?_, ?_, ?_, ?_, ?_, ?_, ?_, ?_, ?_, ?_, ?_, ?_,
    ?_, ?_, ?_, ?_, ?_, ?_, ?_, ?_, ?_, ?_, ?_, ?_, ?_, ?_, ?_, ?_, ?_, ?_, ?_, ?_, ?_, ?_, ?_, ?_, ?_, ?_, ?_, ?_, ?_,
    ?_, ?_, ?_, ?_⟩ <;> rw [h]

/-- What `stopCtx` leaves. -/
@[simp] theorem stopCtx_rest (c : Ctx) (code sev tag : Nat) :
    (stopCtx c code sev tag s).pending = s.pending ∧
    (stopCtx c code sev tag s).grade = s.grade ∧
    (stopCtx c code sev tag s).fuseRows = s.fuseRows ∧
    (stopCtx c code sev tag s).ec = s.ec ∧
    (stopCtx c code sev tag s).wall = s.wall ∧
    (stopCtx c code sev tag s).resetAt = s.resetAt ∧
    (stopCtx c code sev tag s).factor = s.factor ∧
    (stopCtx c code sev tag s).isolated = s.isolated ∧
    (stopCtx c code sev tag s).resets = s.resets ∧
    (stopCtx c code sev tag s).free = s.free ∧
    (stopCtx c code sev tag s).out = s.out ∧
    (stopCtx c code sev tag s).pos = s.pos ∧
    (stopCtx c code sev tag s).alias_ = s.alias_ ∧
    (stopCtx c code sev tag s).dispatched = s.dispatched ∧
    (stopCtx c code sev tag s).switching = s.switching ∧
    (stopCtx c code sev tag s).switchFrom = s.switchFrom ∧
    (stopCtx c code sev tag s).switchTo = s.switchTo ∧
    (stopCtx c code sev tag s).switchAc = s.switchAc ∧
    (stopCtx c code sev tag s).lastDisp = s.lastDisp ∧
    (stopCtx c code sev tag s).quantumUs = s.quantumUs ∧
    (stopCtx c code sev tag s).slips = s.slips ∧
    (stopCtx c code sev tag s).switches = s.switches ∧
    (stopCtx c code sev tag s).lastSwitchAc = s.lastSwitchAc ∧
    (stopCtx c code sev tag s).dispatchedAt = s.dispatchedAt ∧
    (stopCtx c code sev tag s).quantumOver = s.quantumOver ∧
    (stopCtx c code sev tag s).code = s.code ∧
    (stopCtx c code sev tag s).aff = s.aff ∧
    (stopCtx c code sev tag s).queues = s.queues ∧
    (stopCtx c code sev tag s).headAt = s.headAt ∧
    (stopCtx c code sev tag s).runs = s.runs ∧
    (stopCtx c code sev tag s).spans = s.spans ∧
    (stopCtx c code sev tag s).mem = s.mem ∧
    (stopCtx c code sev tag s).ecc = s.ecc ∧
    (stopCtx c code sev tag s).banks = s.banks ∧
    (stopCtx c code sev tag s).cm = s.cm ∧
    (stopCtx c code sev tag s).mxe = s.mxe ∧
    (stopCtx c code sev tag s).mxeSaved = s.mxeSaved ∧
    (stopCtx c code sev tag s).sct = s.sct ∧
    (stopCtx c code sev tag s).stash = s.stash ∧
    (stopCtx c code sev tag s).vxe = s.vxe ∧
    (stopCtx c code sev tag s).pin = s.pin ∧
    (stopCtx c code sev tag s).seed = s.seed ∧
    (stopCtx c code sev tag s).gens = s.gens ∧
    (stopCtx c code sev tag s).reseeds = s.reseeds ∧
    (stopCtx c code sev tag s).err = s.err ∧
    (stopCtx c code sev tag s).hst = s.hst ∧
    (stopCtx c code sev tag s).xmu = s.xmu ∧
    (stopCtx c code sev tag s).xfer = s.xfer ∧
    (stopCtx c code sev tag s).lnk = s.lnk ∧
    (stopCtx c code sev tag s).rsl = s.rsl ∧
    (stopCtx c code sev tag s).pwr = s.pwr ∧
    (stopCtx c code sev tag s).tap = s.tap ∧
    (stopCtx c code sev tag s).bezel = s.bezel ∧
    (stopCtx c code sev tag s).evts = s.evts ∧
    (stopCtx c code sev tag s).isolateHost = s.isolateHost ∧
    (stopCtx c code sev tag s).isolateSeen = s.isolateSeen ∧
    (stopCtx c code sev tag s).scratch = s.scratch ∧
    (stopCtx c code sev tag s).nvs = s.nvs ∧
    (stopCtx c code sev tag s).boot = s.boot ∧
    (stopCtx c code sev tag s).stretched = s.stretched ∧
    (stopCtx c code sev tag s).scrubAt = s.scrubAt := by
  have h := stopCtx_frame s c code sev tag
  generalize stopCtx c code sev tag s = t at h
  refine ⟨?_, ?_, ?_, ?_, ?_, ?_, ?_, ?_, ?_, ?_, ?_, ?_, ?_, ?_, ?_, ?_, ?_, ?_, ?_, ?_, ?_, ?_, ?_, ?_, ?_, ?_, ?_,
    ?_, ?_, ?_, ?_, ?_, ?_, ?_, ?_, ?_, ?_, ?_, ?_, ?_, ?_, ?_, ?_, ?_, ?_, ?_, ?_, ?_, ?_, ?_, ?_, ?_, ?_, ?_, ?_, ?_,
    ?_, ?_, ?_, ?_, ?_⟩ <;> rw [h]

/-- What `faultCtx` leaves. -/
@[simp] theorem faultCtx_rest (c : Ctx) (code sev tag : Nat) (d : List Nat) :
    (faultCtx c code sev tag d s).pending = s.pending ∧
    (faultCtx c code sev tag d s).grade = s.grade ∧
    (faultCtx c code sev tag d s).fuseRows = s.fuseRows ∧
    (faultCtx c code sev tag d s).ec = s.ec ∧
    (faultCtx c code sev tag d s).wall = s.wall ∧
    (faultCtx c code sev tag d s).resetAt = s.resetAt ∧
    (faultCtx c code sev tag d s).factor = s.factor ∧
    (faultCtx c code sev tag d s).isolated = s.isolated ∧
    (faultCtx c code sev tag d s).resets = s.resets ∧
    (faultCtx c code sev tag d s).out = s.out ∧
    (faultCtx c code sev tag d s).pos = s.pos ∧
    (faultCtx c code sev tag d s).alias_ = s.alias_ ∧
    (faultCtx c code sev tag d s).dispatched = s.dispatched ∧
    (faultCtx c code sev tag d s).switching = s.switching ∧
    (faultCtx c code sev tag d s).switchFrom = s.switchFrom ∧
    (faultCtx c code sev tag d s).switchTo = s.switchTo ∧
    (faultCtx c code sev tag d s).switchAc = s.switchAc ∧
    (faultCtx c code sev tag d s).lastDisp = s.lastDisp ∧
    (faultCtx c code sev tag d s).quantumUs = s.quantumUs ∧
    (faultCtx c code sev tag d s).slips = s.slips ∧
    (faultCtx c code sev tag d s).switches = s.switches ∧
    (faultCtx c code sev tag d s).lastSwitchAc = s.lastSwitchAc ∧
    (faultCtx c code sev tag d s).dispatchedAt = s.dispatchedAt ∧
    (faultCtx c code sev tag d s).quantumOver = s.quantumOver ∧
    (faultCtx c code sev tag d s).code = s.code ∧
    (faultCtx c code sev tag d s).aff = s.aff ∧
    (faultCtx c code sev tag d s).queues = s.queues ∧
    (faultCtx c code sev tag d s).headAt = s.headAt ∧
    (faultCtx c code sev tag d s).runs = s.runs ∧
    (faultCtx c code sev tag d s).spans = s.spans ∧
    (faultCtx c code sev tag d s).mem = s.mem ∧
    (faultCtx c code sev tag d s).ecc = s.ecc ∧
    (faultCtx c code sev tag d s).banks = s.banks ∧
    (faultCtx c code sev tag d s).cm = s.cm ∧
    (faultCtx c code sev tag d s).mxe = s.mxe ∧
    (faultCtx c code sev tag d s).mxeSaved = s.mxeSaved ∧
    (faultCtx c code sev tag d s).sct = s.sct ∧
    (faultCtx c code sev tag d s).stash = s.stash ∧
    (faultCtx c code sev tag d s).vxe = s.vxe ∧
    (faultCtx c code sev tag d s).pin = s.pin ∧
    (faultCtx c code sev tag d s).seed = s.seed ∧
    (faultCtx c code sev tag d s).gens = s.gens ∧
    (faultCtx c code sev tag d s).reseeds = s.reseeds ∧
    (faultCtx c code sev tag d s).xmu = s.xmu ∧
    (faultCtx c code sev tag d s).xfer = s.xfer ∧
    (faultCtx c code sev tag d s).lnk = s.lnk ∧
    (faultCtx c code sev tag d s).rsl = s.rsl ∧
    (faultCtx c code sev tag d s).pwr = s.pwr ∧
    (faultCtx c code sev tag d s).tap = s.tap ∧
    (faultCtx c code sev tag d s).bezel = s.bezel ∧
    (faultCtx c code sev tag d s).evts = s.evts ∧
    (faultCtx c code sev tag d s).isolateHost = s.isolateHost ∧
    (faultCtx c code sev tag d s).isolateSeen = s.isolateSeen ∧
    (faultCtx c code sev tag d s).scratch = s.scratch ∧
    (faultCtx c code sev tag d s).nvs = s.nvs ∧
    (faultCtx c code sev tag d s).boot = s.boot ∧
    (faultCtx c code sev tag d s).stretched = s.stretched ∧
    (faultCtx c code sev tag d s).scrubAt = s.scrubAt := by
  have h := faultCtx_frame s c code sev tag d
  generalize faultCtx c code sev tag d s = t at h
  refine ⟨?_, ?_, ?_, ?_, ?_, ?_, ?_, ?_, ?_, ?_, ?_, ?_, ?_, ?_, ?_, ?_, ?_, ?_, ?_, ?_, ?_, ?_, ?_, ?_, ?_, ?_, ?_,
    ?_, ?_, ?_, ?_, ?_, ?_, ?_, ?_, ?_, ?_, ?_, ?_, ?_, ?_, ?_, ?_, ?_, ?_, ?_, ?_, ?_, ?_, ?_, ?_, ?_, ?_, ?_, ?_, ?_,
    ?_, ?_⟩ <;> rw [h]

/-- What `raise` leaves. -/
@[simp] theorem raise_rest (cls p op v : Nat) (cause : Cause) :
    (raise cls p op v cause s).pending = s.pending ∧
    (raise cls p op v cause s).grade = s.grade ∧
    (raise cls p op v cause s).fuseRows = s.fuseRows ∧
    (raise cls p op v cause s).ec = s.ec ∧
    (raise cls p op v cause s).wall = s.wall ∧
    (raise cls p op v cause s).resetAt = s.resetAt ∧
    (raise cls p op v cause s).factor = s.factor ∧
    (raise cls p op v cause s).isolated = s.isolated ∧
    (raise cls p op v cause s).resets = s.resets ∧
    (raise cls p op v cause s).free = s.free ∧
    (raise cls p op v cause s).out = s.out ∧
    (raise cls p op v cause s).pos = s.pos ∧
    (raise cls p op v cause s).alias_ = s.alias_ ∧
    (raise cls p op v cause s).dispatched = s.dispatched ∧
    (raise cls p op v cause s).switching = s.switching ∧
    (raise cls p op v cause s).switchFrom = s.switchFrom ∧
    (raise cls p op v cause s).switchTo = s.switchTo ∧
    (raise cls p op v cause s).switchAc = s.switchAc ∧
    (raise cls p op v cause s).lastDisp = s.lastDisp ∧
    (raise cls p op v cause s).quantumUs = s.quantumUs ∧
    (raise cls p op v cause s).slips = s.slips ∧
    (raise cls p op v cause s).switches = s.switches ∧
    (raise cls p op v cause s).lastSwitchAc = s.lastSwitchAc ∧
    (raise cls p op v cause s).dispatchedAt = s.dispatchedAt ∧
    (raise cls p op v cause s).quantumOver = s.quantumOver ∧
    (raise cls p op v cause s).ctxs = s.ctxs ∧
    (raise cls p op v cause s).code = s.code ∧
    (raise cls p op v cause s).aff = s.aff ∧
    (raise cls p op v cause s).queues = s.queues ∧
    (raise cls p op v cause s).headAt = s.headAt ∧
    (raise cls p op v cause s).runs = s.runs ∧
    (raise cls p op v cause s).spans = s.spans ∧
    (raise cls p op v cause s).mem = s.mem ∧
    (raise cls p op v cause s).ecc = s.ecc ∧
    (raise cls p op v cause s).banks = s.banks ∧
    (raise cls p op v cause s).cm = s.cm ∧
    (raise cls p op v cause s).mxe = s.mxe ∧
    (raise cls p op v cause s).mxeSaved = s.mxeSaved ∧
    (raise cls p op v cause s).sct = s.sct ∧
    (raise cls p op v cause s).stash = s.stash ∧
    (raise cls p op v cause s).vxe = s.vxe ∧
    (raise cls p op v cause s).pin = s.pin ∧
    (raise cls p op v cause s).seed = s.seed ∧
    (raise cls p op v cause s).gens = s.gens ∧
    (raise cls p op v cause s).reseeds = s.reseeds ∧
    (raise cls p op v cause s).hst = s.hst ∧
    (raise cls p op v cause s).xmu = s.xmu ∧
    (raise cls p op v cause s).xfer = s.xfer ∧
    (raise cls p op v cause s).lnk = s.lnk ∧
    (raise cls p op v cause s).rsl = s.rsl ∧
    (raise cls p op v cause s).pwr = s.pwr ∧
    (raise cls p op v cause s).tap = s.tap ∧
    (raise cls p op v cause s).bezel = s.bezel ∧
    (raise cls p op v cause s).evts = s.evts ∧
    (raise cls p op v cause s).isolateHost = s.isolateHost ∧
    (raise cls p op v cause s).isolateSeen = s.isolateSeen ∧
    (raise cls p op v cause s).scratch = s.scratch ∧
    (raise cls p op v cause s).nvs = s.nvs ∧
    (raise cls p op v cause s).boot = s.boot ∧
    (raise cls p op v cause s).stretched = s.stretched ∧
    (raise cls p op v cause s).scrubAt = s.scrubAt := by
  have h := raise_frame s cls p op v cause
  generalize raise cls p op v cause s = t at h
  refine ⟨?_, ?_, ?_, ?_, ?_, ?_, ?_, ?_, ?_, ?_, ?_, ?_, ?_, ?_, ?_, ?_, ?_, ?_, ?_, ?_, ?_, ?_, ?_, ?_, ?_, ?_, ?_,
    ?_, ?_, ?_, ?_, ?_, ?_, ?_, ?_, ?_, ?_, ?_, ?_, ?_, ?_, ?_, ?_, ?_, ?_, ?_, ?_, ?_, ?_, ?_, ?_, ?_, ?_, ?_, ?_, ?_,
    ?_, ?_, ?_, ?_, ?_⟩ <;> rw [h]

/-- What `evalAt` leaves. -/
@[simp] theorem evalAt_rest (p k : Nat) :
    (evalAt p k s).pending = s.pending ∧
    (evalAt p k s).grade = s.grade ∧
    (evalAt p k s).fuseRows = s.fuseRows ∧
    (evalAt p k s).ec = s.ec ∧
    (evalAt p k s).wall = s.wall ∧
    (evalAt p k s).resetAt = s.resetAt ∧
    (evalAt p k s).factor = s.factor ∧
    (evalAt p k s).isolated = s.isolated ∧
    (evalAt p k s).resets = s.resets ∧
    (evalAt p k s).out = s.out ∧
    (evalAt p k s).pos = s.pos ∧
    (evalAt p k s).alias_ = s.alias_ ∧
    (evalAt p k s).dispatched = s.dispatched ∧
    (evalAt p k s).switching = s.switching ∧
    (evalAt p k s).switchFrom = s.switchFrom ∧
    (evalAt p k s).switchTo = s.switchTo ∧
    (evalAt p k s).switchAc = s.switchAc ∧
    (evalAt p k s).lastDisp = s.lastDisp ∧
    (evalAt p k s).quantumUs = s.quantumUs ∧
    (evalAt p k s).slips = s.slips ∧
    (evalAt p k s).switches = s.switches ∧
    (evalAt p k s).lastSwitchAc = s.lastSwitchAc ∧
    (evalAt p k s).dispatchedAt = s.dispatchedAt ∧
    (evalAt p k s).quantumOver = s.quantumOver ∧
    (evalAt p k s).code = s.code ∧
    (evalAt p k s).aff = s.aff ∧
    (evalAt p k s).queues = s.queues ∧
    (evalAt p k s).headAt = s.headAt ∧
    (evalAt p k s).runs = s.runs ∧
    (evalAt p k s).spans = s.spans ∧
    (evalAt p k s).mem = s.mem ∧
    (evalAt p k s).ecc = s.ecc ∧
    (evalAt p k s).banks = s.banks ∧
    (evalAt p k s).cm = s.cm ∧
    (evalAt p k s).mxeSaved = s.mxeSaved ∧
    (evalAt p k s).sct = s.sct ∧
    (evalAt p k s).stash = s.stash ∧
    (evalAt p k s).vxe = s.vxe ∧
    (evalAt p k s).pin = s.pin ∧
    (evalAt p k s).seed = s.seed ∧
    (evalAt p k s).gens = s.gens ∧
    (evalAt p k s).reseeds = s.reseeds ∧
    (evalAt p k s).xmu = s.xmu ∧
    (evalAt p k s).xfer = s.xfer ∧
    (evalAt p k s).lnk = s.lnk ∧
    (evalAt p k s).rsl = s.rsl ∧
    (evalAt p k s).pwr = s.pwr ∧
    (evalAt p k s).tap = s.tap ∧
    (evalAt p k s).bezel = s.bezel ∧
    (evalAt p k s).evts = s.evts ∧
    (evalAt p k s).isolateHost = s.isolateHost ∧
    (evalAt p k s).isolateSeen = s.isolateSeen ∧
    (evalAt p k s).scratch = s.scratch ∧
    (evalAt p k s).nvs = s.nvs ∧
    (evalAt p k s).boot = s.boot ∧
    (evalAt p k s).stretched = s.stretched ∧
    (evalAt p k s).scrubAt = s.scrubAt := by
  have h := evalAt_frame s p k
  generalize evalAt p k s = t at h
  refine ⟨?_, ?_, ?_, ?_, ?_, ?_, ?_, ?_, ?_, ?_, ?_, ?_, ?_, ?_, ?_, ?_, ?_, ?_, ?_, ?_, ?_, ?_, ?_, ?_, ?_, ?_, ?_,
    ?_, ?_, ?_, ?_, ?_, ?_, ?_, ?_, ?_, ?_, ?_, ?_, ?_, ?_, ?_, ?_, ?_, ?_, ?_, ?_, ?_, ?_, ?_, ?_, ?_, ?_, ?_, ?_, ?_,
    ?_⟩ <;> rw [h]

/-- What `evalUpTo` leaves. -/
@[simp] theorem evalUpTo_rest (p k : Nat) :
    (evalUpTo p k s).pending = s.pending ∧
    (evalUpTo p k s).grade = s.grade ∧
    (evalUpTo p k s).fuseRows = s.fuseRows ∧
    (evalUpTo p k s).ec = s.ec ∧
    (evalUpTo p k s).wall = s.wall ∧
    (evalUpTo p k s).resetAt = s.resetAt ∧
    (evalUpTo p k s).factor = s.factor ∧
    (evalUpTo p k s).isolated = s.isolated ∧
    (evalUpTo p k s).resets = s.resets ∧
    (evalUpTo p k s).out = s.out ∧
    (evalUpTo p k s).pos = s.pos ∧
    (evalUpTo p k s).alias_ = s.alias_ ∧
    (evalUpTo p k s).dispatched = s.dispatched ∧
    (evalUpTo p k s).switching = s.switching ∧
    (evalUpTo p k s).switchFrom = s.switchFrom ∧
    (evalUpTo p k s).switchTo = s.switchTo ∧
    (evalUpTo p k s).switchAc = s.switchAc ∧
    (evalUpTo p k s).lastDisp = s.lastDisp ∧
    (evalUpTo p k s).quantumUs = s.quantumUs ∧
    (evalUpTo p k s).slips = s.slips ∧
    (evalUpTo p k s).switches = s.switches ∧
    (evalUpTo p k s).lastSwitchAc = s.lastSwitchAc ∧
    (evalUpTo p k s).dispatchedAt = s.dispatchedAt ∧
    (evalUpTo p k s).quantumOver = s.quantumOver ∧
    (evalUpTo p k s).code = s.code ∧
    (evalUpTo p k s).aff = s.aff ∧
    (evalUpTo p k s).queues = s.queues ∧
    (evalUpTo p k s).headAt = s.headAt ∧
    (evalUpTo p k s).runs = s.runs ∧
    (evalUpTo p k s).spans = s.spans ∧
    (evalUpTo p k s).mem = s.mem ∧
    (evalUpTo p k s).ecc = s.ecc ∧
    (evalUpTo p k s).banks = s.banks ∧
    (evalUpTo p k s).cm = s.cm ∧
    (evalUpTo p k s).mxeSaved = s.mxeSaved ∧
    (evalUpTo p k s).sct = s.sct ∧
    (evalUpTo p k s).stash = s.stash ∧
    (evalUpTo p k s).vxe = s.vxe ∧
    (evalUpTo p k s).pin = s.pin ∧
    (evalUpTo p k s).seed = s.seed ∧
    (evalUpTo p k s).gens = s.gens ∧
    (evalUpTo p k s).reseeds = s.reseeds ∧
    (evalUpTo p k s).xmu = s.xmu ∧
    (evalUpTo p k s).xfer = s.xfer ∧
    (evalUpTo p k s).lnk = s.lnk ∧
    (evalUpTo p k s).rsl = s.rsl ∧
    (evalUpTo p k s).pwr = s.pwr ∧
    (evalUpTo p k s).tap = s.tap ∧
    (evalUpTo p k s).bezel = s.bezel ∧
    (evalUpTo p k s).evts = s.evts ∧
    (evalUpTo p k s).isolateHost = s.isolateHost ∧
    (evalUpTo p k s).isolateSeen = s.isolateSeen ∧
    (evalUpTo p k s).scratch = s.scratch ∧
    (evalUpTo p k s).nvs = s.nvs ∧
    (evalUpTo p k s).boot = s.boot ∧
    (evalUpTo p k s).stretched = s.stretched ∧
    (evalUpTo p k s).scrubAt = s.scrubAt := by
  have h := evalUpTo_frame s p k
  generalize evalUpTo p k s = t at h
  refine ⟨?_, ?_, ?_, ?_, ?_, ?_, ?_, ?_, ?_, ?_, ?_, ?_, ?_, ?_, ?_, ?_, ?_, ?_, ?_, ?_, ?_, ?_, ?_, ?_, ?_, ?_, ?_,
    ?_, ?_, ?_, ?_, ?_, ?_, ?_, ?_, ?_, ?_, ?_, ?_, ?_, ?_, ?_, ?_, ?_, ?_, ?_, ?_, ?_, ?_, ?_, ?_, ?_, ?_, ?_, ?_, ?_,
    ?_⟩ <;> rw [h]

/-- What `evalBefore` leaves. -/
@[simp] theorem evalBefore_rest (k : Nat) :
    (evalBefore k s).pending = s.pending ∧
    (evalBefore k s).grade = s.grade ∧
    (evalBefore k s).fuseRows = s.fuseRows ∧
    (evalBefore k s).resetAt = s.resetAt ∧
    (evalBefore k s).factor = s.factor ∧
    (evalBefore k s).isolated = s.isolated ∧
    (evalBefore k s).resets = s.resets ∧
    (evalBefore k s).out = s.out ∧
    (evalBefore k s).pos = s.pos ∧
    (evalBefore k s).alias_ = s.alias_ ∧
    (evalBefore k s).dispatched = s.dispatched ∧
    (evalBefore k s).switching = s.switching ∧
    (evalBefore k s).switchFrom = s.switchFrom ∧
    (evalBefore k s).switchTo = s.switchTo ∧
    (evalBefore k s).switchAc = s.switchAc ∧
    (evalBefore k s).lastDisp = s.lastDisp ∧
    (evalBefore k s).quantumUs = s.quantumUs ∧
    (evalBefore k s).slips = s.slips ∧
    (evalBefore k s).switches = s.switches ∧
    (evalBefore k s).lastSwitchAc = s.lastSwitchAc ∧
    (evalBefore k s).dispatchedAt = s.dispatchedAt ∧
    (evalBefore k s).quantumOver = s.quantumOver ∧
    (evalBefore k s).code = s.code ∧
    (evalBefore k s).aff = s.aff ∧
    (evalBefore k s).queues = s.queues ∧
    (evalBefore k s).headAt = s.headAt ∧
    (evalBefore k s).runs = s.runs ∧
    (evalBefore k s).spans = s.spans ∧
    (evalBefore k s).mem = s.mem ∧
    (evalBefore k s).ecc = s.ecc ∧
    (evalBefore k s).banks = s.banks ∧
    (evalBefore k s).cm = s.cm ∧
    (evalBefore k s).mxeSaved = s.mxeSaved ∧
    (evalBefore k s).sct = s.sct ∧
    (evalBefore k s).stash = s.stash ∧
    (evalBefore k s).vxe = s.vxe ∧
    (evalBefore k s).pin = s.pin ∧
    (evalBefore k s).seed = s.seed ∧
    (evalBefore k s).gens = s.gens ∧
    (evalBefore k s).reseeds = s.reseeds ∧
    (evalBefore k s).xmu = s.xmu ∧
    (evalBefore k s).xfer = s.xfer ∧
    (evalBefore k s).lnk = s.lnk ∧
    (evalBefore k s).rsl = s.rsl ∧
    (evalBefore k s).pwr = s.pwr ∧
    (evalBefore k s).tap = s.tap ∧
    (evalBefore k s).bezel = s.bezel ∧
    (evalBefore k s).evts = s.evts ∧
    (evalBefore k s).isolateHost = s.isolateHost ∧
    (evalBefore k s).isolateSeen = s.isolateSeen ∧
    (evalBefore k s).scratch = s.scratch ∧
    (evalBefore k s).nvs = s.nvs ∧
    (evalBefore k s).boot = s.boot ∧
    (evalBefore k s).scrubAt = s.scrubAt := by
  have h := evalBefore_frame s k
  generalize evalBefore k s = t at h
  refine ⟨?_, ?_, ?_, ?_, ?_, ?_, ?_, ?_, ?_, ?_, ?_, ?_, ?_, ?_, ?_, ?_, ?_, ?_, ?_, ?_, ?_, ?_, ?_, ?_, ?_, ?_, ?_,
    ?_, ?_, ?_, ?_, ?_, ?_, ?_, ?_, ?_, ?_, ?_, ?_, ?_, ?_, ?_, ?_, ?_, ?_, ?_, ?_, ?_, ?_, ?_, ?_, ?_, ?_,
    ?_⟩ <;> rw [h]

/-- What `fetchHeads` leaves. -/
@[simp] theorem fetchHeads_rest  :
    (fetchHeads s).pending = s.pending ∧
    (fetchHeads s).grade = s.grade ∧
    (fetchHeads s).fuseRows = s.fuseRows ∧
    (fetchHeads s).ec = s.ec ∧
    (fetchHeads s).wall = s.wall ∧
    (fetchHeads s).resetAt = s.resetAt ∧
    (fetchHeads s).factor = s.factor ∧
    (fetchHeads s).isolated = s.isolated ∧
    (fetchHeads s).resets = s.resets ∧
    (fetchHeads s).free = s.free ∧
    (fetchHeads s).pos = s.pos ∧
    (fetchHeads s).alias_ = s.alias_ ∧
    (fetchHeads s).dispatched = s.dispatched ∧
    (fetchHeads s).switching = s.switching ∧
    (fetchHeads s).switchFrom = s.switchFrom ∧
    (fetchHeads s).switchTo = s.switchTo ∧
    (fetchHeads s).switchAc = s.switchAc ∧
    (fetchHeads s).lastDisp = s.lastDisp ∧
    (fetchHeads s).quantumUs = s.quantumUs ∧
    (fetchHeads s).slips = s.slips ∧
    (fetchHeads s).switches = s.switches ∧
    (fetchHeads s).lastSwitchAc = s.lastSwitchAc ∧
    (fetchHeads s).dispatchedAt = s.dispatchedAt ∧
    (fetchHeads s).quantumOver = s.quantumOver ∧
    (fetchHeads s).ctxs = s.ctxs ∧
    (fetchHeads s).code = s.code ∧
    (fetchHeads s).aff = s.aff ∧
    (fetchHeads s).queues = s.queues ∧
    (fetchHeads s).headAt = s.headAt ∧
    (fetchHeads s).runs = s.runs ∧
    (fetchHeads s).spans = s.spans ∧
    (fetchHeads s).mem = s.mem ∧
    (fetchHeads s).ecc = s.ecc ∧
    (fetchHeads s).banks = s.banks ∧
    (fetchHeads s).cm = s.cm ∧
    (fetchHeads s).mxe = s.mxe ∧
    (fetchHeads s).mxeSaved = s.mxeSaved ∧
    (fetchHeads s).sct = s.sct ∧
    (fetchHeads s).stash = s.stash ∧
    (fetchHeads s).vxe = s.vxe ∧
    (fetchHeads s).pin = s.pin ∧
    (fetchHeads s).seed = s.seed ∧
    (fetchHeads s).gens = s.gens ∧
    (fetchHeads s).reseeds = s.reseeds ∧
    (fetchHeads s).syn = s.syn ∧
    (fetchHeads s).err = s.err ∧
    (fetchHeads s).hst = s.hst ∧
    (fetchHeads s).xmu = s.xmu ∧
    (fetchHeads s).lnk = s.lnk ∧
    (fetchHeads s).rsl = s.rsl ∧
    (fetchHeads s).pwr = s.pwr ∧
    (fetchHeads s).tap = s.tap ∧
    (fetchHeads s).bezel = s.bezel ∧
    (fetchHeads s).evts = s.evts ∧
    (fetchHeads s).isolateHost = s.isolateHost ∧
    (fetchHeads s).isolateSeen = s.isolateSeen ∧
    (fetchHeads s).scratch = s.scratch ∧
    (fetchHeads s).nvs = s.nvs ∧
    (fetchHeads s).boot = s.boot ∧
    (fetchHeads s).stretched = s.stretched ∧
    (fetchHeads s).scrubAt = s.scrubAt := by
  have h := fetchHeads_frame s
  generalize fetchHeads s = t at h
  refine ⟨?_, ?_, ?_, ?_, ?_, ?_, ?_, ?_, ?_, ?_, ?_, ?_, ?_, ?_, ?_, ?_, ?_, ?_, ?_, ?_, ?_, ?_, ?_, ?_, ?_, ?_, ?_,
    ?_, ?_, ?_, ?_, ?_, ?_, ?_, ?_, ?_, ?_, ?_, ?_, ?_, ?_, ?_, ?_, ?_, ?_, ?_, ?_, ?_, ?_, ?_, ?_, ?_, ?_, ?_, ?_, ?_,
    ?_, ?_, ?_, ?_, ?_⟩ <;> rw [h]

end Sys2Proof.Machine
end

