-- ==== Sys2Proof/WellFormed.lean ====
section
/-!
DEFINITION. Well-formedness: what makes a term of `Instr` one that the hardware can be given. A slot carries the opcode of
its row, and a number lies in its range.
-/
namespace Sys2Proof

/-- The slot holds the opcode (R207, R208). -/
def Slot.has (sl : Slot) (op : Nat) : Bool := sl.w0.toNat % 256 == op
/-- The operation of a VXE slot (R110). -/
def Slot.vop (sl : Slot) : Nat := sl.w4.toNat / 2097152 % 64
/-- The operation of a PIN.ATOM slot (R162). -/
def Slot.aop (sl : Slot) : Nat := sl.w4.toNat % 16
/-- The operation of an SCT.SET slot (R221). -/
def Slot.sctOp (sl : Slot) : Nat := sl.w1.toNat / 256 % 4
/-- The mode of a SYN.HOIST slot (R259). -/
def Slot.hoistMode (sl : Slot) : Nat := sl.w1.toNat / 256 % 4

/-- Whether the opcode table lists an opcode (R208). -/
def listedOpcode (o : Nat) : Bool :=
  decide (o ≤ 9) || decide (0x10 ≤ o ∧ o ≤ 0x16) || o == 0x18 || o == 0x20 || o == 0x24 || o == 0x25
    || decide (0x28 ≤ o ∧ o ≤ 0x2A) || decide (0x30 ≤ o ∧ o ≤ 0x39)

/-- Whether a VXE operation number is one of R110's. -/
def listedVop (v : Nat) : Bool :=
  decide (v ≤ 0x1E) || decide (0x20 ≤ v ∧ v ≤ 0x24) || decide (0x28 ≤ v ∧ v ≤ 0x2D)
    || decide (0x30 ≤ v ∧ v ≤ 0x36) || decide (0x38 ≤ v ∧ v ≤ 0x3B)

/-- A slot with an opcode, a VXE operation, an atomic or a hoist mode that is reserved (R208, R445). -/
def Slot.reserved (sl : Slot) : Bool :=
  !listedOpcode (sl.w0.toNat % 256)
    || (Slot.has sl 0x20 && !listedVop (Slot.vop sl))
    || (Slot.has sl 0x25 && Slot.aop sl == 15)
    || (Slot.has sl 0x2A && Slot.hoistMode sl == 3)

/-- A packet has sixteen header words and at most 4 KiB of payload (R325). -/
def Packet.wf (p : Packet) : Bool := decide (p.hdr.length = 16) && decide (p.data.length ≤ 4096)

/-- At most a line of data errors (R304). -/
def ReadRet.wf : ReadRet → Bool
  | .data bs _ _ => decide (bs.length ≤ 128)
  | .crcErr => true

/-- The board record is 512 bytes, and a repair names a row of a bank (R424, R433). -/
def ResetInput.wf (r : ResetInput) : Bool :=
  r.board.all (fun b => decide (b.length = 512)) && r.bistRows.all (fun p => decide (p.1 < 128) && decide (p.2 < 512))

/-- A command the hardware can be given. -/
def Instr.wf : Instr → Bool
  | .escNop sl => Slot.has sl 0x00
  | .escSet sl => Slot.has sl 0x01
  | .escLdp sl => Slot.has sl 0x02
  | .escAlu sl => Slot.has sl 0x03
  | .escCmp sl => Slot.has sl 0x04
  | .escPlog sl => Slot.has sl 0x05
  | .escCmparm sl => Slot.has sl 0x06
  | .escLoop sl => Slot.has sl 0x07
  | .escEndloop sl => Slot.has sl 0x08
  | .escEnd sl => Slot.has sl 0x09
  | .mxeFill sl => Slot.has sl 0x10
  | .mxeFillA sl => Slot.has sl 0x11
  | .mxeSwap sl => Slot.has sl 0x12
  | .mxeStream sl => Slot.has sl 0x13
  | .ftqCvt sl => Slot.has sl 0x14
  | .sctWriteCfg sl => Slot.has sl 0x15 && Slot.sctOp sl == 0
  | .sctWriteScale sl => Slot.has sl 0x15 && Slot.sctOp sl == 1
  | .sctClear sl => Slot.has sl 0x15 && Slot.sctOp sl == 2
  | .sctRoll sl => Slot.has sl 0x15 && Slot.sctOp sl == 3
  | .sctRead sl => Slot.has sl 0x16
  | .txbLoad sl => Slot.has sl 0x18
  | .vxeAdd sl => Slot.has sl 0x20 && Slot.vop sl == 0x00
  | .vxeSub sl => Slot.has sl 0x20 && Slot.vop sl == 0x01
  | .vxeMul sl => Slot.has sl 0x20 && Slot.vop sl == 0x02
  | .vxeFma sl => Slot.has sl 0x20 && Slot.vop sl == 0x03
  | .vxeMin sl => Slot.has sl 0x20 && Slot.vop sl == 0x04
  | .vxeMax sl => Slot.has sl 0x20 && Slot.vop sl == 0x05
  | .vxeAbs sl => Slot.has sl 0x20 && Slot.vop sl == 0x06
  | .vxeNeg sl => Slot.has sl 0x20 && Slot.vop sl == 0x07
  | .vxeCmpEq sl => Slot.has sl 0x20 && Slot.vop sl == 0x08
  | .vxeCmpNe sl => Slot.has sl 0x20 && Slot.vop sl == 0x09
  | .vxeCmpLt sl => Slot.has sl 0x20 && Slot.vop sl == 0x0A
  | .vxeCmpLe sl => Slot.has sl 0x20 && Slot.vop sl == 0x0B
  | .vxeSelect sl => Slot.has sl 0x20 && Slot.vop sl == 0x0C
  | .vxeCvt sl => Slot.has sl 0x20 && Slot.vop sl == 0x0D
  | .flagsStore sl => Slot.has sl 0x20 && Slot.vop sl == 0x0E
  | .flagsClear sl => Slot.has sl 0x20 && Slot.vop sl == 0x0F
  | .vxeExp sl => Slot.has sl 0x20 && Slot.vop sl == 0x10
  | .vxeExp2 sl => Slot.has sl 0x20 && Slot.vop sl == 0x11
  | .vxeLog sl => Slot.has sl 0x20 && Slot.vop sl == 0x12
  | .vxeLog2 sl => Slot.has sl 0x20 && Slot.vop sl == 0x13
  | .vxeRcp sl => Slot.has sl 0x20 && Slot.vop sl == 0x14
  | .vxeDiv sl => Slot.has sl 0x20 && Slot.vop sl == 0x15
  | .vxeSqrt sl => Slot.has sl 0x20 && Slot.vop sl == 0x16
  | .vxeRsqrt sl => Slot.has sl 0x20 && Slot.vop sl == 0x17
  | .vxeTanh sl => Slot.has sl 0x20 && Slot.vop sl == 0x18
  | .vxeSigmoid sl => Slot.has sl 0x20 && Slot.vop sl == 0x19
  | .vxeSilu sl => Slot.has sl 0x20 && Slot.vop sl == 0x1A
  | .vxeGelu sl => Slot.has sl 0x20 && Slot.vop sl == 0x1B
  | .vxeErf sl => Slot.has sl 0x20 && Slot.vop sl == 0x1C
  | .vxeSin sl => Slot.has sl 0x20 && Slot.vop sl == 0x1D
  | .vxeCos sl => Slot.has sl 0x20 && Slot.vop sl == 0x1E
  | .vxePermute sl => Slot.has sl 0x20 && Slot.vop sl == 0x30
  | .vxeReverse sl => Slot.has sl 0x20 && Slot.vop sl == 0x31
  | .vxeRotate sl => Slot.has sl 0x20 && Slot.vop sl == 0x32
  | .vxeInterleave sl => Slot.has sl 0x20 && Slot.vop sl == 0x33
  | .vxeDeinterleave sl => Slot.has sl 0x20 && Slot.vop sl == 0x34
  | .vxePack sl => Slot.has sl 0x20 && Slot.vop sl == 0x35
  | .vxeUnpack sl => Slot.has sl 0x20 && Slot.vop sl == 0x36
  | .vxeSum sl => Slot.has sl 0x20 && Slot.vop sl == 0x20
  | .vxeRedMax sl => Slot.has sl 0x20 && Slot.vop sl == 0x21
  | .vxeRedMin sl => Slot.has sl 0x20 && Slot.vop sl == 0x22
  | .vxeAmax sl => Slot.has sl 0x20 && Slot.vop sl == 0x23
  | .vxeSumsq sl => Slot.has sl 0x20 && Slot.vop sl == 0x24
  | .vxeTileSum sl => Slot.has sl 0x20 && Slot.vop sl == 0x28
  | .vxeTileMax sl => Slot.has sl 0x20 && Slot.vop sl == 0x29
  | .vxeTileMin sl => Slot.has sl 0x20 && Slot.vop sl == 0x2A
  | .vxeTileAmax sl => Slot.has sl 0x20 && Slot.vop sl == 0x2B
  | .vxeTileSumsq sl => Slot.has sl 0x20 && Slot.vop sl == 0x2C
  | .tstate sl => Slot.has sl 0x20 && Slot.vop sl == 0x2D
  | .smxState sl => Slot.has sl 0x20 && Slot.vop sl == 0x38
  | .smxMerge sl => Slot.has sl 0x20 && Slot.vop sl == 0x39
  | .smxFinal sl => Slot.has sl 0x20 && Slot.vop sl == 0x3A
  | .smxNorm sl => Slot.has sl 0x20 && Slot.vop sl == 0x3B
  | .pinRun sl => Slot.has sl 0x24
  | .atomLoad sl => Slot.has sl 0x25 && Slot.aop sl == 0x0
  | .atomSwap sl => Slot.has sl 0x25 && Slot.aop sl == 0x1
  | .atomCas sl => Slot.has sl 0x25 && Slot.aop sl == 0x2
  | .atomAddI32 sl => Slot.has sl 0x25 && Slot.aop sl == 0x3
  | .atomAddF32 sl => Slot.has sl 0x25 && Slot.aop sl == 0x4
  | .atomMaxI32 sl => Slot.has sl 0x25 && Slot.aop sl == 0x5
  | .atomMinI32 sl => Slot.has sl 0x25 && Slot.aop sl == 0x6
  | .atomMaxU32 sl => Slot.has sl 0x25 && Slot.aop sl == 0x7
  | .atomMinU32 sl => Slot.has sl 0x25 && Slot.aop sl == 0x8
  | .atomMaxF32 sl => Slot.has sl 0x25 && Slot.aop sl == 0x9
  | .atomMinF32 sl => Slot.has sl 0x25 && Slot.aop sl == 0xA
  | .atomAnd sl => Slot.has sl 0x25 && Slot.aop sl == 0xB
  | .atomOr sl => Slot.has sl 0x25 && Slot.aop sl == 0xC
  | .atomXor sl => Slot.has sl 0x25 && Slot.aop sl == 0xD
  | .atomIncWrap sl => Slot.has sl 0x25 && Slot.aop sl == 0xE
  | .synSignal sl => Slot.has sl 0x28
  | .synWait sl => Slot.has sl 0x29
  | .hoistArriveWait sl => Slot.has sl 0x2A && Slot.hoistMode sl == 0
  | .hoistArrive sl => Slot.has sl 0x2A && Slot.hoistMode sl == 1
  | .hoistWait sl => Slot.has sl 0x2A && Slot.hoistMode sl == 2
  | .xdmaRead sl => Slot.has sl 0x30
  | .xdmaWrite sl => Slot.has sl 0x31
  | .xdmaGather sl => Slot.has sl 0x32
  | .xdmaSmread sl => Slot.has sl 0x33
  | .xdmaSmwrite sl => Slot.has sl 0x34
  | .stashClaim sl => Slot.has sl 0x35
  | .stashFetch sl => Slot.has sl 0x36
  | .stashRelease sl => Slot.has sl 0x37
  | .lnkWrite sl => Slot.has sl 0x38
  | .lnkRead sl => Slot.has sl 0x39
  | .engineCommandStart _ => true
  | .commandDone => true
  | .asyncCommandComplete _ => true
  | .arrayLevelFall => true
  | .gateArrival => true
  | .gateDeadlineExpiry => true
  | .gateRelease => true
  | .untimedPointRelease _ => true
  | .quantumExpiry => true
  | .contextSwitch => true
  | .partitionSpill => true
  | .contextStopped _ => true
  | .contextQuiesced _ => true
  | .plainArrival _ => true
  | .combinedArrival _ => true
  | .syncTimeout _ => true
  | .hoistWaitTimeout _ => true
  | .halyardSend => true
  | .signalMessage m => m.w0.toNat % 16 == 1
  | .arriveMessage m => m.w0.toNat % 16 == 2
  | .releaseMessage m => m.w0.toNat % 16 == 3
  | .abortMessage m => m.w0.toNat % 16 == 4
  | .thermalAdvisory m => m.w0.toNat % 16 == 5
  | .linkPacketSend _ _ => true
  | .writePacket _ pkt => pkt.wf && (pkt.hdr.getD 0 0).toNat % 16 == 1
  | .readReq _ pkt => pkt.wf && (pkt.hdr.getD 0 0).toNat % 16 == 2
  | .ack _ pkt => pkt.wf && (pkt.hdr.getD 0 0).toNat % 16 == 3
  | .readData _ pkt => pkt.wf && (pkt.hdr.getD 0 0).toNat % 16 == 4
  | .snapData _ pkt => pkt.wf && (pkt.hdr.getD 0 0).toNat % 16 == 5
  | .snapAck _ pkt => pkt.wf && (pkt.hdr.getD 0 0).toNat % 16 == 6
  | .linkTimeout _ seq => decide (seq < 65536)
  | .linkPortUp _ _ => true
  | .linkPortDown _ => true
  | .xmuReadReturn _ _ ret => ret.wf
  | .wcbLineDrain _ => true
  | .smResponse tag _ _ data => decide (tag < 32768) && decide (data.length = 64)
  | .xmuRowFault _ bank row => decide (bank < 16) && decide (row.row < 65536) && decide (row.errs.length ≤ 2048)
  | .remapCopyDone => true
  | .xmuRemapReq _ => true
  | .retrain _ => true
  | .mapOut _ => true
  | .trainingAttemptEnd _ _ => true
  | .xmuDirHi _ => true
  | .xmuDevCmd _ _ => true
  | .xmuThermalSample t => t.all (fun x => decide (x < 256))
  | .advisoryPeriodExpiry => true
  | .launch _ _ => true
  | .replay _ _ => true
  | .copy _ => true
  | .signal _ => true
  | .wait _ => true
  | .snapshot _ => true
  | .fence _ => true
  | .hstSqDb _ _ => true
  | .hstCqDb _ => true
  | .hstEqDb _ => true
  | .ringStop _ => true
  | .ringResume _ => true
  | .ringReset _ => true
  | .hostReadCompletion tag _ data => decide (tag < 256) && decide (data.length = 64)
  | .recordWrite _ => true
  | .hostWindowWrite space off data be => decide (space < 4) && decide (off < 4294967296) && decide (off % 64 = 0) && decide (data.length = 64) && decide (be.length = 64)
  | .hostWindowRead space off => decide (space < 4) && decide (off < 4294967296) && decide (off % 64 = 0)
  | .registerWrite off _ => decide (off < 1048576) && decide (off % 4 = 0)
  | .ctxQuiesce _ => true
  | .ctxStop _ => true
  | .ctxResume _ => true
  | .ctxClear _ => true
  | .pennantSet p _ => decide (p < 4096)
  | .synHoistCfgWrite h _ => decide (h < 256)
  | .hostArrive h => decide (h < 256)
  | .rearm h => decide (h < 256)
  | .stashCfgWrite _ _ => true
  | .cmemMapCommit => true
  | .cmemPartEvict _ => true
  | .cmemPwrReq bank req => decide (bank < 128) && decide (req < 4)
  | .bankDrainEnd bank => decide (bank < 128)
  | .bankDrainTimeout bank => decide (bank < 128)
  | .bankTransitionDone bank => decide (bank < 128)
  | .cmemRepair bank row => decide (bank < 128) && decide (row < 512)
  | .repairSwitch => true
  | .scrubTick upsets => upsets.all (fun u => decide (u.bank < 128) && decide (u.granule < 8192) && decide (u.word < 8))
  | .scrubWriteback => true
  | .pinFence i _ => decide (i < 4)
  | .pinFenceApply p => decide (p < 128)
  | .pinSelftest p => decide (p < 128)
  | .selftestDone _ => true
  | .sctSrSeed _ => true
  | .healthSample => true
  | .snapshotFloorExpiry => true
  | .snapshotIntervalExpiry => true
  | .snapshotQuiesceEnd => true
  | .snapQuiesceTimeout => true
  | .fillStart => true
  | .fillFinish => true
  | .fillAbort => true
  | .fillTimeout => true
  | .isolate => true
  | .svIsolate => true
  | .coreReset r => r.wf
  | .nvsStore => true
  | .storeComplete _ => true
  | .nvsReload => true
  | .firmwareLoad => true
  | .firmwareLoadDone _ => true
  | .pmDroop => true
  | .droopRelease => true
  | .persistentDroop => true
  | .droopRecovered => true
  | .stretchFallStep => true
  | .dieTempSample ts => decide (ts.length = 8) && ts.all (fun t => decide (t < 256))
  | .powerEstimate _ => true
  | .pllUnlock => true
  | .internalParity unit => decide (unit < 7)
  | .clockGate unit => decide (unit < 130)
  | .svEvt i => decide (i < 4)
  | .evtStuck i => decide (i < 4)
  | .evtUnmask i => decide (i < 4)
  | .chMtemp t => decide (t < 256)
  | .mtempStuck => true
  | .errAck => true
  | .errFlush => true
  | .errTrcMark _ => true
  | .tapFrameSend => true
  | .tapFrame ws => decide (ws.length = 128)
  | .tapGap => true
  | .bezelPowerUp => true
  | .bezelGlitch => true
  | .periodicReport => true
  | .bezelLivePublish => true
  | .report => true
  | .setInterval n => decide (1 ≤ n) && decide (n ≤ 3600)
  | .readReport => true
  | .readCert => true
  | .readLog => true
  | .fwLoad _ => true
  | .calLoad _ => true
  | .retire _ => true
  | .reservedOpcode sl => Slot.reserved sl
  | .creditReturn _ _ => true
  | .chWerr w => decide (w.line < 2 ^ 24)
  | .chPhyRdy _ _ => true
  | .bezelSupplyLoss => true

end Sys2Proof
end

