-- ==== Sys2Proof/Tests/Slice0.lean ====
section
/-!
SUPPORT. Our own tests: an ill-formed term for every check of WellFormed, single steps against the manual's words, and the helpers
that the witness files share. Expected values come from the rules named beside them.
-/
namespace Sys2Proof.Tests
open Sys2Proof.Machine

/-! ### Helpers -/

/-- A slot with an opcode, its words from word 1 on, and an issue record. -/
def slot (op : Nat) (ws : List Nat := []) (irec : Nat := 1) : Slot :=
  let w (i : Nat) : W32 := BitVec.ofNat 32 (ws.getD i 0)
  ⟨BitVec.ofNat 32 op, w 0, w 1, w 2, w 3, w 4, w 5, w 6, BitVec.ofNat 64 irec⟩

/-- The state in which context 0 is dispatched and RUNNING inside a section, its slots from position 0 on. -/
def issuingOf (x : CtxSt) (sls : List Slot) : State :=
  { State.reset with
    dispatched := some 0
    ctxs := [(0, { x with cstate := .running })]
    code := (List.range sls.length).map (fun i => (i, sls.getD i default)) }

/-- A halyard message with its check (R264, R265). -/
def msg (kind w1 w2 w3 : Nat) : HalMsg :=
  let m : HalMsg := ⟨BitVec.ofNat 32 kind, BitVec.ofNat 32 w1, BitVec.ofNat 32 w2, BitVec.ofNat 32 w3⟩
  { m with w2 := BitVec.ofNat 32 (w2 + halCrc m * 2 ^ 16) }

/-- The next state of an outcome. -/
def nextOf (o : Host.Outcome State Fault Refusal) : State :=
  match o with
  | .next t => t
  | _ => State.reset

/-! ### Ill-formed terms -/

theorem test_wf_opcode : Instr.wf (.escNop (slot 0x01)) = false ∧ Instr.wf (.mxeFill (slot 0x11)) = false ∧
    Instr.wf (.synWait (slot 0x28)) = false ∧ Instr.wf (.lnkRead (slot 0x38)) = false ∧ Instr.wf (.escEnd (slot 0x08)) = false := by
  decide
theorem test_wf_operation : Instr.wf (.vxeSub (slot 0x20)) = false ∧ Instr.wf (.atomSwap (slot 0x25)) = false ∧
    Instr.wf (.sctRoll (slot 0x15)) = false ∧ Instr.wf (.hoistWait (slot 0x2A)) = false := by decide
theorem test_wf_reserved : Instr.wf (.reservedOpcode (slot 0x0A)) = true ∧ Instr.wf (.reservedOpcode (slot 0x20)) = false ∧
    Instr.wf (.reservedOpcode (slot 0x20 [0, 0, 0, 0x1F * 2 ^ 21])) = true ∧
    Instr.wf (.reservedOpcode (slot 0x25 [0, 0, 0, 15])) = true ∧ Instr.wf (.reservedOpcode (slot 0x2A [0x300])) = true := by decide
theorem test_wf_messages : Instr.wf (.signalMessage (msg 2 0 0 0)) = false ∧ Instr.wf (.arriveMessage (msg 1 0 0 0)) = false ∧
    Instr.wf (.releaseMessage (msg 4 0 0 0)) = false ∧ Instr.wf (.abortMessage (msg 3 0 0 0)) = false ∧
    Instr.wf (.thermalAdvisory (msg 6 0 0 0)) = false := by decide
theorem test_wf_packets :
    Instr.wf (.writePacket 0 ⟨[1#32], []⟩) = false ∧ Instr.wf (.readReq 0 ⟨List.replicate 16 1#32, []⟩) = false ∧
    Instr.wf (.ack 0 ⟨List.replicate 16 4#32, []⟩) = false ∧ Instr.wf (.readData 0 ⟨List.replicate 16 3#32, []⟩) = false ∧
    Instr.wf (.snapData 0 ⟨List.replicate 16 6#32, []⟩) = false ∧ Instr.wf (.snapAck 0 ⟨List.replicate 16 5#32, []⟩) = false := by
  decide
theorem test_wf_ranges :
    Instr.wf (.linkTimeout 0 65536) = false ∧ Instr.wf (.smResponse 32768 false false []) = false ∧
    Instr.wf (.smResponse 0 false false []) = false ∧ Instr.wf (.xmuRowFault 0 16 ⟨0, []⟩) = false ∧
    Instr.wf (.xmuRowFault 0 0 ⟨65536, []⟩) = false ∧ Instr.wf (.xmuThermalSample (some 256)) = false ∧
    Instr.wf (.hostReadCompletion 256 false []) = false ∧ Instr.wf (.hostReadCompletion 0 false []) = false ∧
    Instr.wf (.registerWrite 1048576 0#32) = false ∧ Instr.wf (.registerWrite 2 0#32) = false ∧
    Instr.wf (.pennantSet 4096 0#32) = false ∧ Instr.wf (.synHoistCfgWrite 256 0#32) = false ∧ Instr.wf (.hostArrive 256) = false ∧
    Instr.wf (.rearm 256) = false := by decide
theorem test_wf_banks :
    Instr.wf (.cmemPwrReq 128 0) = false ∧ Instr.wf (.cmemPwrReq 0 4) = false ∧ Instr.wf (.bankDrainEnd 128) = false ∧
    Instr.wf (.bankDrainTimeout 128) = false ∧ Instr.wf (.bankTransitionDone 128) = false ∧ Instr.wf (.cmemRepair 128 0) = false ∧
    Instr.wf (.cmemRepair 0 512) = false ∧ Instr.wf (.scrubTick [⟨128, 0, 0, false⟩]) = false ∧
    Instr.wf (.scrubTick [⟨0, 8192, 0, false⟩]) = false ∧ Instr.wf (.scrubTick [⟨0, 0, 8, false⟩]) = false ∧
    Instr.wf (.pinFence 4 0#32) = false ∧ Instr.wf (.pinFenceApply 128) = false ∧ Instr.wf (.pinSelftest 128) = false := by decide
theorem test_wf_inputs :
    Instr.wf (.dieTempSample [1]) = false ∧ Instr.wf (.dieTempSample (List.replicate 8 256)) = false ∧
    Instr.wf (.xmuRowFault 0 0 ⟨0, List.replicate 2049 0#8⟩) = false ∧ Instr.wf (.chWerr ⟨0, 16777216⟩) = false ∧
    Instr.wf (.internalParity 7) = false ∧ Instr.wf (.clockGate 130) = false ∧
    Instr.wf (.svEvt 4) = false ∧ Instr.wf (.evtStuck 4) = false ∧ Instr.wf (.evtUnmask 4) = false ∧
    Instr.wf (.chMtemp 256) = false ∧ Instr.wf (.tapFrame []) = false ∧ Instr.wf (.setInterval 0) = false ∧
    Instr.wf (.setInterval 3601) = false := by decide +kernel
theorem test_wf_window :
    Instr.wf (.hostWindowRead 4 0) = false ∧ Instr.wf (.hostWindowRead 1 32) = false ∧
    Instr.wf (.hostWindowRead 1 4294967296) = false ∧ Instr.wf (.hostWindowWrite 1 0 [] []) = false ∧
    Instr.wf (.hostWindowWrite 1 0 (List.replicate 64 0#8) []) = false ∧
    Instr.wf (.hostWindowWrite 4 0 (List.replicate 64 0#8) (List.replicate 64 true)) = false := by decide
theorem test_wf_reset :
    Instr.wf (.coreReset ⟨false, some [], [], 0, true⟩) = false ∧
    Instr.wf (.coreReset ⟨false, none, [(128, 0)], 0, true⟩) = false ∧
    Instr.wf (.coreReset ⟨false, none, [(0, 512)], 0, true⟩) = false ∧
    Instr.wf (.xmuReadReturn 0 0 (.data (List.replicate 129 0#8))) = false := by decide +kernel

/-! ### Numbers (chapter 03) -/

/-- R39: FP32 1.5 and −2, the least subnormal, the infinities and NaN. -/
theorem test_fp32_decode :
    f32 0x3FC00000 = .fin false 0xC00000 (-23) ∧ f32 0xC0000000 = .fin true 0x800000 (-22) ∧ f32 1 = .fin false 1 (-149) ∧
    f32 0x7F800000 = .inf false ∧ f32 0xFF800000 = .inf true ∧ f32 0x7FC00000 = .nan := by decide
/-- R39, R40: E4M3 448 is the largest number, 0x7F is NaN, and E2M1 has no special values: 0x7 is 6. -/
theorem test_small_formats :
    layE4M3.decode 0x7E = .fin false 14 5 ∧ layE4M3.decode 0x7F = .nan ∧ layE2M1.decode 7 = .fin false 3 1 := by decide
/-- R50: 1 + 2^−24 ties to even and rounds down, 1 + 3·2^−24 rounds up to 1 + 2^−22; R57: both are inexact. -/
theorem test_ties_to_even :
    toF32 (.fin false (2 ^ 24 + 1) (-24)) = (0x3F800000, fInexact) ∧
    toF32 (.fin false (2 ^ 24 + 3) (-24)) = (0x3F800002, fInexact) := by decide
/-- R56: overflow gives infinity with sat 0 and the largest number with sat 1. -/
theorem test_overflow :
    (layFP16.encode .rne false (.fin false 65520 0)).1 = 0x7C00 ∧ (layFP16.encode .rne true (.fin false 65520 0)).1 = 0x7BFF := by
  decide
/-- R44, R56: an INT8 result saturates at 127 and −127; 0x80 is never produced. -/
theorem test_int8_saturates : (encodeInt8 .rne (.fin true 128 0)).1 = 0x81 ∧ (encodeInt8 .rne (.fin false 300 0)).1 = 0x7F := by
  decide

/-! ### Checks -/

/-- The check value of CRC-32C in its usual form over the digits 1 to 9 (log 39). -/
theorem test_crc32c : crc32c ((List.range 9).map (fun i => BitVec.ofNat 8 (0x31 + i))) = 0xE3069283 := by decide +kernel

/-! ### Single steps -/

/-- R211: 2^64 − 1 + 1 wraps to 0. -/
theorem test_alu_wraps :
    getAreg (ctx (nextOf (exec (.escAlu (slot 0x03 [0x010])) (issuingOf { areg := [(0, 1#64), (1, 0xFFFFFFFFFFFFFFFF#64)] }
      [slot 0x03 [0x010]]))) 0) 0 = 0#64 := by decide
/-- R211: an arithmetic shift keeps the sign, and takes the low 6 bits of its count. -/
theorem test_alu_shift :
    getAreg (ctx (nextOf (exec (.escAlu (slot 0x03 [0xB010, 65])) (issuingOf { areg := [(1, 0x8000000000000000#64)] }
      [slot 0x03 [0xB010, 65]]))) 0) 0 = 0xC000000000000000#64 := by decide
/-- R26: the second command of a section issues its gap after the first. -/
theorem test_issue_gap :
    (ctx (nextOf (exec (.escNop (slot 0 [] 7)) (issuingOf { lastIssue := 100 } [slot 0 [] 7]))) 0).lastIssue = 107 := by decide
/-- R244, R255: a SIGNAL message with ADD 9 on a count of 3 gives 12. -/
theorem test_signal_adds :
    pennant (nextOf (exec (.signalMessage (msg 1 0 5 9)) { State.reset with syn := { count := [(5, 3)] } })) 5 = 12 := by
  decide +kernel
/-- R246, R247: a take wait of 3 that meets a count of 5 leaves 2 once it has been evaluated. -/
theorem test_take :
    pennant (nextOf (exec (.untimedPointRelease 0) (nextOf (exec (.synWait (slot 0x29 [7 + 2 ^ 12, 3]))
      { issuingOf {} [slot 0x29 [7 + 2 ^ 12, 3]] with syn := { count := [(7, 5)] } })))) 7 = 2 := by decide
/-- R221, R62: SCT.SET with ROLL takes 1 AC and depth 4: issued in EC 1 it reaches the engine in AC 2 and is done in AC 7. -/
theorem test_sct_latency :
    ((nextOf (exec (.engineCommandStart .mxe) (nextOf (exec (.sctRoll (slot 0x15 [0x300]))
      (issuingOf {} [slot 0x15 [0x300]]))))).runs.map Run.doneAc) = [7] := by decide
/-- R376: an accepted droop raises the effective factor to droop_factor + 1, 2 + 1 after reset. -/
theorem test_droop : (assertDroop .input State.reset).factor = 3 := by decide
/-- R10, R443: ID_SCRATCH keeps what is written. -/
theorem test_scratch : regRead (nextOf (exec (.registerWrite 0x14 0xCAFEF00D#32) State.reset)) 0x14 = 0xCAFEF00D := by decide

end Sys2Proof.Tests
end

