-- ==== Sys2Proof/Tests/Witness1.lean ====
section
/-!
SUPPORT. Witnesses: a concrete state and operands that meet all the hypotheses of a statement together, for each of its clauses.
The whole machine, issue, start and completion.
-/
namespace Sys2Proof.Tests
open Sys2Proof.Machine

-- One theorem at a time: a kernel evaluation that waits for an earlier theorem holds a thread of its own.
set_option Elab.async false

/-- A due slot from its conditions. -/
theorem due_of {s : State} {c : Ctx} {sl : Slot}
    (h : s.dispatched = some c ∧ (ctx s c).cstate = .running ∧ (ctx s c).stopping = false ∧ (ctx s c).point = .inSection ∧
      s.switching = false ∧ slotAt s (ctx s c) (ctx s c).pos = sl ∧ settled s (dueEc s (ctx s c) sl) = true ∧
      (ctx (issueState s c sl) c).stopping = false ∧ (ctx (issueState s c sl) c).cstate = .running) : Due s c sl :=
  ⟨h.1, h.2.1, h.2.2.1, h.2.2.2.1, h.2.2.2.2.1, h.2.2.2.2.2.1, h.2.2.2.2.2.2.1, h.2.2.2.2.2.2.2⟩

theorem witness_empty_queue : State.reset.pending = [] ∧ 8 ≤ State.reset.nvs.phase ∧ State.reset.syn.evals = [] ∧
    State.reset.rsl.fill.finishing = false ∧ State.reset.err.trcQ = [] ∧ State.reset.err.trcWait = [] := by decide
theorem witness_memory_canonical : MemInv State.reset ∧ step State.reset = .next (idle State.reset) := ⟨rfl, rfl⟩
theorem witness_isolation : (∀ r, Instr.errFlush ≠ .coreReset r) ∧
    step { { State.reset with isolated := true } with pending := [Instr.errFlush] } =
      .next (inOwnEc 0 errFlush { State.reset with isolated := true }) ∧ ({ State.reset with isolated := true } : State).isolated = true :=
  ⟨fun _ h => Instr.noConfusion h, rfl, rfl⟩
theorem witness_grade : step State.reset = .next (idle State.reset) := rfl

/-! ### Issue -/

/-- A command whose predicate p1 is 0, and one whose predicate is inverted p0. -/
def skipA : Slot := slot 0x00 [] (1 + 2 ^ 20)
def skipB : Slot := slot 0x20 [] (5 + 2 ^ 24)
theorem witness_skipped_scalar : Due (issuingOf {} [skipA]) 0 skipA ∧ ¬ Passes (issuingOf {} [skipA]) 0 skipA ∧
    ∀ f, exec (.escNop skipA) (issuingOf {} [skipA]) ≠ .fault f := by
  refine ⟨due_of (by decide), by unfold Passes; decide, fun f h => ?_⟩
  have e : exec (.escNop skipA) (issuingOf {} [skipA]) = .next (doIssue false (scalar nopOk (fun _ x => x)) skipA (issuingOf {} [skipA])) := rfl
  rw [e] at h; cases h
theorem witness_skipped_engine : Due (issuingOf {} [skipB]) 0 skipB ∧ ¬ Passes (issuingOf {} [skipB]) 0 skipB ∧
    (∃ r ∈ engineRows, r.cmd skipB = .vxeAdd skipB) ∧
    ∀ f, exec (.vxeAdd skipB) (issuingOf {} [skipB]) ≠ .fault f := by
  refine ⟨due_of (by decide), by unfold Passes; decide, ⟨vxeRow 0x00 .vxeAdd, by simp [engineRows, vxeRows], rfl⟩, fun f h => ?_⟩
  have e : ∃ t, exec (.vxeAdd skipB) (issuingOf {} [skipB]) = .next t := ⟨_, rfl⟩
  obtain ⟨t, e⟩ := e
  rw [e] at h; cases h

/-- A slot is due and passes, with its reserved bits zero. -/
def Ready (x : CtxSt) (sls : List Slot) : Prop :=
  Due (issuingOf x sls) 0 (sls.getD 0 default) ∧ Passes (issuingOf x sls) 0 (sls.getD 0 default) ∧
    slotRsv (sls.getD 0 default) = 0

/-- `Ready` from its conditions. -/
theorem ready_of {x : CtxSt} {sls : List Slot}
    (h : (issuingOf x sls).dispatched = some 0 ∧ (ctx (issuingOf x sls) 0).cstate = .running ∧
      (ctx (issuingOf x sls) 0).stopping = false ∧ (ctx (issuingOf x sls) 0).point = .inSection ∧
      (issuingOf x sls).switching = false ∧
      slotAt (issuingOf x sls) (ctx (issuingOf x sls) 0) (ctx (issuingOf x sls) 0).pos = sls.getD 0 default ∧
      settled (issuingOf x sls) (dueEc (issuingOf x sls) (ctx (issuingOf x sls) 0) (sls.getD 0 default)) = true ∧
      (ctx (issueState (issuingOf x sls) 0 (sls.getD 0 default)) 0).stopping = false ∧
      (ctx (issueState (issuingOf x sls) 0 (sls.getD 0 default)) 0).cstate = .running)
    (p : getPred (issueCtx (issuingOf x sls) 0 (sls.getD 0 default)) (predOf (sls.getD 0 default)) ≠ predInv (sls.getD 0 default))
    (r : slotRsv (sls.getD 0 default) = 0) : Ready x sls := ⟨due_of h, p, r⟩

/-- An engine's write of register 15 in AC 2: not yet seen from EC 5, seen from EC 6. -/
theorem witness_late_write : ({} : CtxSt).late = [] ∧ (5 : Nat) < 2 * 2 + 2 ∧ 2 * 2 + 2 ≤ 6 ∧
    ∀ m, SMap.get 0 ({} : CtxSt).wroteAt m ≤ 2 * 2 + 1 := ⟨rfl, by decide, by decide, fun _ => Nat.zero_le _⟩
theorem witness_nop : Ready {} [slot 0x00] ∧ opcodeOf (slot 0x00) = 0 ∧ (slot 0x00).w1 = 0 ∧ (slot 0x00).w7 = 0 :=
  ⟨ready_of (by decide) (by decide) (by decide), by decide⟩
theorem witness_set : Ready {} [slot 0x01 [15, 7, 8]] ∧ opcodeOf (slot 0x01 [15, 7, 8]) = 1 ∧
    (slot 0x01 [15, 7, 8]).w1.toNat < 16 ∧ (slot 0x01 [15, 7, 8]).w4 = 0 ∧ (slot 0x01 [15, 7, 8]).w7 = 0 :=
  ⟨ready_of (by decide) (by decide) (by decide), by decide⟩
theorem witness_ldp : Ready { par := [(63, 9#64)] } [slot 0x02 [1023]] ∧ opcodeOf (slot 0x02 [1023]) = 2 ∧
    (slot 0x02 [1023]).w1.toNat < 2 ^ 10 ∧ (slot 0x02 [1023]).w2 = 0 ∧ (slot 0x02 [1023]).w7 = 0 :=
  ⟨ready_of (by decide) (by decide) (by decide), by decide⟩
theorem witness_alu : Ready {} [slot 0x03 [15 + 15 * 2 ^ 4 + 15 * 2 ^ 8 + 2 ^ 12 + 10 * 2 ^ 13, 5]] ∧
    Ready {} [slot 0x03 [0]] ∧
    (slot 0x03 [15 + 15 * 2 ^ 4 + 15 * 2 ^ 8 + 2 ^ 12 + 10 * 2 ^ 13, 5]).w1.toNat
      = 15 + 15 * 2 ^ 4 + 15 * 2 ^ 8 + b2n true * 2 ^ 12 + 10 * 2 ^ 13 ∧
    (slot 0x03 [0]).w1.toNat = 0 + 0 * 2 ^ 4 + 0 * 2 ^ 8 + b2n false * 2 ^ 12 + 0 * 2 ^ 13 :=
  ⟨ready_of (by decide) (by decide) (by decide), ready_of (by decide) (by decide) (by decide), by decide⟩
theorem witness_cmp : Ready {} [slot 0x04 [15 + 15 * 2 ^ 4 + 15 * 2 ^ 8 + 2 ^ 12 + 5 * 2 ^ 13 + 2 ^ 16, 5]] ∧
    opcodeOf (slot 0x04 [15 + 15 * 2 ^ 4 + 15 * 2 ^ 8 + 2 ^ 12 + 5 * 2 ^ 13 + 2 ^ 16, 5]) = 4 ∧
    (slot 0x04 [15 + 15 * 2 ^ 4 + 15 * 2 ^ 8 + 2 ^ 12 + 5 * 2 ^ 13 + 2 ^ 16, 5]).w1.toNat
      = 15 + 15 * 2 ^ 4 + 15 * 2 ^ 8 + b2n true * 2 ^ 12 + 5 * 2 ^ 13 + b2n true * 2 ^ 16 :=
  ⟨ready_of (by decide) (by decide) (by decide), by decide⟩
theorem witness_plog : Ready {} [slot 0x05 [15 + 15 * 2 ^ 4 + 15 * 2 ^ 8 + 3 * 2 ^ 12]] ∧
    opcodeOf (slot 0x05 [15 + 15 * 2 ^ 4 + 15 * 2 ^ 8 + 3 * 2 ^ 12]) = 5 ∧
    (slot 0x05 [15 + 15 * 2 ^ 4 + 15 * 2 ^ 8 + 3 * 2 ^ 12]).w1.toNat = 15 + 15 * 2 ^ 4 + 15 * 2 ^ 8 + 3 * 2 ^ 12 :=
  ⟨ready_of (by decide) (by decide) (by decide), by decide⟩

/-- An armed and a disarmed comparator, each field at its greatest value. -/
def cmpA : Cmp := { armed := true, pdst := 15, src := 7, kind := true, cond := 5, sgn := true, imm := 3 }
def cmpB : Cmp := { armed := false, pdst := 15, src := 15, kind := false, cond := 0, sgn := false, imm := 3 }
theorem witness_cmparm :
    Ready {} [slot 0x06 [7 + 2 ^ 3 + 15 * 2 ^ 4 + 7 * 2 ^ 8 + 2 ^ 12 + 5 * 2 ^ 13 + 2 ^ 16, 3]] ∧
    Ready {} [slot 0x06 [7 + 15 * 2 ^ 4 + 15 * 2 ^ 8, 3]] ∧ (cmpA.kind = true → cmpA.src < 8) ∧
    (slot 0x06 [7 + 2 ^ 3 + 15 * 2 ^ 4 + 7 * 2 ^ 8 + 2 ^ 12 + 5 * 2 ^ 13 + 2 ^ 16, 3]).w1.toNat
      = 7 + b2n cmpA.armed * 2 ^ 3 + cmpA.pdst * 2 ^ 4 + cmpA.src * 2 ^ 8 + b2n cmpA.kind * 2 ^ 12 + cmpA.cond * 2 ^ 13
        + b2n cmpA.sgn * 2 ^ 16 ∧
    (slot 0x06 [7 + 15 * 2 ^ 4 + 15 * 2 ^ 8, 3]).w1.toNat
      = 7 + b2n cmpB.armed * 2 ^ 3 + cmpB.pdst * 2 ^ 4 + cmpB.src * 2 ^ 8 + b2n cmpB.kind * 2 ^ 12 + cmpB.cond * 2 ^ 13
        + b2n cmpB.sgn * 2 ^ 16 :=
  ⟨ready_of (by decide) (by decide) (by decide), ready_of (by decide) (by decide) (by decide), by decide⟩

/-- A LOOP of counter 7 with its ENDLOOP in the next slot: count n and bound b. -/
def loopOf (n b : Nat) : List Slot := [slot 0x07 [7, 1, n, b], slot 0x08 [7]]
theorem witness_loop : ∀ p ∈ [(0, 0), (3, 3), (4, 3)],
    let s := issuingOf {} (loopOf p.1 p.2)
    let sl := (loopOf p.1 p.2).getD 0 default
    (s.dispatched = some 0 ∧ (ctx s 0).cstate = .running ∧ (ctx s 0).stopping = false ∧ (ctx s 0).point = .inSection ∧
      s.switching = false ∧ slotAt s (ctx s 0) (ctx s 0).pos = sl ∧ settled s (dueEc s (ctx s 0) sl) = true ∧
      (ctx (issueState s 0 sl) 0).stopping = false ∧ (ctx (issueState s 0 sl) 0).cstate = .running) ∧
    slotRsv sl = 0 ∧ opcodeOf sl = 0x07 ∧ sl.w1.toNat = 7 ∧ sl.w2.toNat < 2 ^ 16 ∧ sl.w5 = 0 ∧ sl.w6 = 0 ∧ sl.w7 = 0 ∧
    opcodeOf (slotAt s (issueCtx s 0 sl) ((ctx s 0).pos + sl.w2.toNat)) = 0x08 ∧
    (slotAt s (issueCtx s 0 sl) ((ctx s 0).pos + sl.w2.toNat)).w1.toNat % 8 = 7 ∧
    (∀ l ∈ (issueCtx s 0 sl).loops, l.ctr ≠ 7) ∧ (issueCtx s 0 sl).loops.length < 6 := by decide
theorem witness_endloop : ∀ n ∈ [1, 2],
    let s := issuingOf { loops := [⟨7, 0⟩], lcCnt := [(7, n)] } [slot 0x08 [7]]
    (s.dispatched = some 0 ∧ (ctx s 0).cstate = .running ∧ (ctx s 0).stopping = false ∧ (ctx s 0).point = .inSection ∧
      s.switching = false ∧ slotAt s (ctx s 0) (ctx s 0).pos = slot 0x08 [7] ∧
      settled s (dueEc s (ctx s 0) (slot 0x08 [7])) = true ∧
      (ctx (issueState s 0 (slot 0x08 [7])) 0).stopping = false ∧ (ctx (issueState s 0 (slot 0x08 [7])) 0).cstate = .running) ∧
    slotRsv (slot 0x08 [7]) = 0 ∧ (slot 0x08 [7]).w1.toNat = 7 ∧
    let x := issueCtx s 0 (slot 0x08 [7])
    x.loops = [] ++ [⟨7, 0⟩] ∧
    (SMap.get 0 x.lcIdx 7 + 1 < SMap.get 0 x.lcCnt 7 ∨ SMap.get 0 x.lcCnt 7 ≤ SMap.get 0 x.lcIdx 7 + 1) := by
  decide
theorem witness_end : Ready {} [slot 0x09] ∧ Ready { quiesceReq := true } [slot 0x09] ∧ opcodeOf (slot 0x09) = 0x09 :=
  ⟨ready_of (by decide) (by decide) (by decide), ready_of (by decide) (by decide) (by decide), by decide⟩
theorem witness_reserved : Ready {} [slot 0x0A] ∧ Ready {} [slot 0xFF] ∧ opcodeListed (opcodeOf (slot 0x0A)) = false ∧
    opcodeListed (opcodeOf (slot 0xFF)) = false :=
  ⟨ready_of (by decide) (by decide) (by decide), ready_of (by decide) (by decide) (by decide), by decide⟩

/-- A SWAP. -/
def swapSlot : Slot := slot 0x12
theorem witness_engine_command : (∃ r ∈ engineRows, r.has swapSlot ∧ r.q = .mxe ∧ r.op = 0x12) ∧ Ready {} [swapSlot] ∧
    absentUnit (issuingOf {} [swapSlot]) 0x12 (cmdOf (issuingOf {} [swapSlot]) (ctx (issuingOf {} [swapSlot]) 0) swapSlot).words = false ∧
    fencedPinion (issuingOf {} [swapSlot]) 0x12 (cmdOf (issuingOf {} [swapSlot]) (ctx (issuingOf {} [swapSlot]) 0) swapSlot).words = none ∧
    (queue (issuingOf {} [swapSlot]) .mxe).length < queueDepth (issuingOf {} [swapSlot]).grade .mxe :=
  ⟨⟨plainRow .mxe 0x12 .mxeSwap, by simp [engineRows, mxeRows], ⟨by decide, rfl⟩, rfl, rfl⟩,
    ready_of (by decide) (by decide) (by decide), by decide⟩

/-- A gated STREAM on pennant 9. -/
def gatedSlot : Slot := slot 0x13 [0, 0, 0, 0, 2 ^ 23 + 3 * 2 ^ 16, 256 + 9 * 2 ^ 10]
theorem witness_gated : ∀ q ∈ [false, true],
    let s := issuingOf { quiesceReq := q } [gatedSlot]
    (s.dispatched = some 0 ∧ (ctx s 0).cstate = .running ∧ (ctx s 0).stopping = false ∧ (ctx s 0).point = .inSection ∧
      s.switching = false ∧ slotAt s (ctx s 0) (ctx s 0).pos = gatedSlot ∧ settled s (dueEc s (ctx s 0) gatedSlot) = true ∧
      (ctx (issueState s 0 gatedSlot) 0).stopping = false ∧ (ctx (issueState s 0 gatedSlot) 0).cstate = .running) ∧
    opcodeOf gatedSlot = 0x13 ∧ bit gatedSlot.w5.toNat 23 = true ∧
    getPred (issueCtx s 0 gatedSlot) (predOf gatedSlot) ≠ predInv gatedSlot ∧
    absentUnit s 0x13 (cmdOf s (ctx s 0) gatedSlot).words = false ∧ (queue s .mxe).length < 64 := by decide

/-- A queue entry of context 0 with the words given. -/
def entry (ws : List Nat) : QEnt := { ctx := 0, tag := 5, pos := 0, words := ws, rsv := 0, areg := [], off3 := 0, arrive := 2 }
/-- A full MXE queue. -/
def fullQueue (x : CtxSt) : State := { issuingOf x [swapSlot] with queues := [(0, List.replicate 64 (entry [0x12]))] }
theorem witness_turned_away :
    absentUnit { issuingOf {} [slot 0x11] with grade := .lean } 0x11 [0x11] = true ∧
    (queueDepth (fullQueue {}).grade .mxe ≤ (queue (fullQueue {}) .mxe).length ∧ (issueCtx (fullQueue {}) 0 swapSlot).fresh = false) ∧
    (queueDepth (fullQueue { fresh := true }).grade .mxe ≤ (queue (fullQueue { fresh := true }) .mxe).length ∧
      (issueCtx (fullQueue { fresh := true }) 0 swapSlot).fresh = true ∧
      (issueCtx (fullQueue { fresh := true }) 0 swapSlot).slipping = false) ∧
    slotAt (fullQueue {}) (ctx (fullQueue {}) 0) (ctx (fullQueue {}) 0).pos = swapSlot ∧
    Due (fullQueue {}) 0 swapSlot ∧ Due { issuingOf {} [slot 0x11] with grade := .lean } 0 (slot 0x11) :=
  ⟨by decide, by decide, by decide, by decide, due_of (by decide), due_of (by decide)⟩

/-! ### Start and completion -/

/-- A state with one entry in the MXE queue. -/
def headed (ws : List Nat) : State := { State.reset with queues := [(0, [entry ws])] }
theorem witness_any_head : ∀ q ∈ [QName.mxe, .txb, .vxe, .pin], findsRows (headed [0x12]) q = false := by decide
theorem witness_swap_head : queue (headed [0x12, 0, 0, 0, 0, 0, 0, 0]) .mxe = entry [0x12, 0, 0, 0, 0, 0, 0, 0] :: [] ∧
    (∀ w ∈ slice 1 7 (entry [0x12, 0, 0, 0, 0, 0, 0, 0]).words, w = 0) ∧ (headed [0x12]).pwr.tripped = false ∧
    startDue (headed [0x12]) (Nat.max (readyAc (headed [0x12]) .mxe (entry [0x12])) 0) = false ∧
    settledAc (headed [0x12]) (Nat.max (readyAc (headed [0x12]) .mxe (entry [0x12])) 0) = true := by decide
theorem witness_sct_head :
    sctSetOk [0x15, 0x3FF, 0, 0, 0, 0, 0, 0] = true ∧ sctSetOk [0x15, 0x1FF, 7, 0, 0, 0, 0, 0] = true ∧
    sctReadOk [0x16, 0xFF + 19 * 2 ^ 10 + 15 * 2 ^ 15, 0, 0, 0, 0, 0, 0] = true ∧
    queue (headed [0x15, 0x3FF]) .mxe = entry [0x15, 0x3FF] :: [] ∧ (entry [0x15, 0x3FF]).rsv = 0 ∧
    startDue (headed [0x15, 0x3FF]) (Nat.max (readyAc (headed [0x15, 0x3FF]) .mxe (entry [0x15, 0x3FF])) 0) = false ∧
    settledAc (headed [0x15, 0x3FF]) (Nat.max (readyAc (headed [0x15, 0x3FF]) .mxe (entry [0x15, 0x3FF])) 0) = true := by decide

/-- A running command that carries one change, and one that ends later. -/
def running1 (op : Nat) (f : Eff) : State :=
  { State.reset with runs := [⟨0, 5, op, 2, 3, 7, [f], default, 0⟩, ⟨1, 6, op, 2, 3, 8, [], default, 0⟩] }
theorem witness_done : ∀ f ∈ [Eff.mem 63 [1#8, 2#8], .swap, .sctSet 255 3 0, .sctRead 255 19 15, .laneClear],
    (running1 0x20 f).runs = ⟨0, 5, 0x20, 2, 3, 7, [f], default, 0⟩ :: [⟨1, 6, 0x20, 2, 3, 8, [], default, 0⟩] ∧
    (running1 0x20 f).pwr.tripped = false ∧ startDue (running1 0x20 f) 7 = false ∧
    (running1 0x20 f).xfer.arrivals = [] ∧ (running1 0x20 f).syn.evals = [] ∧
    (∀ x ∈ [(⟨1, 6, 0x20, 2, 3, 8, [], default, 0⟩ : Run)], 7 < x.doneAc) := by decide
theorem witness_done_alone : ∀ f, Alone (running1 0x20 f) ⟨0, 5, 0x20, 2, 3, 7, [f], default, 0⟩ := fun _ => .inl rfl
theorem witness_tracker : (0xFFFFFFFF : Nat) < 2 ^ 32 ∧ ({} : Sct).policy = 0 ∧ ({ policy := 1 } : Sct).policy ≠ 0 ∧
    ({ policy := 2 } : Sct).policy ≠ 1 := by decide
theorem witness_atomic : ∀ op ∈ [0x0, 0x1, 0x2, 0x3, 0x7, 0x8, 0xB, 0xC, 0xD, 0xE],
    let x : Span := { owner := 1, startEc := 4, endEc := 6, doneEc := 14, reads := [64], atom := true }
    let r : Run := ⟨0, 5, 0x25, 2, 3, 7, [.atom 64 op 0xFFFFFFFF 0xFFFFFFFF 15], default, 1⟩
    let s : State := { State.reset with runs := [r], spans := [(1, x)] }
    s.runs = [r] ∧ r.effs = [.atom 64 op 0xFFFFFFFF 0xFFFFFFFF 15] ∧ r.opcode = 0x25 ∧ r.seat ≠ 0 ∧ s.spans = [(r.seat, x)] ∧
    x.took = none ∧ x.old = [] ∧ x.landed = [] ∧ x.dirty = false ∧ x.atom = true ∧ s.xfer.arrivals = [] ∧ s.syn.evals = [] ∧ s.pwr.tripped = false ∧
    startDue s r.doneAc = false ∧ (0xFFFFFFFF : Nat) < 2 ^ 32 := by decide

/-! ### The activity level and the gate -/

theorem witness_level : ({ State.reset with mxe := { lvl := 8 } } : State).mxe.lvlUp = false ∧
    0 < ({ State.reset with mxe := { lvl := 8 } } : State).mxe.lvl ∧
    ({ State.reset with mxe := { lvl := 8 } } : State).syn.evals = [] := by decide

/-- A gated STREAM of E4M3 rows at the head of the queue, with pennant 9 at n. -/
def gateWords : List Nat := [0x13, 0, 0, 0, 0, 2 ^ 23 + 3 * 2 ^ 16, 256 + 9 * 2 ^ 10, 0]
def atGate (n : Nat) (g : Option Gate) : State :=
  { State.reset with
    queues := [(0, [entry gateWords])]
    ctxs := [(0, { cstate := .running, point := .gated })]
    cm := { State.reset.cm with partSize := [(0, 4096)], resident := [0] }
    mxe := { active := { fmt := 3 }, gate := g }, syn := { count := [(9, n)] } }
/-- The gate reached in AC 3, with its deadline expired or not and its condition met or not. -/
def gateAt (expired met : Bool) : Gate := ⟨3, expired, met, 9, []⟩
theorem witness_gate_arrival : gatedHead (atGate 0 none) = some (entry gateWords) ∧ (atGate 0 none).mxe.gate = none ∧
    streamOk true (entry gateWords) = true ∧ streamRow (behindSwaps (atGate 0 none)) (entry gateWords).words = some 1 ∧
    settledAc (atGate 0 none) (readyAc (atGate 0 none) .mxe (entry gateWords)) = true ∧
    (atGate 0 none).syn.evals = [] ∧ (atGate 0 none).pwr.tripped = false := by decide
theorem witness_gate_deadline : gatedHead (atGate 0 (some (gateAt false false))) = some (entry gateWords) ∧
    (atGate 0 (some (gateAt false false))).mxe.gate = some (gateAt false false) ∧ (gateAt false false).expired = false ∧
    (atGate 0 (some (gateAt false false))).syn.evals = [] := by decide
theorem witness_gate_release : ∀ p ∈ [(0, true, false), (1, true, false), (300, false, false), (5, false, true)],
    let s := atGate p.1 (some (gateAt p.2.1 p.2.2))
    let e := entry gateWords
    gatedHead s = some e ∧ s.mxe.gate = some (gateAt p.2.1 p.2.2) ∧
    (p.2.1 = true ∨ p.2.2 = true ∨ 256 ≤ pennant s (bits (wd e.words 6) 21 10)) ∧ s.runs = [] ∧ s.syn.evals = [] ∧
    levelZeroAt s.mxe (Nat.max (ac s) s.mxe.entryFree) = some 0 ∧ adpEn e.words = false ∧ (ftq s (bits (wd e.words 5) 14 12)).st = .free ∧
    settledAc s 0 = true ∧ streamRow s e.words = some 1 ∧ (∀ w ∈ s.syn.waits, w.pennant ≠ bits (wd e.words 6) 21 10) ∧
    s.syn.upds = [] ∧ s.pwr.tripped = false ∧ (ctx s e.ctx).point = .gated := by decide
theorem witness_gate_rows : ∀ p ∈ [(1, true, 1), (300, false, 256)],
    accessFault (atGate p.1 (some (gateAt p.2.1 false))) ownMxe 0 (fun r => decide (r = .mxeBuf)) (granules (streamOpnd gateWords p.2.2).ranges) []
      = none := by decide +kernel

end Sys2Proof.Tests
end

