-- ==== Sys2Proof/Tests/Witness2.lean ====
section
/-!
SUPPORT. Witnesses, clause by clause: the escapement between sections, pennants, hoists, the halyard, arrivals and the commands that
complete later.
-/
namespace Sys2Proof.Tests
open Sys2Proof.Machine

-- One theorem at a time: a kernel evaluation that waits for an earlier theorem holds a thread of its own.
set_option Elab.async false

/-! ### The escapement between sections -/

/-- A state with these contexts, context 0 dispatched and the EC 5. -/
def withCtxs (l : List (Nat × CtxSt)) : State := { State.reset with ctxs := l, dispatched := some 0, lastDisp := some 0, ec := 5 }

theorem witness_release : ∀ s ∈ [withCtxs [(0, { cstate := .running, point := .releasing 9 })],
      { withCtxs [(0, { cstate := .running, point := .releasing 9 })] with dispatched := some 7 },
      { withCtxs [(0, { cstate := .running, point := .releasing 0, outLeft := 40 })] with dispatched := none }],
    (ctx s 0).cstate = .running ∧ (ctx s 0).stopping = false ∧ s.switching = false ∧ s.syn.evals = [] ∧
    (∃ d ∈ [0, 9], (ctx s 0).point = .releasing d) ∧ outHeld s 0 = false ∧
    (s.dispatched = some 0 → mustYield s 0 = false) := by decide
theorem witness_best_ready :
    let s := withCtxs [(0, {}), (3, { cstate := .running, point := .start, prio := 2 }), (7, { cstate := .running, point := .released 4, prio := 3 })]
    bestReady s (some 0) = some 7 ∧ (3 : Ctx) ≠ 0 ∧ ready s 3 = true := by decide
theorem witness_quantum_and_switch :
    let w : CtxSt := { cstate := .running, point := .start, prio := 3 }
    let s := withCtxs [(0, { cstate := .running, point := .pennant }), (7, w)]
    let z : State := { State.reset with ctxs := [(7, w)] }
    s.switching = false ∧ s.isolated = false ∧ s.syn.evals = [] ∧ z.syn.evals = [] ∧ s.dispatched = some 0 ∧ s.quantumUs ≠ 0 ∧ s.quantumOver = false ∧
    usesMxe s 7 = false ∧ partSize s 7 = 0 ∧ (ctx s 7).point = .start ∧ bestReady s (some 0) = some 7 ∧ leaves s 0 = true ∧
    leftEngines s 0 = true ∧ (ctx s 0).point ≠ .gated ∧
    z.switching = false ∧ z.isolated = false ∧ z.dispatched = none ∧ z.lastDisp = none ∧ bestReady z none = some 7 ∧
    usesMxe z 7 = false ∧ partSize z 7 = 0 ∧ (ctx z 7).point = .start := by decide
theorem witness_host_controls :
    let s := withCtxs [(0, { cstate := .running }), (1, { cstate := .running, point := .start }), (2, {}),
      (3, { cstate := .quiesced, paused := true, imageValid := true, img := { sig := mapSig State.reset.cm.active } }),
      (4, { cstate := .quiesced, paused := true, imageValid := true, img := { sig := mapSig State.reset.cm.active + 1 } })]
    s.syn.evals = [] ∧ (ctx s 0).cstate = .running ∧ (ctx s 0).stopping = false ∧ (ctx s 0).point = .inSection ∧
    (ctx s 1).cstate = .running ∧ (ctx s 1).stopping = false ∧ (ctx s 1).point = .start ∧
    (ctx s 2).cstate = .stopped ∧ (ctx s 3).cstate = .quiesced ∧ (ctx s 3).paused = true ∧ (ctx s 3).stopping = false ∧
    (ctx s 3).imageValid = true ∧ (ctx s 3).img.sig = mapSig s.cm.active ∧ (ctx s 4).cstate = .quiesced ∧
    (ctx s 4).paused = true ∧ (ctx s 4).stopping = false ∧ (ctx s 4).imageValid = true ∧
    (ctx s 4).img.sig ≠ mapSig s.cm.active ∧ 8 ≤ s.nvs.phase := by decide +kernel
/-- A context at each point at which a quiesce request finds it. -/
theorem witness_quiesce : ∀ x ∈ [Point.inSection, .ending, .pausing, .start, .released 4, .releasing 2, .pennant, .hoist, .gated],
    let s : State := { withCtxs [(7, { cstate := .running, point := x, pos := 1 })] with
      queues := [(0, [{ entry [0x13, 0, 0, 0, 0, 2 ^ 23, 0, 0] with ctx := 7 }])]
      syn := { waits := [⟨.ctx 7, 4095, true, 2, none, false, 0, 7, 2, none⟩], hoists := [(255, { waiters := [⟨7, false, none, 0, false, 0, 9⟩] })] } }
    8 ≤ s.nvs.phase ∧ s.syn.evals = [] ∧ (ctx s 7).cstate = .running ∧ (ctx s 7).stopping = false ∧ (ctx s 7).point = x := by decide
theorem witness_rest :
    let r : HostRef := ⟨2, 3, 9, 7, true⟩
    let s := withCtxs [(0, { cstate := .running, stopping := true, faultCode := 9 }), (1, { cstate := .running, point := .pausing }),
      (2, { cstate := .running, point := .ending, launch := some r }), (7, { cstate := .running, point := .ending })]
    (ctx s 0).stopping = true ∧ queuedOf s 0 = [] ∧ s.syn.evals = [] ∧ outHeld s 2 = false ∧ outHeld s 7 = false ∧
    (ctx s 1).stopping = false ∧ (ctx s 1).cstate = .running ∧ (ctx s 1).point = .pausing ∧ timedQueued s 1 = [] ∧
    runsOf s 1 = false ∧
    (ctx s 2).stopping = false ∧ (ctx s 2).cstate = .running ∧ (ctx s 2).point = .ending ∧ drained s 2 = true ∧
    (ctx s 2).launch = some r ∧ r.kind ≠ 5 ∧ r.cmpl = true ∧ s.hst.cqQ.length < 64 ∧
    (ctx s 7).stopping = false ∧ (ctx s 7).cstate = .running ∧ (ctx s 7).point = .ending ∧ drained s 7 = true ∧
    (ctx s 7).launch = none := by decide

/-- A populated external memory with its four channels active. -/
def onXmu : XmuSt := { populated := true, density := 1, chans := (List.range 4).map (fun i => (i, { st := .active })) }
theorem witness_eviction :
    let s : State := { withCtxs [(1, { cstate := .running })] with
      xmu := onXmu, cm := { State.reset.cm with resident := [7], partSize := [(7, 1)], evicting := [7] } }
    (ctx s 1).cstate = .running ∧
    (ctx s 7).cstate ≠ .running ∧ (ctx s 7).stopping = false ∧ drained s 7 = true ∧ s.switching = false ∧ s.rsl.snap.phase = 0 ∧
    s.rsl.fill.st ≠ 1 ∧ residentPart s 7 = true ∧ s.runs = [] ∧ s.cm.evicting = [(7 : Ctx).val] ∧ 8 ≤ s.nvs.phase ∧
    s.cm.spilling = [] ∧ inOrder s (ac s) = true ∧ s.syn.evals = [] ∧
    extFault s.xmu (spillExt s 7) (partSize s 7 * 16384) = none := by decide +kernel
/-- A spill whose last line the external memory unit has accepted. -/
theorem witness_spilled :
    let s : State := { withCtxs [] with
      xmu := onXmu, cm := { State.reset.cm with resident := [7], partSize := [(7, 1)], evicting := [7], spilling := [(7, 9)] } }
    s.cm.evicting = [(7 : Ctx).val] ∧ residentPart s 7 = true ∧ s.cm.spilling = [((7 : Ctx).val, 9)] ∧
    extFault s.xmu (spillExt s 7) (partSize s 7 * 16384) = none ∧ lateOf 9 (flushLate 9 s) = false := by decide +kernel

/-! ### Pennants -/

theorem witness_pennant_update : ∀ m ∈ [msg 1 0 4095 5, msg 1 0 (4095 + 2 ^ 12) 5, msg 1 0 (4095 + 2 ^ 13) 5],
    let s : State := { State.reset with syn := { count := [(4095, 2 ^ 32 - 1)] } }
    (4095 : Nat) < 4096 ∧ State.reset.isolated = false ∧ 8 ≤ State.reset.nvs.phase ∧
    (bits m.w0.toNat 3 0 = 1 ∧ bits m.w2.toNat 31 16 = halCrc m ∧ acceptsPos State.reset (bits m.w0.toNat 25 4) = true) ∧
    bits m.w2.toNat 11 0 = 4095 ∧ bits m.w2.toNat 13 12 ≤ 2 ∧
    2 ^ 32 ≤ pennant s 4095 + m.w3.toNat ∧ pennant State.reset 4095 < m.w3.toNat := by decide +kernel

theorem witness_untouched : Untouched State.reset 4095 :=
  ⟨fun _ h => absurd h List.not_mem_nil, fun _ h => (by cases h), fun _ h => absurd h List.not_mem_nil,
    fun _ h => absurd h List.not_mem_nil⟩

/-- A wait of context c on pennant 4095. -/
def wait (c : Ctx) (take : Bool) (v : Nat) : PWait := ⟨.ctx c, 4095, take, v, none, false, 0, 7, 6, none⟩
theorem witness_wait_order : ∀ p ∈ [(true, 1), (true, 3), (true, 9), (false, 1)],
    let w1 := wait 0 true 2
    let w2 := wait 7 p.1 (if p.1 then 2 else 1)
    let h : PWait := { wait 1 true 1 with who := .host 3 9 7 true }
    let s : State := { State.reset with syn := { waits := [w1, w2, h], count := [(4095, p.2)], updAc := 2 } }
    s.mxe.gate = none ∧ s.syn.waits.Nodup ∧ (∀ w ∈ s.syn.waits, w.gone = none) ∧ s.syn.updAc ≠ 3 ∧
    w1.standsAt 3 = true ∧ w2.standsAt 3 = true ∧ h.standsAt 3 = true ∧ s.hst.eqQ.length + 3 ≤ 64 ∧
    w1 ∈ s.syn.waits ∧ w1.pennant = 4095 ∧ 8 ≤ s.nvs.phase ∧ s.isolated = false ∧ s.syn.evals = [] ∧ s.syn.upds = [] := by decide
/-- An evaluation of AC 3 is due when time passes to EC 8; so is a host entry that the pennant unit is to see. -/
theorem witness_evaluation_due : ∀ n ∈ [4095, 4352],
    let s : State := { State.reset with syn := { evals := [(3, n)] } }
    s.syn.evals = [(3, n)] ∧ s.ec < 8 ∧ 3 < 8 / 2 ∧ (comeDue n 3 (pass (2 * 3 + 1) s)).syn.evals = [] := by decide
theorem witness_set_and_add :
    bits (msg 1 0 4095 5).w2.toNat 11 0 = 4095 ∧ bits (msg 1 0 4095 5).w2.toNat 13 12 = 0 ∧ 7 + (msg 1 0 4095 5).w3.toNat < 2 ^ 32 ∧
    bits (msg 1 0 4095 5).w0.toNat 3 0 = 1 ∧ bits (msg 1 0 4095 5).w2.toNat 31 16 = halCrc (msg 1 0 4095 5) := by decide +kernel

/-- A SYN.WAIT that takes n from pennant 4095 with a predicate action on p15. -/
def waitSlot (n : Nat) : Slot := slot 0x29 [4095 + 2 ^ 12 + 2 ^ 13 + 15 * 2 ^ 14, n, 0xFFFFF]
theorem witness_wait_issue : Ready {} [waitSlot 0] ∧ Ready {} [waitSlot 1] ∧ opcodeOf (waitSlot 1) = 0x29 ∧
    (waitSlot 1).w1.toNat = 4095 + b2n true * 2 ^ 12 + b2n true * 2 ^ 13 + 15 * 2 ^ 14 ∧ (waitSlot 1).w3.toNat < 2 ^ 20 :=
  ⟨ready_of (by decide) (by decide) (by decide), ready_of (by decide) (by decide) (by decide), by decide⟩
/-- A wait of context 7 that reached the unit in AC 3, before its evaluation there: on a count that it reaches, and one below. -/
theorem witness_wait_release : ∀ p ∈ [(true, 2), (false, 2), (true, 1)],
    let w : PWait := ⟨.ctx 7, 4095, p.1, 2, none, true, 15, 7, 6, none⟩
    let s : State := { withCtxs [(7, { cstate := .running, point := .pennant })] with
      dispatched := some 7, syn := { waits := [w], evals := [(3, 4095)], count := [(4095, p.2)] } }
    s.syn.waits = [w] ∧ w.who = .ctx 7 ∧ w.gone = none ∧ s.syn.evals = [(w.at_ / 2, w.pennant)] ∧ ac s ≤ w.at_ / 2 ∧
    s.mxe.gate = none ∧ settledAc s (w.at_ / 2) = true ∧ (ctx s 7).point = .pennant ∧ (ctx s 7).cstate = .running ∧
    (ctx s 7).stopping = false ∧ s.dispatched = some 7 ∧ s.switching = false ∧ mustYield s 7 = false ∧ outHeld s 7 = false ∧
    (ctx s 7).outLeft ≤ 2 * (w.at_ / 2) + 2 ∧
    (w.value ≤ pennant s w.pennant ∨ pennant s w.pennant < w.value) := by decide
theorem witness_wait_timeouts : ∀ act ∈ [false, true],
    let w : PWait := ⟨.ctx 7, 4095, true, 2, some 240, act, if act then 15 else 0, 7, 6, none⟩
    let h : HWait := ⟨7, false, some 240, 0, act, if act then 15 else 0, 9⟩
    let s : State := { withCtxs [(7, { cstate := .running, point := .pennant })] with
      syn := { waits := [w], hoists := [(255, { waiters := [h], abortOnTimeout := false })] } }
    (ctx s 7).stopping = false ∧ (ctx s 7).cstate = .running ∧ s.syn.waits = [w] ∧ w.who = .ctx 7 ∧ w.due = some 240 ∧
    s.runs = [] ∧ s.syn.evals = [] ∧ w.act = act ∧ hwaitOf s 7 = some (255, h) ∧ s.mxe.gate = none ∧ h.due = some 240 ∧ (hoist s 255).abortOnTimeout = false ∧ h.act = act := by
  decide

/-! ### Hoists and the halyard -/

/-- Hoist 255 with host software and context 7 as its participants, in service. -/
def hoist0 : Hoist := { mask := 2 ^ 8 + 2 ^ 7, enable := true, root := true }
theorem witness_hoist_host : ∀ q ∈ [7, 8],
    let s : State := { State.reset with syn := { hoists := [(255, hoist0)] } }
    (255 : Nat) < 256 ∧ q ≤ 8 ∧ (hoist s 255).enable = true ∧ bit (hoist s 255).mask q = true ∧ (hoist s 255).st = .open_ ∧
    bit (hoist s 255).marksN q = false ∧
    popcount 9 ((hoist s 255).marksN ||| 2 ^ q) + (hoist s 255).childN.length ≠ parties (hoist s 255) := by decide
theorem witness_hoist_entry : ∀ mode ∈ [0, 1, 2],
    let sl := slot 0x2A [255 + mode * 2 ^ 8]
    let s : State := { State.reset with
      dispatched := some 7, ctxs := [(7, { cstate := .running })], code := [(0, sl)], syn := { hoists := [(255, hoist0)] } }
    (s.dispatched = some 7 ∧ (ctx s 7).cstate = .running ∧ (ctx s 7).stopping = false ∧ (ctx s 7).point = .inSection ∧
      s.switching = false ∧ slotAt s (ctx s 7) (ctx s 7).pos = sl ∧ settled s (dueEc s (ctx s 7) sl) = true ∧
      (ctx (issueState s 7 sl) 7).stopping = false ∧ (ctx (issueState s 7 sl) 7).cstate = .running) ∧
    getPred (issueCtx s 7 sl) (predOf sl) ≠ predInv sl ∧ slotRsv sl = 0 ∧ opcodeOf sl = 0x2A ∧
    (issueCtx s 7 sl).quiesceReq = false ∧ mode ≤ 2 ∧ sl.w1.toNat = 255 + mode * 2 ^ 8 + b2n false * 2 ^ 10 + 0 * 2 ^ 11 ∧
    sl.w2 = 0 ∧ sl.w7 = 0 := by decide
/-- A SYN.HOIST of context 7 on its way to hoist 255: the epoch still lacks a participant, or has every other mark. -/
theorem witness_hoist_arrival : ∀ p ∈ [(0, 0, 0, 0), (1, 0, 0, 0), (2, 0, 0, 0), (2, 0, 2 ^ 7, 0), (0, 2 ^ 8, 0, 2), (1, 2 ^ 8, 0, 2)],
    let n : HEnt := { ctx := 7, ac := 3, hoist := 255, mode := p.1, act := false, pred := 0, tag := 9 }
    let ws : List HWait := if p.2.2.2 = 2 then [⟨6, false, none, 0, false, 0, 9⟩] else []
    let s : State := { State.reset with
      syn := { ents := [n], hoists := [(255, { hoist0 with marksN := p.2.1, entered := p.2.2.1, waiters := ws })] } }
    s.syn.ents = [n] ∧ n.ctx.val = 7 ∧ n.hoist = 255 ∧ n.gone = false ∧ (hoist s 255).enable = true ∧
    bit (hoist s 255).mask 7 = true ∧ (hoist s 255).st = .open_ ∧ bit (hoist s 255).marksN 7 = false ∧
    bit (hoist s 255).marksN1 7 = false ∧
    (popcount 9 ((hoist s 255).marksN ||| 2 ^ 7) + (hoist s 255).childN.length ≠ parties (hoist s 255) ∨
      popcount 9 ((hoist s 255).marksN ||| 2 ^ 7) = popcount 9 (hoist s 255).mask ∧ (hoist s 255).root = true ∧
      (hoist s 255).childCount = 0 ∧ (hoist s 255).childN = [] ∧ (hoist s 255).childN1 = [] ∧
      popcount 9 (hoist s 255).marksN1 < popcount 9 (hoist s 255).mask ∧
      (∀ w ∈ (hoist s 255).waiters, w.next = false ∧ w.act = false ∧ w.ctx ≠ 7)) := by decide
/-- The host's own mark, the last of its epoch. -/
theorem witness_hoist_close : ∀ ws ∈ [[], [(⟨7, false, none, 0, false, 0, 9⟩ : HWait)]],
    let s : State := { State.reset with syn := { hoists := [(255, { hoist0 with marksN := 2 ^ 7, waiters := ws })] } }
    8 ≤ s.nvs.phase ∧ (hoist s 255).enable = true ∧ bit (hoist s 255).mask 8 = true ∧ (hoist s 255).st = .open_ ∧
    (hoist s 255).root = true ∧ (hoist s 255).childCount = 0 ∧ (hoist s 255).childN = [] ∧ (hoist s 255).childN1 = [] ∧
    bit (hoist s 255).marksN 8 = false ∧
    popcount 9 ((hoist s 255).marksN ||| 2 ^ 8) = popcount 9 (hoist s 255).mask ∧
    popcount 9 (hoist s 255).marksN1 < popcount 9 (hoist s 255).mask ∧
    (∀ w ∈ (hoist s 255).waiters, w.next = false ∧ w.act = false) := by decide
/-- An enabling write without parties, one whose child table runs past 2,048, and one that is taken; a waiter of a hoist that is
made new. -/
theorem witness_hoist_configuration :
    let s : State := { State.reset with
      ctxs := [(7, { cstate := .running, point := .hoist })]
      syn := { hoists := [(255, { hoist0 with waiters := [⟨7, false, none, 0, false, 0, 9⟩] })] } }
    8 ≤ s.nvs.phase ∧ (hoist s 255).enable = true ∧ (hoist s 0).enable = false ∧
    popcount 9 (bits (0x80000000#32 : W32).toNat 8 0) + bits (0x80000000#32 : W32).toNat 16 9 = 0 ∧
    (bit (0x8FFE0400#32 : W32).toNat 31 = true ∧ bits (0x8FFE0400#32 : W32).toNat 27 17 + bits (0x8FFE0400#32 : W32).toNat 16 9 = 2049 ∧
      0 < popcount 9 (bits (0x8FFE0400#32 : W32).toNat 8 0) + bits (0x8FFE0400#32 : W32).toNat 16 9) ∧
    (bit (0x8FFE0200#32 : W32).toNat 31 = true ∧ bits (0x8FFE0200#32 : W32).toNat 27 17 + bits (0x8FFE0200#32 : W32).toNat 16 9 = 2048 ∧
      0 < popcount 9 (bits (0x8FFE0200#32 : W32).toNat 8 0) + bits (0x8FFE0200#32 : W32).toNat 16 9) ∧
    bit (0x7FFFFFFF#32 : W32).toNat 31 = false ∧
    (∀ w ∈ (hoist s 255).waiters, (ctx s w.ctx).stopping = false ∧ (ctx s w.ctx).cstate = .running) := by decide

/-- A node with one child and a parent, both at position 0 and hoist 0. -/
def node (st : HState) (ws : List HWait) : State :=
  { State.reset with syn := { hoists := [(255, { hoist0 with root := false, childCount := 1, st := st, waiters := ws })] } }
def leaf : State :=
  { State.reset with syn := { hoists := [(255, { hoist0 with root := false, st := .sent })] } }
theorem witness_hoist_messages : 8 ≤ (node .open_ []).nvs.phase ∧ (node .open_ []).isolated = false ∧
    (hoist (node .open_ []) 255).enable = true ∧ (hoist leaf 255).enable = true ∧ (hoist (node .open_ []) 255).st ≠ .aborted ∧
    (bits (msg 2 0 255 0).w0.toNat 3 0 = 2 ∧ bits (msg 2 0 255 0).w2.toNat 31 16 = halCrc (msg 2 0 255 0) ∧
      acceptsPos State.reset (bits (msg 2 0 255 0).w0.toNat 25 4) = true ∧ bits (msg 2 0 255 0).w2.toNat 7 0 = 255 ∧
      childIndex (node .open_ []) (hoist (node .open_ []) 255) (msg 2 0 255 0) = some 0 ∧
      0 ∉ (hoist (node .open_ []) 255).childN ∧ bit (msg 2 0 255 0).w1.toNat 30 = (hoist (node .open_ []) 255).parity ∧
      popcount 9 (hoist (node .open_ []) 255).marksN + (hoist (node .open_ []) 255).childN.length + 1
        ≠ parties (hoist (node .open_ []) 255)) ∧
    (bits (msg 3 0 255 0).w0.toNat 3 0 = 3 ∧ bits (msg 3 0 255 0).w2.toNat 31 16 = halCrc (msg 3 0 255 0) ∧
      fromParent (hoist leaf 255) (msg 3 0 255 0) = true ∧ (hoist leaf 255).st = .sent ∧ (hoist leaf 255).waiters = [] ∧
      (hoist leaf 255).childCount = 0 ∧ bit (msg 3 0 255 0).w1.toNat 30 = (hoist leaf 255).parity ∧
      popcount 9 (hoist leaf 255).marksN1 + (hoist leaf 255).childN1.length ≠ parties (hoist leaf 255)) ∧
    (bits (msg 4 0 255 0).w0.toNat 3 0 = 4 ∧ bits (msg 4 0 255 0).w2.toNat 31 16 = halCrc (msg 4 0 255 0) ∧
      fromParent (hoist leaf 255) (msg 4 0 255 0) = true ∧ (hoist leaf 255).st ≠ .aborted) ∧
    (bits (msg 5 0 255 2000).w0.toNat 3 0 = 5 ∧ bits (msg 5 0 255 2000).w2.toNat 31 16 = halCrc (msg 5 0 255 2000) ∧
      bits (msg 5 0 255 2000).w2.toNat 7 0 = 255 ∧
      (childIndex (node .open_ [⟨7, false, some 9, 0, false, 0, 9⟩]) (hoist (node .open_ [⟨7, false, some 9, 0, false, 0, 9⟩]) 255)
        (msg 5 0 255 2000)).isSome = true ∧
      (hoist (node .open_ [⟨7, false, some 9, 0, false, 0, 9⟩]) 255).waiters = [⟨7, false, some 9, 0, false, 0, 9⟩]) := by
  decide +kernel

/-- A local and a remote SYN.SIGNAL on pennant 4095. -/
def signalSlot (remote : Bool) : Slot :=
  slot 0x28 [4095 + 2 * 2 ^ 12 + b2n remote * 2 ^ 14, 9, if remote then 0x3FFFFF else 0]
theorem witness_signal : Ready {} [signalSlot false] ∧ Ready {} [signalSlot true] ∧ opcodeOf (signalSlot true) = 0x28 ∧
    (signalSlot false).w1.toNat = 4095 + 2 * 2 ^ 12 ∧ (signalSlot false).w3 = 0 ∧
    (signalSlot true).w1.toNat = 4095 + 2 * 2 ^ 12 + 2 ^ 14 ∧ (signalSlot true).w3.toNat < 2 ^ 22 :=
  ⟨ready_of (by decide) (by decide) (by decide), ready_of (by decide) (by decide) (by decide), by decide⟩
theorem witness_halyard_send : ∀ iso : Bool,
    let s : State := { State.reset with isolated := iso, syn := { out := [⟨some 7, none, msg 1 0 0 1, 9⟩] } }
    s.syn.out = ⟨some 7, none, msg 1 0 0 1, 9⟩ :: [] ∧ ([] : List OutMsg).length < 64 ∧ inOrder s 9 = true ∧
      s.syn.evals = [] :=
  fun _ => ⟨rfl, by decide, rfl, rfl⟩

/-! ### Arrivals and later completion -/

/-- Context 0 with a resident partition of 64 MiB, and a transfer. -/
def landing (j : Job) (arr : List Arr) : State :=
  { State.reset with
    ctxs := [(0, { cstate := .quiesced })]
    cm := { State.reset.cm with partSize := [(0, 4096)], resident := [0] }
    xfer := { jobs := [j], nextJob := 9, arrivals := arr } }
/-- A transfer of a kind, all of whose lines are asked for, which n answers are still to come for. -/
def job (k : JKind) (n : Nat) : Job := { id := 3, kind := k, ctx := 0, row := 2 ^ 32, acks := n, pennant := 4095, incr := 65535 }
theorem witness_arrivals : ∀ comb ∈ [0, 15], ∀ k ∈ [JKind.read, .gather, .smRead, .lnkRead], ∀ n ∈ [0, 1],
    let a : Arr := ⟨64, List.replicate 64 (some 1#8), comb, 3, none, .none⟩
    let j := job k n
    let s := landing j [a]
    s.xfer.arrivals = a :: [] ∧ s.xfer.jobs = [j] ∧ j.id = a.job ∧ a.carrier = none ∧ j.kind ≠ .serve ∧ rowsOfJob j ≤ j.row ∧
    verifyLeft j = false ∧ ((port s 0).heldIn = [] ∧ (port s 1).heldIn = [] ∧ s.rsl.fill.late = []) ∧ s.syn.evals = [] ∧
    s.runs = [] ∧ a.bs.length ≤ 64 ∧ refusal s (ctxOf j.ctx) (decide (j.kind = .linkIn)) a.gran = none ∧
    bankOpen s (bankOf s.grade a.gran) = true ∧ granUncorrectable s a.gran = false ∧
    (j.acks ≠ 0 ∨ j.out = [] ∧ j.acks = 0 ∧ j.withheld = false ∧ j.faulted = false ∧ j.incr ≠ 0 ∧ s.syn.waits = [] ∧
      s.mxe.gate = none ∧ s.syn.upds = [] ∧ pennant s j.pennant + j.incr < 2 ^ 32) := by decide +kernel
/-- A granule of an inbound WRITE packet, with more of its granules to come. -/
theorem witness_link_arrival :
    let a : Arr := ⟨64, List.replicate 64 (some 1#8), 0, 3, none, .none⟩
    let j := job .linkIn 1
    let s := landing j [a]
    rowsOfJob j ≤ j.row ∧ verifyLeft j = false ∧ refusal s (ctxOf j.ctx) (decide (j.kind = .linkIn)) a.gran = none := by decide +kernel
theorem witness_combine : combWidth 15 = 4 ∧ combWidth 1 = 4 ∧ (List.replicate 64 0#8).length = 64 ∧
    (List.replicate 63 (some 1#8) ++ [none]).length = 64 ∧
    (List.replicate 63 (some 1#8) ++ [none]).getD (4 * 15 + 3) none = none ∧ 15 < 64 / 4 := by decide +kernel
theorem witness_later_completion :
    let c : Job := { id := 3, kind := .claim, ctx := 7, pennant := 4095, words := [0x35, 0x3FF] }
    let w : Job := { id := 3, kind := .lnkWrite, ctx := 7, pennant := 4095, incr := 65535, acks := 1, words := [0x38, 0, 1], row := 2 ^ 32 }
    (c.faulted = false ∧ c.kind = .claim ∧ wd c.words 0 % 256 = 0x35 ∧ pennant (landing c []) c.pennant + 1 < 2 ^ 32 ∧
      (landing c []).syn.waits = [] ∧ (landing c []).mxe.gate = none ∧ (landing c []).syn.evals = [] ∧ (landing c []).syn.upds = []) ∧
    (w.faulted = false ∧ lnkSent w = true ∧ w.landed = false ∧ waitsAck (landing w []) w = false ∧ w.acks ≠ 0 ∧
      w.withheld = false ∧ w.incr ≠ 0 ∧ (landing w []).xfer.late = [] ∧ (port (landing w []) 0).outW = [] ∧ pennant (landing w []) w.pennant + w.incr < 2 ^ 32) := by decide +kernel

end Sys2Proof.Tests
end

