-- ==== Sys2Proof/Tests/Witness3.lean ====
section
/-!
SUPPORT. Witnesses, clause by clause: link ports, external memory, host rings, programs, core memory and the pinions.
-/
namespace Sys2Proof.Tests
open Sys2Proof.Machine

-- One theorem at a time: a kernel evaluation that waits for an earlier theorem holds a thread of its own.
set_option Elab.async false

/-! ### Link ports -/

/-- A state with port 1 up, port 1 as given, over a transfer of context 0 with its partition resident. -/
def linked (q : PortSt) (jobs : List Job) (arr : List Arr) : State :=
  { State.reset with
    ctxs := [(0, { cstate := .running })]
    cm := { State.reset.cm with partSize := [(0, 4096)], resident := [0], hier := true }
    xfer := { jobs := jobs, nextJob := 9, arrivals := arr }
    lnk := { en1 := true, ports := [(1, { q with
      up := true, cr := ⟨9, 9, 9⟩, gReq := ⟨320, 0, 0⟩, gRsp := ⟨320, 0, 0⟩, gSnp := ⟨130, 0, 0⟩ })] } }

/-- A CRC-32C has 32 bits. -/
theorem crc32c_lt (bs : List W8) : crc32c bs < 2 ^ 32 := by
  have bit (r : Nat) (h : r < 2 ^ 32) : crc32cBit r < 2 ^ 32 := by
    unfold crc32cBit; split
    · exact Nat.xor_lt_two_pow (by omega) (by decide)
    · omega
  have byte (r : Nat) (b : W8) (h : r < 2 ^ 32) : crc32cByte r b < 2 ^ 32 := by
    have h0 : r ^^^ b.toNat < 2 ^ 32 := Nat.xor_lt_two_pow h (by have := b.isLt; omega)
    unfold crc32cByte
    simp only [iter]
    exact bit _ (bit _ (bit _ (bit _ (bit _ (bit _ (bit _ (bit _ h0)))))))
  have fold (l : List W8) : ∀ r, r < 2 ^ 32 → l.foldl crc32cByte r < 2 ^ 32 := by
    induction l with
    | nil => exact fun r h => h
    | cons b l ih => exact fun r h => ih _ (byte r b h)
  exact Nat.xor_lt_two_pow (fold bs _ (by decide)) (by decide)

/-- A packet made with its check passes it. -/
theorem good_mkPacket (h : Hdr) (d : List W8) (hs : h.words.all (fun w => decide (w < 2 ^ 32)) = true) :
    (mkPacket h d).good = true := by
  have hw (w : Nat) (h : w < 2 ^ 32) : (BitVec.ofNat 32 w).toNat = w := Nat.mod_eq_of_lt h
  have c : (mkPacket h d).w 15 = packetCrc h.words d := by
    show (BitVec.ofNat 32 (packetCrc h.words d)).toNat = _
    exact hw _ (crc32c_lt _)
  have r : (List.range 15).map (mkPacket h d).w = h.words := by
    simp [Hdr.words, List.replicate] at hs
    simp [mkPacket, Packet.w, Hdr.words, List.range, List.range.loop, List.replicate]
    omega
  unfold Packet.good
  rw [c, r]; exact decide_eq_true rfl
/-- `Accepts` for a packet made with its check. -/
theorem accepts_of {s : State} {p : Port} {k : Nat} {h : Hdr} {d : List W8}
    (c : s.isolated = false ∧ (port s p).up = true ∧ (mkPacket h d).kind = k ∧ acceptsPos s (mkPacket h d).dst = true ∧
      (mkPacket h d).flits ≤ fabricCredits s p (chanOf k) ∧ h.words.all (fun w => decide (w < 2 ^ 32)) = true) :
    Accepts s p k (mkPacket h d) :=
  ⟨c.1, c.2.1, c.2.2.1, good_mkPacket h d c.2.2.2.2.2, c.2.2.2.1, c.2.2.2.2.1⟩

/-- A response to another core, of one flit. -/
def elsewhere : Packet := mkPacket { kind := 3, dst := 5 } []
theorem witness_ports : portEn (linked {} [] []) 1 = true ∧ portEn (linked {} [] []) 0 = false ∧ (port (linked {} [] []) 1).up = true ∧
    (port { State.reset with lnk := { en1 := true } } 1).up = false ∧ portEn { State.reset with lnk := { en1 := true } } 1 = true ∧
    (linked {} [] []).isolated = false ∧ acceptsPos (linked {} [] []) elsewhere.dst = false ∧
    elsewhere.flits ≤ (port (linked {} [] []) 1).cr.rsp := by decide +kernel
theorem witness_port_response : (port (linked { rsp := [elsewhere] } [] []) 1).rsp = elsewhere :: [] := rfl

/-- A WRITE of 64 bytes to core memory, from context 0 and from one without a partition. -/
def writePkt (c : Nat) : Packet := mkPacket { kind := 1, ctx := c, off := 4032, length := 64 } (List.replicate 64 1#8)
theorem linked_quiet (q : PortSt) (h : q.heldIn = []) : Quiet (linked q [] []) :=
  ⟨rfl, rfl, rfl, h, rfl⟩
theorem witness_write_packet : Accepts (linked {} [] []) 1 1 (writePkt 0) ∧ Accepts (linked {} [] []) 1 1 (writePkt 7) ∧
    Quiet (linked {} [] []) ∧ (linked {} [] []).rsl.snap.phase ≠ 3 ∧ (writePkt 0).space = 0 ∧ (writePkt 0).data ≠ [] ∧
    writeRefusal (linked {} [] []) (writePkt 0) = none ∧ (writeRefusal (linked {} [] []) (writePkt 7)).isSome = true ∧
    (linked {} [] []).xfer.arrivals = [] :=
  ⟨accepts_of (by decide +kernel), accepts_of (by decide +kernel), linked_quiet {} rfl, by decide,
    by decide +kernel, by decide +kernel, by decide +kernel, by decide +kernel, by decide⟩

/-- A WRITE of a line to external memory. -/
def extPkt : Packet := mkPacket { kind := 1, space := 1, off := 128, length := 128 } (List.replicate 128 1#8)
def linkedExt : State := { linked {} [] [] with xmu := onXmu }
theorem witness_external_write : Accepts linkedExt 1 1 extPkt ∧ Quiet linkedExt ∧ linkedExt.rsl.snap.phase ≠ 3 ∧ extPkt.space = 1 ∧
    extPkt.data ≠ [] ∧ writeRefusal linkedExt extPkt = none ∧
    roomForLines linkedExt.xmu [(extPkt.off, extPkt.data.length)] = true :=
  ⟨accepts_of (by decide +kernel), ⟨rfl, rfl, rfl, rfl, rfl⟩, by decide, by decide +kernel, by decide +kernel, by decide +kernel,
    by decide +kernel⟩

/-- A READ_REQ of 64 bytes of core memory. -/
def readPkt : Packet := mkPacket { kind := 2, ctx := 0, off := 4032, length := 64 } []
theorem witness_read_request : Accepts (linked {} [] []) 1 2 readPkt ∧ Quiet (linked {} [] []) ∧
    (linked {} [] []).rsl.snap.phase ≠ 3 ∧ inOrder (linked {} [] []) (ac (linked {} [] [])) = true ∧ (linked {} [] []).syn.evals = [] ∧
    (linked {} [] []).runs = [] ∧ readPkt.space = 0 ∧
    granulesOf readPkt.off readPkt.len = [4032] ∧ refusal (linked {} [] []) 0 true 4032 = none ∧
    granUncorrectable (linked {} [] []) 4032 = false ∧ bankOpen (linked {} [] []) (bankOf .max 4032) = true :=
  ⟨accepts_of (by decide +kernel), linked_quiet {} rfl, by decide, by decide, by decide, by decide,
    by decide +kernel, by decide +kernel, by decide +kernel, by decide +kernel, by decide +kernel⟩

/-- A request that has been sent, and responses to it. -/
def sent (k : Nat) : OutPkt := ⟨mkPacket { kind := k, dst := 5, seq := 65535, ret := 4032, length := 64 } [], 3, 1, 24, false⟩
def reply (k : Nat) (data : List W8) : Packet := mkPacket { kind := k, seq := 65535, length := 64, ret := 4032 } data
/-- A transfer of context 0 with two unanswered requests. -/
def asking (k : JKind) : Job := { id := 3, kind := k, ctx := 0, acks := 2 }
theorem witness_responses :
    Accepts (linked { outW := [sent 1] } [asking .lnkWrite] []) 1 3 (reply 3 []) ∧
    Accepts (linked { outR := [sent 2] } [asking .lnkRead] []) 1 4 (reply 4 (List.replicate 64 1#8)) ∧
    (port (linked { outW := [sent 1] } [asking .lnkWrite] []) 1).outW = [sent 1] ∧ (sent 1).pkt.seq = (reply 3 []).seq ∧
    (port (linked { outR := [sent 2] } [asking .lnkRead] []) 1).outR = [sent 2] ∧
    (sent 2).pkt.seq = (reply 4 (List.replicate 64 1#8)).seq ∧ (reply 3 []).status = 0 ∧
    (reply 4 (List.replicate 64 1#8)).status = 0 ∧ NoHeldPacket (linked { outR := [sent 2] } [asking .lnkRead] []) :=
  ⟨accepts_of (by decide +kernel), accepts_of (by decide +kernel), rfl, by decide +kernel, rfl, by decide +kernel,
    by decide +kernel, by decide +kernel, rfl, rfl, rfl⟩
theorem witness_link_timeout :
    let s := linked { outW := [sent 1] } [asking .lnkWrite] []
    s.syn.evals = [] ∧ (port s 1).outW = [sent 1] ∧ (sent 1).due = false ∧ s.xfer.jobs = [asking .lnkWrite] ∧ (asking .lnkWrite).id = (sent 1).job ∧
    (asking .lnkWrite).faulted = false ∧ (asking .lnkWrite).landed = false ∧ (ctx s (ctxOf (asking .lnkWrite).ctx)).cstate = .running ∧
    (ctx s (ctxOf (asking .lnkWrite).ctx)).stopping = false :=
  ⟨rfl, rfl, rfl, rfl, rfl, rfl, rfl, by decide +kernel, by decide +kernel⟩

/-- A snapshot under way, and a fill under way from position 0. -/
def snapping : State := { linked { outS := [sent 5] } [] [] with rsl := { snap := { phase := 3, total := 4096 } } }
def filling : State := { linked {} [] [] with rsl := { fill := { st := 1 } } }
theorem witness_snapshot_packets :
    Accepts snapping 1 6 (reply 6 []) ∧ (port snapping 1).outS = [sent 5] ∧ (sent 5).pkt.seq = (reply 6 []).seq ∧
    (reply 6 []).status = 0 ∧ snapping.rsl.snap.phase = 3 ∧
    snapping.rsl.snap.acked + (sent 5).pkt.data.length < snapping.rsl.snap.total ∧
    Accepts (linked {} [] []) 1 5 (reply 5 []) ∧ (linked {} [] []).rsl.fill.st ≠ 1 ∧
    Accepts filling 1 5 (mkPacket { kind := 5, length := 64 } (List.replicate 64 1#8)) ∧
    (mkPacket { kind := 5, length := 64 } (List.replicate 64 1#8)).src = filling.rsl.fill.srcChip + filling.rsl.fill.srcCore * 2 ^ 14 ∧
    (mkPacket { kind := 5, length := 64 } (List.replicate 64 1#8)).off = filling.rsl.fill.off ∧
    filling.rsl.fill.pre.length + (mkPacket { kind := 5, length := 64 } (List.replicate 64 1#8)).data.length < 4096 :=
  ⟨accepts_of (by decide +kernel), rfl, by decide +kernel, by decide +kernel, by decide, by decide +kernel,
    accepts_of (by decide +kernel), by decide, accepts_of (by decide +kernel), by decide +kernel, by decide +kernel,
    by decide +kernel⟩

/-! ### External memory -/

/-- A line of the write-combining buffer, full or not. -/
def line (full : Bool) : WcbLine := ⟨3 * 2 ^ 24, 3, if full then List.replicate 128 (some 1#8) else some 1#8 :: List.replicate 127 none, 9, {}⟩
theorem witness_drain : ∀ f ∈ [false, true],
    let s : State := { State.reset with xmu := { onXmu with wcb := [line f] } }
    s.xmu.wcb[0]? = some (line f) ∧ (line f).bytes.length = 128 ∧ (line f).full = f ∧
    chanActive s.xmu (plChan (line f).pl) = true ∧ (∀ k ∈ s.xmu.wcb, k.pl = (line f).pl → k = line f) ∧ s.xmu.step ≠ 3 ∧
    s.syn.evals = [] := by decide +kernel
theorem witness_read_return :
    let rd : Rd := ⟨3 * 2 ^ 24, 3, 64, 64, some 4032, false, 3, false⟩
    let j : Job := { id := 3, kind := .read, ctx := 0, row := 4096, out := [rd] }
    let s : State := { landing j [] with xmu := onXmu }
    s.xfer.jobs = [j] ∧ j.faulted = false ∧ ((port s 0).heldIn = [] ∧ (port s 1).heldIn = [] ∧ s.rsl.fill.late = []) ∧
    s.xfer.arrivals = [] ∧ s.xfer.late = [] ∧ rd.waits = false ∧ rowsOfJob j ≤ j.row ∧ j.verify = false ∧ j.chks = [] ∧ j.kind = .read ∧ j.out = [rd] ∧ rd.dst = some 4032 ∧ rd.narrow = false ∧
    0 < rd.n ∧ rd.off + rd.n ≤ 128 ∧ (chan s.xmu (plChan rd.pl)).st = .active ∧ s.xmu.step ≠ 3 ∧
    retired s.xmu rd.blk = false ∧ rd.tries < 4 := by decide +kernel
theorem witness_shared_memory_read :
    let j : Job := { id := 3, kind := .smRead, ctx := 0 }
    let s : State := { landing j [] with
      cm := { State.reset.cm with hier := true }, xfer := { jobs := [j], sm := [(32767, ⟨3, some 4032⟩)] } }
    s.xfer.jobs = [j] ∧ j.faulted = false ∧ rowsOfJob j ≤ j.row ∧ j.kind = .smRead ∧ s.cm.hier = true ∧
    s.xfer.sm = [(32767, ⟨j.id, some 4032⟩)] ∧ (List.replicate 64 1#8).length = 64 := by decide +kernel

/-- Channel 3 with a fault-prone row 1 of bank 15. -/
def worn (rs : SMap Remap) : State :=
  { State.reset with xmu := { onXmu with chans := SMap.put onXmu.chans 3 { st := .active, remaps := rs } } }
theorem witness_row_faults :
    8 ≤ (worn []).nvs.phase ∧ (15 : Nat) < 16 ∧ (1 : Nat) < 65536 ∧
    (15 : Nat) ∈ blocksAt (worn []).xmu (3 : Chan) (2 * 1 + 15 / 8) ∧ retired (worn []).xmu 15 = false ∧
    (chan (worn []).xmu (3 : Chan)).remaps = [] ∧ (chan (worn []).xmu (3 : Chan)).bad = [] ∧
    (15 : Nat) ∈ blocksAt (worn [(0, ⟨15, 1, 0, 3⟩)]).xmu (3 : Chan) (2 * 1 + 15 / 8) ∧
    retired (worn [(0, ⟨15, 1, 0, 3⟩)]).xmu 15 = false ∧
    (chan (worn [(0, ⟨15, 1, 0, 3⟩)]).xmu (3 : Chan)).remaps = [(0, ⟨15, 1, 0, 3⟩)] := by decide +kernel
/-- A copy in progress to a spare of channel 3, which serves or does not, in the thermal step given. -/
theorem witness_row_copies : ∀ p ∈ [(ChanSt.active, 0, true), (.training, 0, false), (.active, 3, false)],
    let k : RemapCopy := ⟨3, 15, 1, 0, [rowLine 3 15 1 0], some (List.replicate 2048 1#8)⟩
    let s : State := { State.reset with xmu := { onXmu with chans := [(3, { st := p.1 })], step := p.2.1, copies := [k] } }
    s.xmu.copies = k :: [] ∧ (decide (chanActive s.xmu k.ch = true ∧ s.xmu.step ≠ 3)) = p.2.2 ∧
    k.errs = some (List.replicate 2048 1#8) ∧ (List.replicate 2048 1#8).length = 2048 := by decide +kernel
theorem witness_channels : ∀ p ∈ [(ChanSt.active, 0, 3, true), (.active, 0, 4, true), (.training, 1, 0, true),
      (.training, 2, 0, false), (.training, 0, 0, true)],
    let s : State := { State.reset with xmu := { onXmu with chans := [(3, { st := p.1, fails := p.2.1, wTries := [(2 ^ 24 - 1, p.2.2.1)]
                                                                            phyRdy := p.2.2.2, phyOnly := true })] } }
    s.xfer.jobs = [] ∧ s.xfer.late = [] ∧ (port s 0).heldIn = [] ∧ (port s 1).heldIn = [] ∧ s.rsl.fill.late = [] ∧ 8 ≤ s.nvs.phase ∧
    ((chan s.xmu (3 : Chan)).st = .active ∧ (SMap.get 0 (chan s.xmu (3 : Chan)).wTries (2 ^ 24 - 1) < 4 ∨
        4 ≤ SMap.get 0 (chan s.xmu (3 : Chan)).wTries (2 ^ 24 - 1)) ∨
      (chan s.xmu (3 : Chan)).phyOnly = true ∧ (chan s.xmu (3 : Chan)).st = .training ∧ ((chan s.xmu (3 : Chan)).fails < 2 ∨ (chan s.xmu (3 : Chan)).fails = 2)) := by
  decide +kernel
theorem witness_directory : (∀ v ∈ [0x7FFFFF, 0x000001, 0x000006], v < 2 ^ 23 ∧ (bits v 1 0 = 2 ∨ bits v 1 0 ≠ 2)) ∧
    (dirEnt onXmu onXmu.dirIndex).chan ≠ bits 0x31 5 4 ∧ bits 0x31 22 6 < spareBlk onXmu ∧
    mappedOut { onXmu with chans := [(3, { st := .mappedOut })] } (bits 0x31 5 4) = true ∧ mappedOut onXmu (bits 0x31 5 4) = false ∧
    retired onXmu onXmu.dirIndex = false ∧ bits 6 22 6 < spareBlk onXmu ∧ bits 6 1 0 = 2 ∧ bits 1 22 6 < spareBlk onXmu := by
  decide +kernel
theorem witness_bring_up :
    let x : XmuSt := { onXmu with chans := [(3, { st := .training })] }
    (bit 0x3FF 10 = false ∧ 0x3FF < 2 ^ 23) ∧
    (bit 0x423 10 = true ∧ (chan x (bits 0x423 1 0)).st = .training ∧ 8 ≤ bits 0x423 9 2 ∧ 0x423 < 2 ^ 23) ∧
    (∀ k ∈ List.range 8, bit (0x403 + 4 * k) 10 = true ∧ (chan x (bits (0x403 + 4 * k) 1 0)).st = .training ∧
      bits (0x403 + 4 * k) 9 2 = k) ∧
    x.partRepair = false ∧ ({ x with partRepair := true } : XmuSt).partRepair = true := by decide +kernel
/-- Readings at the thresholds and at the hysteresis below them, in each thermal step. -/
theorem witness_thermal_steps : ∀ p ∈ [(0, 94), (0, 95), (1, 84), (1, 95), (2, 91), (2, 92), (3, 101), (3, 102)],
    let s : State := { State.reset with xmu := { onXmu with step := p.1, partTemp := true } }
    memReading (some p.2) s.xmu = some p.2 ∧ p.2 < s.xmu.crit ∧ s.xfer.jobs = [] ∧ s.xfer.late = [] ∧
    (port s 0).heldIn = [] ∧ (port s 1).heldIn = [] ∧ s.rsl.fill.late = [] ∧ s.xmu.step ≤ 3 := by decide
theorem witness_thermal :
    let s : State := { State.reset with xmu := { onXmu with step := 2, advDue := some 9, partTemp := true } }
    memReading none onXmu = onXmu.mtemp ∧ s.xmu.partTemp = true ∧ onXmu.partTemp = false ∧
    memReading (some 105) s.xmu = some 105 ∧ s.xmu.crit ≤ 105 ∧ s.xmu.step < 3 ∧ Quiet s ∧ s.syn.hoists = [] ∧ s.xmu.wcb = [] ∧
    s.xmu.advDue = some 9 ∧ s.xmu.step = 2 ∧ 8 ≤ s.nvs.phase ∧ s.syn.evals = [] ∧ s.xmu.mtempMasked = false ∧
    ({ s with xmu := { s.xmu with mtempMasked := true } } : State).xmu.mtempMasked = true :=
  ⟨rfl, rfl, rfl, rfl, by decide, by decide, ⟨rfl, rfl, rfl, rfl, rfl⟩, by decide, by decide, by decide, by decide, by decide,
    by decide, by decide, by decide⟩

/-! ### Host rings and descriptors -/

/-- A core with ring 7 as given and the host block enabled. -/
def ringed (q : SRing) : State := { State.reset with hst := { enable := true, rings := [(7, q)] } }
theorem witness_rings : ∀ q ∈ [({ en := true } : SRing), { halted := true, en := true }, { en := false },
      { en := true, busy := [⟨3, 7, 0, 0, true⟩] }],
    8 ≤ (ringed q).nvs.phase ∧ (ringed q).hst.enable = true ∧ (∀ k ∈ List.range 9, k ≠ 7 → (ring (ringed q) k).en = false) ∧ (ring (ringed q) 7).held = none ∧
    (ringed q).xfer.hreads = [] ∧ (ring (ringed q) 7).head ≠ (1#32 : W32).toNat % 2 ^ 16 ∧
    ((ring (ringed q) 7).en = true ∧ (ring (ringed q) 7).halted = false ∨
      ((ring (ringed q) 7).halted = true ∨ (ring (ringed q) 7).en = false) ∧ (ring (ringed q) 7).busy = []) := by decide
theorem witness_rings_others (q : SRing) : ∀ k, k ≠ 7 → (ring (ringed q) k).en = false := by
  intro k hk
  have h : ring (ringed q) k = {} := by
    simp [ring, ringed, SMap.get]
    intro h; exact absurd h.symm hk
  rw [h]
theorem witness_descriptor_read : ∀ e ∈ [0, 9],
    let s : State := { ringed { en := true, expect := e } with xfer := { hreads := [(255, .desc 7)] } }
    s.xfer.hreads = [(255, .desc (7 : Ctx))] ∧ s.xfer.jobs = [] ∧ (List.replicate 64 0#8).length = 64 ∧
    (ofLE (slice 4 4 (List.replicate 64 0#8)) = (ring s 7).expect ∨ ofLE (slice 4 4 (List.replicate 64 0#8)) ≠ (ring s 7).expect) := by
  decide +kernel
theorem witness_record :
    let s : State := { State.reset with hst := { enable := true, cqQ := [⟨0, [1]⟩], nextOut := 1, cq := { head := 1, tail := 15 } } }
    let z : State := { State.reset with hst := { enable := true, eqQ := [⟨0, [1]⟩], nextOut := 1, eq_ := { tail := 14 } } }
    s.syn.evals = [] ∧ z.syn.evals = [] ∧ s.err.trcWait = [] ∧ z.err.trcWait = [] ∧ s.hst.late = [] ∧
    s.hst.enable = true ∧ s.hst.cqQ = ⟨0, [1]⟩ :: [] ∧ s.hst.eqQ = [] ∧ (s.hst.cq.tail + 1) % 2 ^ s.hst.cq.log2 ≠ s.hst.cq.head ∧
    z.hst.enable = true ∧ z.hst.eqQ = ⟨0, [1]⟩ :: [] ∧ z.hst.cqQ = [] ∧ (z.hst.eq_.tail + 1) % 2 ^ z.hst.eq_.log2 ≠ z.hst.eq_.head ∧
    z.hst.ovCount = 0 := by decide

/-- A core whose ring 7 holds the descriptor given, padded with zeros, with context 7 as given. -/
def holding (ws : List Nat) (x : CtxSt) : State :=
  { ringed { en := true, held := some (padTo 0 16 ws), tail := 1 } with ctxs := [(7, x)], syn := { count := [(4095, 5)] } }
theorem witness_sync_descriptors :
    ∀ ws ∈ [[0x14, 0, 4095, 9], [4, 0, 4095 + 2 ^ 12, 9], [4, 0, 4095 + 2 ^ 13, 9], [5, 0, 4095 + 2 ^ 12, 6], [5, 0, 4095, 5], [0x17, 0]],
    let d := padTo 0 16 ws
    startable (holding ws {}) 7 = some d ∧ descOk d = true ∧ nextRing (holding ws {}) = some (7 : Ctx).val ∧
    (holding ws {}).syn.waits = [] ∧ (holding ws {}).syn.evals = [] ∧ (holding ws {}).syn.upds = [] ∧ (holding ws {}).mxe.gate = none ∧
    (descKind d = 4 ∧ bit (wd d 2) 14 = false ∧ bits (wd d 2) 13 12 ≤ 2 ∧ bits (wd d 2) 11 0 = 4095 ∨
      descKind d = 5 ∧ bits (wd d 2) 11 0 = 4095 ∨ descKind d = 7) := by decide +kernel
/-- A host wait in its evaluation: on a count that it reaches, taking and not, and below its value. -/
theorem witness_host_wait : ∀ p ∈ [(true, 5), (false, 5), (true, 6)],
    let w : PWait := ⟨.host 7 0 0 true, 4095, p.1, p.2, none, false, 0, 0, 5, none⟩
    let s : State := { holding [] {} with syn := { waits := [w], count := [(4095, 5)] } }
    s.syn.waits = [w] ∧ w.who = .host 7 0 0 true ∧ s.mxe.gate = none ∧ s.syn.updAc ≠ 2 ∧ w.standsAt 2 = true ∧ s.hst.eqQ.length < 64 ∧
    (pennant s w.pennant < w.value ∨ w.value ≤ pennant s w.pennant) := by decide

/-! ### Programs, copies and snapshots -/

/-- Four bytes read back as the word that they hold. -/
theorem ofLE_leBytes4 (v : Nat) (h : v < 2 ^ 32) : ofLE (leBytes 4 v) = v := by
  simp [ofLE, leBytes]
  omega

/-- Bytes `a`, the check of `a`, four zeros and `b`, and bytes `b`. -/
def sealedBytes (a b : List W8) : List W8 := a ++ leBytes 4 (crc32c (a ++ [0#8, 0#8, 0#8, 0#8] ++ b)) ++ b
theorem sealedBytes_check (a b : List W8) :
    crc32c ((sealedBytes a b).take a.length ++ [0#8, 0#8, 0#8, 0#8] ++ (sealedBytes a b).drop (a.length + 4))
      = ofLE (slice a.length 4 (sealedBytes a b)) := by
  have l : (leBytes 4 (crc32c (a ++ [0#8, 0#8, 0#8, 0#8] ++ b))).length = 4 := by simp [leBytes]
  have h1 : (sealedBytes a b).take a.length = a := by simp [sealedBytes]
  have h2 : (sealedBytes a b).drop (a.length + 4) = b := by
    rw [sealedBytes, show a.length + 4 = (a ++ leBytes 4 (crc32c (a ++ [0#8, 0#8, 0#8, 0#8] ++ b))).length by
      rw [List.length_append, l], List.drop_left]
  have h3 : slice a.length 4 (sealedBytes a b) = leBytes 4 (crc32c (a ++ [0#8, 0#8, 0#8, 0#8] ++ b)) := by
    have k (m : List W8) (h : m.length = 4) : (m ++ b).take 4 = m := by rw [← h, List.take_left]
    rw [slice, sealedBytes, List.append_assoc, List.drop_left, k _ l]
  rw [h1, h2, h3, ofLE_leBytes4 _ (crc32c_lt _)]

theorem sealedBytes_length (a b : List W8) : (sealedBytes a b).length = a.length + 4 + b.length := by
  simp only [sealedBytes, List.length_append, leBytes, List.length_cons, List.length_nil]

/-- An image for the reset core with one slot and no affine record. -/
def imgHead : List W8 := bytesOfWords [0x01000000, mapSig State.reset.cm.active, 1, 0] ++ List.replicate 236 0#8
def img : List W8 := sealedBytes imgHead (List.replicate 1064 0#8)
theorem imgHead_length : imgHead.length = 252 := by
  rw [imgHead, List.length_append, List.length_replicate]; rfl
theorem witness_launch :
    let d := padTo 0 16 [0x11, 0, 64, 0, 0]
    let s := holding d { codeSize := 1 }
    startable s 7 = some d ∧ descOk d = true ∧ nextRing s = some (7 : Ctx).val ∧ descKind d = 1 ∧ bit (wd d 4) 0 = false ∧
    (hdrOf img).nSlots ≤ Nat.min (ctx s 7).codeSize (32768 - (ctx s 7).codeBase) ∧
    (hdrOf img).nAff ≤ Nat.min (ctx s 7).affSize (affRoom (ctx s 7).affBase) ∧ imgRefusal s (hdrOf img) = none ∧
    (hdrOf img).saveBlk ≤ partSize s 7 ∧ imgLen (hdrOf img) = 1320 ∧
    (∀ x ∈ [({} : CtxSt), { codeSize := 1, codeBase := 32768 }],
      Nat.min (ctx (holding d x) 7).codeSize (32768 - (ctx (holding d x) 7).codeBase) < (hdrOf img).nSlots ∧
      startable (holding d x) 7 = some d ∧ nextRing (holding d x) = some (7 : Ctx).val) := by
  decide +kernel
theorem witness_launch_check : img.length = 1320 ∧
    crc32c (img.take 252 ++ [0#8, 0#8, 0#8, 0#8] ++ img.drop 256) = imgWord img 63 := by
  refine ⟨by rw [img, sealedBytes_length, imgHead_length, List.length_replicate], ?_⟩
  have h := sealedBytes_check imgHead (List.replicate 1064 0#8)
  rw [imgHead_length] at h
  exact h
theorem witness_replay : ∀ n ∈ [0, 1],
    let d := padTo 0 16 [0x12, 0, 16, 0, n]
    let data := (List.replicate n (leBytes 8 9 ++ leBytes 8 63)).flatten
    let s := holding d { cstate := .quiesced, imageValid := true, img := { tver := 1, sig := mapSig State.reset.cm.active } }
    startable s 7 = some d ∧ descOk d = true ∧ nextRing s = some (7 : Ctx).val ∧ descKind d = 2 ∧ data.length = 16 * wd d 4 ∧
    patches (wd d 4) data = some (List.replicate n (63, 9)) ∧ (ctx s 7).imageValid = true ∧ imgRefusal s (ctx s 7).img = none := by
  decide +kernel
theorem witness_copy_and_snapshot :
    let d := padTo 0 16 [0x13, 0, 64, 0, 4032, 0, 64, 1 * 2 ^ 2 + 2 ^ 4, 2 ^ 12]
    let s : State := { holding d {} with cm := { State.reset.cm with partSize := [(7, 4096)], resident := [7] } }
    let e := padTo 0 16 [0x16, 0, 0x1FF, 0, 8]
    let z : State := { holding e {} with ctxs := [(0, { cstate := .running }), (7, {})] }
    startable s 7 = some d ∧ descOk d = true ∧ descKind d = 3 ∧ bits (wd d 7) 1 0 = 0 ∧ nextRing s = some (7 : Ctx).val ∧
    copyFault s 7 d = none ∧ s.xfer.jobs = [] ∧ s.xfer.hreads = [] ∧ s.xfer.arrivals = [] ∧
    startable z 7 = some e ∧ descOk e = true ∧ descKind e = 6 ∧ nextRing z = some (7 : Ctx).val ∧ z.syn.evals = [] ∧ (ctx z 7).cstate ≠ .running ∧
    (ctx z 0).cstate = .running ∧ (ctx z 0).stopping = false ∧ (ctx z 0).point = .inSection := by decide +kernel

/-! ### Core memory and the pinions -/

theorem witness_map_commit : 8 ≤ State.reset.nvs.phase ∧ State.reset.syn.evals = [] ∧ commitReason State.reset = 0 ∧
    commitReason { State.reset with ctxs := [(0, { cstate := .running })] } ≠ 0 := by decide +kernel

/-- Bank 127 as given. -/
def banked (b : Bank) : State := { State.reset with banks := [(127, b)] }
theorem witness_banks :
    (127 < (banked {}).grade.banks ∧ (bank (banked {}) 127).pw = .on) ∧ (banked {}).grade.banks ≤ 128 ∧
    ((bank (banked { pw := .draining }) 127).pw = .draining ∧ (bank (banked { pw := .draining }) 127).isolated = false ∧
      outstanding (banked { pw := .draining }) 127 = 0) ∧
    (∀ g ∈ [1, 2], let s := banked { pw := .draining, isolated := true, req := g, goal := g }
      (bank s 127).pw = .draining ∧ (bank s 127).isolated = true ∧ (bank s 127).req = (bank s 127).goal ∧ (bank s 127).goal = g) ∧
    ((bank (banked { pw := .waking, goal := 1 }) 127).pw = .waking ∧ (bank (banked { pw := .waking, goal := 1 }) 127).req = 0 ∧
      (bank (banked { pw := .waking, goal := 1 }) 127).goal = 1) := by decide +kernel
theorem witness_repair :
    let s : State := { State.reset with cm := { State.reset.cm with scrubGran := 8191, scrubWb := [(127, 8191)] } }
    let z : State := { s with ecc := [(granAddr .max 127 8191 / 8 + 7, 1)] }
    State.reset.cm.repBusy = false ∧ (127 : Nat) < State.reset.grade.banks ∧ (bank State.reset 127).spares < 8 ∧
    ((127, 511) : Nat × Nat) ∉ State.reset.cm.repaired ∧ 8 ≤ (bank (banked { spares := 8 }) 127).spares ∧
    ({ State.reset with cm := { State.reset.cm with repBusy := true } } : State).cm.repBusy = true ∧ s.cm.scrubEn = true ∧
    s.cm.scrubInterval ≠ 0 ∧ ({ s with cm := { s.cm with scrubEn := false } } : State).cm.scrubEn = false ∧
    bankOpen z 127 = true ∧ bankOpen (banked { pw := .dark }) 127 = false ∧
    s.cm.scrubGran = 8191 ∧ z.cm.scrubWb = (127, 8191) :: [] ∧ (bank z 127).pw = .on ∧
    eccMark z (granAddr z.grade 127 8191 / 8 + 7) = 1 := by decide +kernel
theorem witness_pinions :
    let s : State := { State.reset with pin := { fenced := [(127, true)], testBusy := true } }
    (127 : Nat) < 128 ∧ 127 < s.grade.pinions ∧ s.grade ≠ .lean ∧ SMap.get false s.pin.fenced 127 = true ∧
    SMap.get false s.pin.fenced 126 = false ∧ s.runs = [] ∧ (∀ q, queue s q = []) ∧ s.pin.testBusy = true ∧ (State.atRelease .lean).grade = .lean := by
  refine ⟨by decide, by decide, by decide, by decide, by decide, by decide, fun q => ?_, by decide, by decide⟩
  cases q <;> rfl

end Sys2Proof.Tests
end

