-- ==== Sys2Proof/Tests/Witness4.lean ====
section
/-!
SUPPORT. Witnesses, clause by clause: health, snapshot and fill, settings and reset, clocks and power, events and the log, the Bezel,
the host window and numbers.
-/
namespace Sys2Proof.Tests
open Sys2Proof.Machine

-- One theorem at a time: a kernel evaluation that waits for an earlier theorem holds a thread of its own.
set_option Elab.async false

/-! ### Health, snapshot, fill and isolation -/

/-- Counts that have moved by the greatest step since the last sample, and counts that have not moved. -/
theorem witness_health :
    let s : State := { State.reset with
      banks := [(127, { ce := 65535 })], xmu := { chans := [(3, { retries := 65535 })] }, pwr := { State.reset.pwr with episodes := 65535 }
      rsl := { health := { lnk := 65535 } }, lnk := { ports := [(1, { crcBad := 65534 })] } }
    let h := s.rsl.health
    8 ≤ s.nvs.phase ∧ s.syn.evals = [] ∧ 0 < h.decay ∧ h.cmem < 2 ^ 16 ∧ h.lnk < 2 ^ 16 ∧ 65535 < 2 ^ 16 ∧
    (s.banks.map (fun p => p.2.ce)).sum % 2 ^ 16 = (h.cmem + 65535) % 2 ^ 16 ∧
    (s.xmu.chans.map (fun p => p.2.retries + p.2.ce)).sum % 2 ^ 16 = (h.xmu + 65535) % 2 ^ 16 ∧
    (s.lnk.ports.map (fun p => p.2.resends + p.2.crcBad)).sum % 2 ^ 16 = (h.lnk + 65535) % 2 ^ 16 ∧
    s.pwr.episodes % 2 ^ 16 = (h.droop + 65535) % 2 ^ 16 ∧
    h.thresh ≤ Nat.min 65535 (h.risk - h.risk / 2 ^ h.decay + Nat.min (h.wCmem * 65535) 65535) ∧
    (State.reset.banks.map (fun p => p.2.ce)).sum % 2 ^ 16 = (State.reset.rsl.health.cmem + 0) % 2 ^ 16 ∧
    ¬ (min ((State.reset.xmu.crit : Int) - State.reset.xmu.temp) ((State.reset.pwr.trip - State.reset.pwr.dieTemp : Nat) : Int)
      < State.reset.rsl.health.marginRef) ∧ 0 < State.reset.rsl.health.thresh := by decide +kernel
theorem witness_health_advice :
    let s : State := { State.reset with rsl := { health := { risk := 40000, pending := true, maxS := 600 } } }
    s.rsl.health.advised = false ∧ s.rsl.snap.phase < 2 ∧ s.rsl.health.pending = true ∧ 8 ≤ s.nvs.phase ∧
    s.rsl.health.thresh ≤ s.rsl.health.risk ∧ s.rsl.health.maxS ≠ 0 ∧ s.rsl.health.minS ≤ s.rsl.health.maxS := by decide +kernel

/-- A snapshot in a phase, over the populated memory. -/
def snapIn (p : Nat) : State := { State.reset with xmu := onXmu, rsl := { snap := { phase := p } } }
theorem onXmu_in_service (b : Nat) (h : b < 1000) : retired onXmu b = false := by
  have m : ∀ c < 4, mappedOut onXmu c = false := by decide
  have e : (dirEnt onXmu b).st = .unsealed := by
    show (dirDefault onXmu b).st = .unsealed
    have i : installed onXmu = 196608 := rfl
    have k : spareBlk onXmu = 48640 := rfl
    rw [dirDefault, i, k, m _ (Nat.mod_lt _ (by decide)), if_neg]
    rintro (h | h | h)
    · omega
    · omega
    · cases h
  rw [retired, e]; rfl
theorem witness_freeze_region : extFault (snapIn 1).xmu ((snapIn 1).rsl.snap.freezeBlk * 16384) 7340032 = none := by
  show extFault onXmu 0 7340032 = none
  have i : installed onXmu = 196608 := rfl
  have f : (List.range ((0 + 7340032 + 16383) / 16384 - 0 / 16384)).find? (fun i => retired onXmu (0 / 16384 + i)) = none := by
    rw [List.find?_eq_none]
    intro x hx
    rw [onXmu_in_service _ (by have := List.mem_range.mp hx; omega)]
    decide
  rw [extFault, i, if_neg (by decide), f]
theorem onXmu_lines (n : Nat) (h : n ≤ 1000 * 16384) : stuckLines onXmu [(0, n)] = [] := by
  have act : ∀ c < 4, chanActive onXmu c = true := by decide
  have f : ([] ++ linesOf onXmu [(0, n)]).filter (fun pl => !chanActive onXmu (plChan pl)) = [] := by
    rw [List.nil_append, List.filter_eq_nil_iff]
    intro pl hp
    simp only [linesOf, List.flatMap_cons, List.flatMap_nil, List.append_nil, List.mem_map, List.mem_range] at hp
    obtain ⟨i, hi, rfl⟩ := hp
    have : plChan (plOf (dirEnt onXmu ((0 / 128 + i) / 128)) ((0 / 128 + i) % 128)) = (0 / 128 + i) / 128 % 4 := by
      show ((0 / 128 + i) / 128 % 4 * 2 ^ 24 + (0 / 128 + i) / 128 / 4 * 128 + (0 / 128 + i) % 128) / 2 ^ 24 = _
      omega
    rw [this, act _ (Nat.mod_lt _ (by decide))]
    decide
  rw [stuckLines, show onXmu.wcb.map (fun l => l.pl) = [] from rfl, f]; rfl
theorem witness_freeze_ready : freezeReady (snapIn 2) = true := by
  have act : ∀ c < 4, chanActive onXmu c = true := by decide
  have r : roomForLines onXmu [(0, 7340032)] = true := by
    rw [roomForLines, onXmu_lines _ (by decide)]
    have a : (List.range 4).all (fun c => chanActive onXmu c
        || decide ((([] : List Nat).filter (fun pl => decide (plChan pl = c))).length ≤ 16)
        || decide (((linesOf onXmu [(0, 7340032)]).filter (fun pl => (wcbLine onXmu pl).isNone)).all (fun pl => decide (plChan pl ≠ c)))) = true := by
      rw [List.all_eq_true]
      intro c hc
      rw [act c (List.mem_range.mp hc)]; rfl
    simp only [a]
    rfl
  have e : freezeReady (snapIn 2) = (true && roomForLines onXmu [(0, 7340032)]) := rfl
  rw [e, r]; rfl
theorem witness_snapshot_phases :
    (snapIn 1).rsl.snap.phase = 1 ∧ (∀ c : Ctx, atRest (snapIn 1) c = true) ∧ (snapIn 1).xfer.jobs = [] ∧
    (snapIn 1).hst.rings.all (fun r => r.2.busy.all (fun b => decide (b.kind ≠ 3))) = true ∧
    (snapIn 1).syn.evals = [] ∧ (snapIn 2).syn.evals = [] ∧
    (snapIn 2).rsl.snap.phase = 2 := by decide +kernel
theorem witness_fill :
    let s : State := { State.reset with rsl := { fill := { st := 1 } } }
    State.reset.rsl.fill.st ≠ 1 ∧ fillAllowed State.reset = true ∧ s.rsl.fill.st = 1 ∧ s.rsl.fill.streams = 0 ∧
    s.rsl.fill.finishing = false ∧ s.rsl.fill.late = [] ∧ 8 ≤ s.nvs.phase := by decide +kernel
/-- Bytes of a fill that find no room, as the parts are in self-refresh. -/
theorem witness_fill_waits :
    let x : Nat × List W8 × Hold × Nat := (0, [1#8], .none, 1)
    let s : State := { State.reset with rsl := { fill := { st := 1, streams := 1, late := [x] } }, xmu := { onXmu with step := 3 } }
    s.rsl.fill.st = 1 ∧ s.rsl.fill.streams ≠ 0 ∧ s.rsl.fill.late = x :: [] ∧
    roomForLines s.xmu [(x.1, x.2.1.length)] = false := by decide +kernel

/-- A fill whose stream's directory copy names every block RETIRED. -/
def filled : State :=
  { State.reset with rsl := { fill := { st := 1, streams := 1, last := List.replicate (4096 + 3145728 + 8 * 524288) 2#8 } } }
theorem witness_fill_finish : filled.rsl.fill.st = 1 ∧ filled.rsl.fill.streams ≠ 0 ∧ filled.rsl.fill.late = [] ∧
    ∃ d, filledDir (drainAll filled) filled.rsl.fill.last = some d := by
  have entry : ∀ b < 524288, (filledEntry (drainAll filled) filled.rsl.fill.last b).isSome = true := by
    intro b hb
    have k : (copyEntry filled.rsl.fill.last b).st = .retired := by
      have h : slice (4096 + 3145728 + 8 * b) 8 filled.rsl.fill.last = List.replicate 8 2#8 := by
        simp only [slice, filled, List.drop_replicate, List.take_replicate]
        congr 1; omega
      rw [copyEntry, h]; decide
    unfold filledEntry
    simp only [k]
    split <;> rfl
  have fold : ∀ (l : List Nat) (m : SMap DirEnt), (∀ b ∈ l, b < 524288) →
      ∃ d, l.foldl (fun m b => match m, filledEntry (drainAll filled) filled.rsl.fill.last b with
        | some m, some e => some (SMap.set (dirDefault (drainAll filled).xmu b) m b e)
        | _, _ => none) (some m) = some d := by
    intro l
    induction l with
    | nil => exact fun m _ => ⟨m, rfl⟩
    | cons b l ih =>
      intro m h
      obtain ⟨e, he⟩ := Option.isSome_iff_exists.mp (entry b (h b (by simp)))
      rw [List.foldl_cons, he]
      exact ih _ (fun x hx => h x (by simp [hx]))
  exact ⟨rfl, by decide, rfl, fold _ [] (fun b h => List.mem_range.mp h)⟩
theorem witness_running_and_stopped :
    let s := withCtxs [(0, { cstate := .running }), (7, {})]
    (ctx s 0).cstate = .running ∧ (ctx s 0).stopping = false ∧ (ctx s 7).cstate = .stopped := by decide

/-! ### Settings and reset -/

theorem witness_core_reset : ∃ r : ResetInput, State.reset.nvs.copy0 = [] ∧ State.reset.nvs.copy1 = [] ∧ r.board = none ∧
    r.bistRows = [] ∧ r.bistFails = 0 ∧ r.hostReq = false := ⟨⟨false, none, [], 0, false⟩, by decide⟩
/-- A reset that has come to its training phase, with a channel that trains. -/
theorem witness_boot_step :
    let s : State := { State.reset with nvs := { phase := 7 }, xmu := { chans := [(3, { st := .training })] } }
    s.pending = [] ∧ s.nvs.phase < 8 ∧ s.nvs.phase = 7 ∧ ∃ c < 4, (chan s.xmu c).st = .training :=
  ⟨by decide, by decide, by decide, 3, by decide, by decide⟩
theorem witness_store :
    let x : StoreRun := ⟨[], 5⟩
    let s : State := { State.reset with nvs := { store := some x } }
    State.reset.nvs.store = none ∧ 8 ≤ State.reset.nvs.phase ∧ storeCount State.reset.nvs < 100000 ∧ s.nvs.store = some x ∧
    s.nvs.store ≠ none ∧ s.nvs.storePending = false ∧ copyValid State.reset.nvs State.reset.nvs.current = false := by decide

/-- A store whose current copy has version 1 and the check given. -/
def nvsOf (v : Nat) : NvsSt := { copy0 := [(0, 1), (127, v)], current := 0 }
theorem witness_store_valid : ∃ v, (nvsOf v).store = none ∧ copyValid (nvsOf v) (nvsOf v).current = true := by
  have same (v w : Nat) : imageCrc (copyWords (nvsOf v) 0) = imageCrc (copyWords (nvsOf w) 0) := by
    have h : (copyWords (nvsOf v) 0).set 127 0 = (copyWords (nvsOf w) 0).set 127 0 := by
      apply List.ext_getElem (by simp [copyWords])
      intro i h1 h2
      rw [List.getElem_set, List.getElem_set]
      split
      · rfl
      · rename_i h
        simp only [copyWords, List.getElem_map, List.getElem_range]
        simp [copyWord, nvsOf, SMap.get, h]
    rw [imageCrc, imageCrc, h]
  refine ⟨imageCrc (copyWords (nvsOf 0) 0), rfl, ?_⟩
  have w : copyWord (nvsOf (imageCrc (copyWords (nvsOf 0) 0))) 0 127 = imageCrc (copyWords (nvsOf 0) 0) := by
    simp [copyWord, nvsOf, SMap.get]
  have z : bits (copyWord (nvsOf (imageCrc (copyWords (nvsOf 0) 0))) 0 0) 15 0 = 1 := by
    simp [copyWord, nvsOf, SMap.get, bits]
  show copyValid _ 0 = true
  rw [copyValid, w, z, decide_eq_true (same (imageCrc (copyWords (nvsOf 0) 0)) 0)]
  simp [copyBlank, nvsOf]
theorem witness_firmware_load :
    let s : State := { State.reset with nvs := { fwBusy := true } }
    8 ≤ State.reset.nvs.phase ∧ State.reset.nvs.fwBusy = false ∧ firmwareAllowed State.reset = true ∧
    firmwareAllowed (withCtxs [(0, { cstate := .running })]) = false ∧ s.nvs.fwBusy = true ∧ ([] : List W8).length < 64 := by decide

/-- A firmware image of 64 bytes with the greatest version. -/
def fwHead : List W8 := bytesOfWords [0xFFFF, 64] ++ List.replicate 52 0#8
def fwImg : List W8 := sealedBytes fwHead []
theorem fwHead_length : fwHead.length = 60 := by decide
theorem witness_firmware_image : 64 ≤ fwImg.length ∧ fwImg.length ≤ 262144 ∧ ofLE (slice 4 4 fwImg) = fwImg.length ∧
    crc32c (fwImg.take 60 ++ [0#8, 0#8, 0#8, 0#8] ++ fwImg.drop 64) = ofLE (slice 60 4 fwImg) ∧
    romVersion ≤ ofLE (slice 0 4 fwImg) % 2 ^ 16 := by
  have l : fwImg.length = 64 := by rw [fwImg, sealedBytes_length, fwHead_length]; rfl
  have h := sealedBytes_check fwHead []
  rw [fwHead_length] at h
  have n : ofLE (slice 4 4 fwImg) = 64 := by decide +kernel
  have v : ofLE (slice 0 4 fwImg) % 2 ^ 16 = 65535 := by decide +kernel
  refine ⟨by omega, by omega, by omega, h, ?_⟩
  rw [v, romVersion]
  omega

/-! ### Clocks, power and outside inputs -/

theorem witness_clock :
    let s : State := { State.reset with factor := 4, pwr := { State.reset.pwr with held := true } }
    let z : State := { State.reset with factor := 4, pwr := { State.reset.pwr with persist := true } }
    State.reset.pwr.held = false ∧ s.pwr.held = true ∧ s.pwr.persist = false ∧
    z.pwr.held = false ∧ z.pwr.persist = true ∧ State.reset.factor ≤ wanted State.reset.pwr ∧ wanted s.pwr < s.factor := by decide
theorem witness_die_temperature :
    let s := withCtxs [(0, { cstate := .running })]
    (List.replicate 7 20 ++ [115]).length = 8 ∧ 115 ∈ List.replicate 7 20 ++ [115] ∧ (∀ x ∈ List.replicate 7 20 ++ [115], x ≤ 115) ∧
    s.pwr.throttle ≤ 100 ∧ s.pwr.thermal = false ∧ 96 + s.pwr.hyst < s.pwr.throttle ∧ 114 < s.pwr.trip ∧ s.pwr.trip ≤ 115 ∧
    s.pwr.tripped = false ∧ 127 < s.grade.pinions ∧ (ctx s 0).cstate = .running ∧ (ctx s 0).stopping = false := by decide

/-- An assertion that acts whatever its source, with the request held and not, and one that no source makes. -/
theorem witness_droop (held : Bool) (k : Nat) :
    droopActs { State.reset.pwr with held := held } (droopSource State.reset.pwr k) = true ∧
    droopActs { State.reset.pwr with extEn := false, detEn := false } (droopSource { State.reset.pwr with extEn := false } k) = false :=
  ⟨rfl, rfl⟩

/-- A core with a limit and the estimates before now; the average after the next estimate. -/
def limited (l : Nat) (h : List Nat) (s : State) : State := { s with pwr := { s.pwr with limit := l, below := 15, above := 0, hist := h } }
def avgOf (s : State) : Nat :=
  powerAvg { s.pwr with hist := (estimate (advanceWall ((s.wall / usTicks + 1) * usTicks) s) s.free :: s.pwr.hist).take 16 }
theorem advanceWall_limited (w l : Nat) (h : List Nat) (s : State) (q : s.syn.evals = []) :
    advanceWall w (limited l h s) = limited l h (advanceWall w s) := by
  have e (k : Nat) : ∀ x ∈ s.syn.evals, k / 2 ≤ x.1 := by rw [q]; exact fun x hx => absurd hx List.not_mem_nil
  unfold advanceWall
  by_cases c : s.wall < w
  · rw [if_pos (show (limited l h s).wall < w from c), if_pos c]
    rw [advance_none _ _ (e _)]
    rw [advance_none (limited l h s) _ (e _)]
    unfold Machine.pass
    by_cases k : s.ec < s.ec + ceilDiv (w - s.wall) (ecTicks s.factor)
    · rw [if_pos k]; exact if_pos k
    · rw [if_neg k]; exact if_neg k
  · rw [if_neg (show ¬ (limited l h s).wall < w from c), if_neg c]
theorem avgOf_limited (l : Nat) : avgOf (limited l [] State.reset) = avgOf (limited 0 [] State.reset) := by
  have e (l : Nat) (s : State) (id : Nat) : estimate (limited l [] s) id = estimate s id := rfl
  simp only [avgOf, advanceWall_limited _ _ _ _ (show State.reset.syn.evals = [] from rfl), e, powerAvg]
  rfl
theorem witness_power :
    ((limited 0 (List.replicate 15 16) State.reset).pwr.limit < avgOf (limited 0 (List.replicate 15 16) State.reset) ∧ (limited 0 [] State.reset).pwr.above = 0) ∧
    (∃ l, avgOf (limited l [] State.reset) ≤ l ∧ l * 96 ≤ avgOf (limited l [] State.reset) * 100) ∧
    (∃ l, avgOf (limited l [] State.reset) * 100 < l * 96 ∧ avgOf (limited l [] State.reset) ≤ l ∧ (limited l [] State.reset).pwr.below = 15) := by
  refine ⟨⟨?_, rfl⟩, ⟨avgOf (limited 0 [] State.reset), ?_⟩, ⟨2 * avgOf (limited 0 [] State.reset) + 1, ?_⟩⟩
  · simp [avgOf, powerAvg, limited]
  · rw [avgOf_limited]; omega
  · rw [avgOf_limited]; exact ⟨by omega, by omega, rfl⟩
theorem witness_clock_gate : State.reset.pwr.mxeCg = true ∧ mxeIdle State.reset = true ∧ State.reset.pwr.vxeCg = true ∧
    vxeIdle State.reset = true ∧ State.reset.pwr.pinCg = true ∧ 127 < State.reset.grade.pinions ∧
    pinIdle State.reset 127 = true ∧ (∀ u ∈ [0, 1, 129], unitCg State.reset u = true ∧ unitIdle State.reset u = true ∧
      settledAc State.reset (idleFrom State.reset u + Nat.max 1 State.reset.pwr.hystAc) = true) := by decide
theorem witness_events : ∀ lvl ∈ [false, true],
    let e : EvtIn := { pennant := 4095, en := true, level := lvl, heldTo := 7, armAt := 9 }
    let s : State := { State.reset with evts := [(3, e)], err := { active := some 63, trcEnable := true } }
    let z : State := { State.reset with evts := [(3, { e with masked := true, en := false })] }
    8 ≤ s.nvs.phase ∧ s.syn.waits = [] ∧ s.mxe.gate = none ∧ s.syn.evals = [] ∧ s.syn.upds = [] ∧ s.err.trcWait = [] ∧
    (evt s 3).masked = false ∧ (evt s 3).en = true ∧ (evt z 3).en = false ∧
    pennant s (evt s 3).pennant + 1 < 2 ^ 32 ∧ (evt s 3).level = lvl ∧ (evt s 3).stuckMs ≠ 0 ∧ (evt z 3).masked = true ∧
    s.runs = [] ∧ s.queues = [] ∧
    s.err.active = some 63 ∧ State.reset.err.active = none ∧ State.reset.err.trcEnable = false ∧ s.err.trcEnable = true ∧
    s.err.trcFrozen = false ∧ bit s.err.trcKinds 9 = true ∧ s.err.trcOwed = 0 ∧ s.err.trcEc ≠ s.ec + 1 := by
  decide
/-- A released core without engine commands does no engine work. -/
theorem witness_no_engine_work : NoEngineWork State.reset := ⟨rfl, fun q => by cases q <;> rfl, rfl⟩

/-! ### The Bezel -/

/-- The words of a frame before its check, and a frame. -/
def frameHead (baseline : Bool) : List W8 := bytesOfWords ([b2n baseline * 2 ^ 16, 0x3FFFFF] ++ List.replicate 19 9 ++ List.replicate 10 0)
def frame (b : Bool) : List W8 := frameHead b ++ leBytes 4 (crc32c (frameHead b))
theorem witness_tap_frame : ∀ b : Bool, crc32c ((frame b).take 124) = frameWord (frame b) 31 := by
  intro b
  have n : (frameHead b).length = 124 := by cases b <;> decide +kernel
  have t : (frame b).take 124 = frameHead b := by rw [frame, ← n, List.take_left]
  have d : slice (4 * 31) 4 (frame b) = leBytes 4 (crc32c (frameHead b)) := by
    rw [slice, frame, show 4 * 31 = (frameHead b).length by rw [n], List.drop_left]; rfl
  rw [t, frameWord, d, ofLE_leBytes4 _ (crc32c_lt _)]
theorem witness_tap_first : bit (frameWord (frame true) 0) 16 = true ∧ bit (frameWord (frame false) 0) 16 = false ∧
    ({ State.reset with bezel := { rebase := false } } : State).bezel.rebase = false := by decide +kernel
theorem witness_tap_bad : crc32c (([] : List W8).take 124) = 0 ∧ frameWord (List.replicate 128 0#8) 31 = 0 ∧
    frameWord (List.replicate 124 0#8 ++ [1#8]) 31 = 1 := by decide +kernel
theorem witness_bezel :
    let s : State := { State.reset with bezel := { latest := [], signedAt := some 0 } }
    let z : State := { State.reset with bezel := { powered := false } }
    let y : State := { State.reset with bezel := { retired := true } }
    bezelPresent y = true ∧ y.bezel.powered = true ∧ y.bezel.retired = true ∧ z.bezel.retired = false ∧ State.reset.syn.evals = [] ∧
    bezelOn State.reset = true ∧ State.reset.grade ≠ .lean ∧ (State.atRelease .lean).grade = .lean ∧ bezelPresent z = true ∧
    z.bezel.powered = false ∧ z.bezel.log.length < 256 ∧ State.reset.bezel.retired = false ∧ justPeriodic s = true ∧
    bezelOn s = true ∧ justPeriodic State.reset = false ∧
    ({ State.reset with bezel := { retired := true } } : State).bezel.retired = true := by decide

/-! ### The host window -/

theorem witness_register_writes :
    let s := withCtxs [(0, {}), (7, { cstate := .running })]
    let z : State := { State.reset with nvs := { phase := 7 } }
    (¬ 8 ≤ z.nvs.phase ∧ z.runs = [] ∧ z.queues = [] ∧ z.syn.evals = [] ∧ s.runs = [] ∧ s.queues = [] ∧ s.syn.evals = [] ∧ (0xC3FFC : Nat) / 2 ^ 16 ≠ 11 ∧ 0xC3FFC < 0xC4000) ∧ 8 ≤ s.nvs.phase ∧ (ctx s 7).cstate = .running ∧
    (0x12D0 = 0x1110 + 0x40 * (7 : Ctx).val) ∧ (0x2000 + 0x200 * (7 : Ctx).val ≤ 0x2FFC ∧ 0x2FFC < 0x2200 + 0x200 * (7 : Ctx).val) ∧
    (ctx s 0).cstate ≠ .running ∧ (63 : Nat) < 64 := by decide
theorem witness_window :
    let s : State := { State.reset with ecc := [(8, 2)] }
    s.syn.evals = [] ∧ s.runs = [] ∧ (0 : Nat) % 64 = 0 ∧ 8 ≤ s.nvs.phase ∧ regionOf s 0 = some .bank ∧ bankOpen s (bankOf s.grade 0) = true ∧
    granUncorrectable s 0 = false ∧ regionOf s 64 = some .bank ∧ granUncorrectable s 64 = true ∧
    s.xfer.arrivals = [] ∧ inOrder s (ac s) = true ∧ (64 : Nat) ≠ 0x400 ∧ s.queues = [] ∧ regionOf s (2 ^ 32 - 64) = none ∧
    (∀ d ∈ [({ s with banks := [(0, { pw := .dark })] } : State)], regionOf d 0 = some .bank ∧ bankOpen d (bankOf d.grade 0) = false) ∧
    (List.replicate 64 1#8).length = 64 ∧
    (∀ i < 64, ((List.range 64).map (fun i => decide (20 ≤ i ∧ i < 24))).getD i false = decide (20 ≤ i ∧ i < 24)) := by
  decide +kernel

/-! ### Numbers -/

theorem witness_scales : (∃ f : Fmt, f.isMx = true) ∧ decodeElem .mxfp8 true 0x7F = .nan ∧ decodeElem .mxfp8 true 0x7C = .inf false ∧
    decodeElem .e2m1 false 0x7 = .fin false 3 1 := ⟨⟨.e2m1, by decide⟩, by decide, by decide, by decide⟩
theorem witness_numbers : layFP32.decode 0x7F7FFFFF = .fin false 0xFFFFFF 104 ∧ layE5M2.decode 0xFC = .inf true ∧
    layBF16.decode 0x7FFF = .nan ∧ 0x7F7FFFFF < 2 ^ (1 + layFP32.eb + layFP32.mb) ∧ 0xFC < 2 ^ (1 + layE5M2.eb + layE5M2.mb) := by
  decide

end Sys2Proof.Tests
end

