-- ==== Sys2Proof/Tests/Witness5.lean ====
section
/-!
SUPPORT. Witnesses, clause by clause: the starts of engine and transfer commands, and what the engines compute.
-/
namespace Sys2Proof.Tests
open Sys2Proof.Machine

-- One theorem at a time: a kernel evaluation that waits for an earlier theorem holds a thread of its own.
set_option Elab.async false

/-! ### Timed commands at the heads of their queues -/

/-- Context 0 with its partition resident and one command at the head of a queue; FTQ entry 7 is its own. -/
def timed (q : QName) (ws : List Nat) : State :=
  { State.reset with
    queues := [(qIdx q, [entry ws])]
    ctxs := [(0, { cstate := .running, uprog := [(0, 1)] })]
    cm := { State.reset.cm with partSize := [(0, 4096)], resident := [0] }
    mxe := { active := { fmt := 3 }, ftq := [(7, { st := .held, owner := 0 })] } }
def fillW (op lines : Nat) : List Nat := [op, 0, 0, 0, 0, lines + 3 * 2 ^ 10 + 64 * 2 ^ 17]
def streamW : List Nat := [0x13, 0, 0, 0, 0, 256 + 3 * 2 ^ 16, 64]
def cvtW : List Nat := [0x14, 0, 0, 1, 64, 0, 7 + 32 * 2 ^ 4 + 256 * 2 ^ 13, 0]
def txbW : List Nat := [0x18, 0, 0, 0, 0, 512 + 64 * 2 ^ 10, 0, 0, 0]
def vecW : List Nat := [0x20, 0, 64, 128, 16, 1, 0, 0]
def pinW : List Nat := [0x24, 1 + 2 ^ 20, 2 ^ 7 + 2 ^ 16 + 2 ^ 19, 0, 0, 0, 1, 0]
theorem witness_timed_heads :
    ∀ p ∈ [(QName.mxe, fillW 0x10 256), (.mxe, fillW 0x11 64), (.mxe, streamW), (.mxe, cvtW), (.txb, txbW), (.vxe, vecW), (.pin, pinW)],
    let s := timed p.1 p.2
    queue s p.1 = entry p.2 :: [] ∧ headStart s p.1 = some 2 ∧ settledAc s 2 = true ∧ startDue s 2 = false ∧ s.runs = [] ∧
    advance (2 * 2) s = pass (2 * 2) s := by
  decide +kernel
theorem witness_fill_head : ∀ p ∈ [(0x10, 256), (0x11, 64)],
    fillOk (decide (p.1 = 0x11)) (entry (fillW p.1 p.2)) = true ∧
    accessFault (timed .mxe (fillW p.1 p.2)) ownMxe 0 (fun _ => false) (granules (fillOpnd (fillW p.1 p.2)).ranges) [] = none := by
  decide +kernel
theorem witness_stream_head :
    let s := timed .mxe streamW
    streamOk false (entry streamW) = true ∧ streamRow s streamW = some 1 ∧ badAcc s 2 0 (streamAdds streamW) = none ∧
    bits (wd streamW 5) 11 0 = 256 ∧
    accessFault s ownMxe 0 (fun r => decide (r = .mxeBuf)) (granules (streamOpnd streamW 256).ranges) [] = none := by
  decide +kernel
theorem witness_convert_head :
    let s := timed .mxe cvtW
    ftqCvtOk (entry cvtW) = true ∧ badAcc s 2 0 [bits (wd cvtW 6) 2 0] = none ∧
    badGranule s 0 (fun _ => false) (cvtReads cvtW) = none ∧
    accessFault s ownMxe 0 (fun r => decide (r = .mxeBuf)) (cvtReads cvtW) (cvtWrites cvtW s) = none := by decide +kernel
theorem witness_buffer_head : txbOk (entry txbW) = true ∧
    accessFault (timed .txb txbW) ownMxe 0 (fun _ => false) (granules ((List.range (txbRows txbW)).map (txbRow txbW))) [] = none := by
  decide +kernel
theorem witness_vector_head : vxeOk (entry vecW) = true ∧
    vFault (timed .vxe vecW) (entry vecW) 2 (vOut (timed .vxe vecW) (entry vecW) 2 0) = none := by decide +kernel
theorem witness_pinion_head :
    let s := timed .pin pinW
    pinOk s (entry pinW) = true ∧
    accessFault s ownPin 0 (fun _ => false) (runGrans s pinW (pIns pinW)) (runGrans s pinW (pOuts pinW)) = none := by decide +kernel

/-! ### Transfers at the heads of their queues -/

/-- Context 0 with its partition, a stash with layer 1, external memory and port 1, and one command at the head of a queue. -/
def moving (q : QName) (ws : List Nat) : State :=
  { timed q ws with
    cm := { State.reset.cm with partSize := [(0, 4096)], resident := [0], hier := true }
    stash := [(0, { size := 1536, stride := 2, layers := [(1, .resident)], slots := [⟨1, 0, 1, 1⟩], head := 1 })]
    xmu := onXmu
    lnk := { en1 := true, ports := [(1, { up := true })] } }
def readW : List Nat := [0x30, 0, 0, 65535 * 2 ^ 14 + 4095 * 2 ^ 2, 64, 1 + 15 * 2 ^ 12, 0, 0, 0]
def writeW : List Nat := [0x31, 0, 0, 65535 * 2 ^ 14 + 4095 * 2 ^ 2, 64, 1, 0, 0, 0]
def gatherW : List Nat := [0x32, 0, 0, 4095 * 2 ^ 2, 32 + 2 ^ 16, 4, 0, 32, 0]
def sharedW (w : Bool) : List Nat := [if w then 0x34 else 0x33, 64, 0, 0, 64, 4095 + 65535 * 2 ^ 12, 0, 0, 0]
def claimW : List Nat := [0x35, 1023 + 2 ^ 10, 1535, 4095, 0, 0, 0, 0]
def stashW (op : Nat) : List Nat := [op, 1, 0, 4095, 0, 0, 0, 0]
def lnkW (w : Bool) : List Nat :=
  if w then [0x38, 0, 0, 2 ^ 29, 4, 0, 4095 + 65535 * 2 ^ 12, 0, 0] else [0x39, 0, 0, 2 ^ 29, 64, 4095 + 65535 * 2 ^ 12, 0, 0, 0]
theorem witness_transfer_heads : ∀ p ∈ [(QName.xdma, readW), (.xdma, writeW), (.xdma, gatherW), (.xdma, sharedW false), (.xdma, sharedW true),
      (.xdma, claimW), (.xdma, stashW 0x36), (.xdma, stashW 0x37), (.lnk, lnkW false), (.lnk, lnkW true)],
    let s := moving p.1 p.2
    queue s p.1 = entry p.2 :: [] ∧ settledAc s (readyAc s p.1 (entry p.2)) = true ∧
    startDue s (readyAc s p.1 (entry p.2)) = false ∧ s.syn.evals = [] ∧ s.xfer.jobs = [] ∧ s.xfer.late = [] ∧
    (port s 0).heldIn = [] ∧ (port s 1).heldIn = [] ∧ s.rsl.fill.late = [] ∧ s.runs = [] ∧
    (ctx s 0).stopping = false ∧ (ctx s 0).cstate = .running := by decide +kernel
theorem witness_full_class : 16 ≤ xdmaCount { moving .xdma readW with xfer := { jobs := List.replicate 16 (job .read 1) } } := by decide
theorem witness_read_and_write_heads :
    rwOk false (entry readW) = true ∧ rwOk true (entry writeW) = true ∧
    (∀ ws ∈ [readW, writeW], xdmaFault (moving .xdma ws) 0 (w3Prio ws) (cmRows 1 (wd ws 1) (wd ws 6) (wd ws 4))
      ((List.range 1).map (fun i => ((wd ws 8 + i * wd ws 7) % 2 ^ 34, wd ws 4))) = none) := by decide +kernel
theorem witness_gather_head :
    let s := moving .xdma gatherW
    gatherOk (entry gatherW) = true ∧ rowCount (bits (wd gatherW 4) 31 16) 65536 = 1 ∧
    xdmaFault s 0 (w3Prio gatherW) [(4, 4), (0, 32)] [] = none ∧ outFault s 0 = none ∧
    extFault s.xmu ((wd gatherW 8 + readLE s 4 4 * wd gatherW 7) % 2 ^ 34) 32 = none := by decide +kernel
theorem witness_shared_heads : ∀ w : Bool,
    let s := moving .xdma (sharedW w)
    smOk w (entry (sharedW w)) = true ∧ badRange s 0 [(64, 64)] = none ∧ s.cm.hier = true ∧ outFault s 64 = none ∧
    ({ s with cm := { s.cm with hier := false } } : State).cm.hier = false := by decide +kernel
theorem witness_stash_heads :
    let s := moving .xdma claimW
    stashOk 0x35 (entry claimW) = true ∧ stashOk 0x36 (entry (stashW 0x36)) = true ∧ stashOk 0x37 (entry (stashW 0x37)) = true ∧
    layerOf (stashOf s 0) 1023 = .absent ∧ placeFault s (stashOf s 0) 1023 1535 = none ∧
    (placement (stashOf s 0) 1535).2 = [] ∧ layerOf (stashOf s 0) 1 = .resident := by decide +kernel
theorem witness_link_heads :
    let s := moving .lnk (lnkW true)
    lnkWriteOk (entry (lnkW true)) = true ∧ lnkReadOk (entry (lnkW false)) = true ∧ badRange s 0 [(0, 4)] = none ∧
    badRange s 0 [(0, 64)] = none ∧ (port s 1).up = true ∧
    (port ({ s with lnk := {} } : State) 1).up = false := by decide +kernel

/-! ### What the engines compute -/

/-- Operands of 256 elements with the last one inside the K-length, and of 224 with some outside. -/
theorem witness_operands :
    let o (k : Nat) (txb : Bool) (code : Nat) : Opnd :=
      { base := 0, pitch := 0, sbase := 0, spitch := 0, fmtCode := code, kind := false, txb := txb, sel := 1, klen := k, lines := 1 }
    (o 256 true 3).fmt.width = 8 * 1 ∧ (255 < (o 256 true 3).klen) ∧ ¬ 255 < (o 224 true 3).klen ∧
    (o 256 false 5).fmt.isMx = true ∧ 255 / 32 < (o 256 false 5).klen / 32 ∧
    (o 256 false 10).fmt = .int8 ∧ (o 256 false 10).fmt.width = 8 * 1 ∧ (o 256 false 0).fmt.width = 8 * 4 ∧
    (o 256 false 0).fmt.isMx = false := by decide
theorem witness_column : (List.replicate 32 (f32 0x3F800000)).length ≤ 32 ∧
    (∀ v ∈ List.replicate 32 (f32 0x3F800000) ++ List.replicate 32 (f32 0x80000000), v.isFin = true) := by decide
theorem witness_stream_rows : (255 : Nat) < 256 ∧ (7 : Nat) ≤ 7 ∧ (256 : Nat) ≤ 256 * 1 := by decide
/-- A running command of AC 3 with the effect given. -/
def carrying (op : Nat) (f : Eff) : Run := ⟨0, 5, op, 2, 3, 7, [f], default, 0⟩
theorem witness_matrix_done : ∀ p ∈ [(0x10, Eff.fill false 3 false 0 []), (0x11, .fill true 3 false 0 []),
      (0x13, .sums 7 0 false [(3, 255, [1#32])]), (0x13, .sums 7 0 true [(3, 255, [1#32])]), (0x18, .txb 1 0 [1#8])],
    let s : State := { State.reset with runs := [carrying p.1 p.2], mxe := { ftq := [(7, { st := .open_, writer := 2 })] } }
    s.runs = [carrying p.1 p.2] ∧ (carrying p.1 p.2).seat = 0 ∧ s.xfer.arrivals = [] ∧ s.syn.evals = [] ∧ s.pwr.tripped = false ∧
    startDue s (carrying p.1 p.2).doneAc = false ∧ (255 : Nat) < 256 ∧ (ftq s 7).st = .open_ ∧ (ftq s 7).stamp = 0 ∧
    (ftq s 7).writer = (carrying p.1 p.2).startAc := by decide
theorem witness_buffer_rows : (entry txbW).stale = false ∧ 511 < txbRows txbW := by decide
theorem witness_conversion :
    let f := cvtFmt (wd cvtW 3)
    f.isMx = false ∧ f ≠ .int8 ∧ f.width = 8 * 2 ∧ bits (wd cvtW 3) 6 5 = 0 ∧ 31 < (cvtShape cvtW).1 ∧ 255 < (cvtShape cvtW).2 ∧
    (sctSlot (timed .mxe cvtW) (bits (wd cvtW 3) 23 16)).policy ≠ 2 := by decide
theorem witness_finite : (f32 0x7F7FFFFF).isFin = true ∧ (f32 0x80000000).isFin = true ∧ (f32 1).isFin = true := by decide
theorem witness_vector_elements : ∀ v ∈ [0, 7, 0x08, 0x0B, 0x0C, 0x31],
    let ws : List Nat := [0x20, 0, 64, 128, 16 + v * 2 ^ 21, 1, 0, 0]
    0 < rowsOf ws ∧ 15 < vlenOf ws ∧ vopOf ws = v ∧ active (timed .vxe ws) (entry ws) (vlenOf ws) 0 15 = true := by decide +kernel
theorem witness_reductions : [(0, f32 0x3F800000)] ≠ [] ∧ ∀ p ∈ [(0, f32 0x3F800000)], p.2.isFin = true := by decide
theorem witness_pinion_step : ∀ w ∈ [0x01, 0x11], stOp w ≠ 0x0C ∧ stOp w ≠ 0x12 ∧ (List.replicate 8 Val.zero).length = 8 := by decide
theorem witness_pinion_output :
    pRound pinW = 0 ∧ 0 < pOutN pinW ∧ pinOpen pinW 0 0 = false ∧ dSfmt 0 ≠ 5 ∧ 0 < (pinBanks pinW).length ∧ 0 < pElems pinW := by decide +kernel

end Sys2Proof.Tests
end

/-!
## What a step leaves unchanged: the grade and the isolation (R5, R368)

Nothing changes `State.grade`; besides the core reset, only `goSilent` changes `State.isolated`. Below, one lemma for
each function of the model that acts on a state says which case it is in, in the order of the model's files: `f_kept` says
that `f` keeps both fields, and `f_stays` that it keeps the grade and leaves an isolated core isolated. A row of `exec`
that only calls such functions needs no lemma of its own, nor does a function of which the model's laws already say it.
-/

namespace Sys2Proof.Machine

/-- The grade and the isolation of `t` are those of `s`. It is reducible, so a lemma `Kept s (f s)` rewrites
both fields of `f s`. -/
@[simp] abbrev Kept (s t : State) : Prop := t.grade = s.grade ∧ t.isolated = s.isolated
/-- `Kept` behind a name that does not unfold: the cases of a function whose conditions read the memory map are split
under `Held`, so that the kernel never evaluates a field of the function's value. -/
def Held (s t : State) : Prop := Kept s t
theorem Held.kept {s t : State} (h : Held s t) : Kept s t := h
theorem Kept.held {s t : State} (h : Kept s t) : Held s t := h
/-- Every state the outcome goes on with is `Kept`. -/
def OutKept (s : State) (o : Out) : Prop := ∀ t, o = .next t → Kept s t
@[simp] theorem outKept_next (s t : State) : OutKept s (.next t) ↔ Kept s t := by simp [OutKept]
@[simp] theorem outKept_fault (s : State) (r : Fault) : OutKept s (.fault r) := by simp [OutKept]

@[simp] theorem grade_ite (c : Prop) [Decidable c] (s t : State) :
    (if c then s else t).grade = if c then s.grade else t.grade := apply_ite ..
@[simp] theorem isolated_ite (c : Prop) [Decidable c] (s t : State) :
    (if c then s else t).isolated = if c then s.isolated else t.isolated := apply_ite ..

theorem Kept.of_eq {s t u : State} (h : t = u) (hu : Kept s u) : Kept s t := h ▸ hu
theorem Kept.trans {s t u : State} (h : Kept s t) (h' : Kept t u) : Kept s u := ⟨h'.1.trans h.1, h'.2.trans h.2⟩
@[simp] theorem foldl_kept {α : Type} {f : State → α → State} (l : List α) (hf : ∀ s a, Kept s (f s a))
    (s : State) : Kept s (l.foldl f s) :=
  List.foldlRecOn (motive := Kept s) l f ⟨rfl, rfl⟩ fun t h a _ => h.trans (hf t a)
@[simp] theorem foldl_kept_fst {α β : Type} {f : State × β → α → State × β} (hf : ∀ p a, Kept p.1 (f p a).1)
    (l : List α) (p : State × β) : Kept p.1 (l.foldl f p).1 :=
  List.foldlRecOn (motive := fun q => Kept p.1 q.1) l f ⟨rfl, rfl⟩ fun q h a _ => h.trans (hf q a)
@[simp] theorem foldl_kept_snd {α β : Type} {f : β × State → α → β × State} (hf : ∀ p a, Kept p.2 (f p a).2)
    (l : List α) (p : β × State) : Kept p.2 (l.foldl f p).2 :=
  List.foldlRecOn (motive := fun q => Kept p.2 q.2) l f ⟨rfl, rfl⟩ fun q h a _ => h.trans (hf q a)

variable (s : State)

/-! ### Core memory (chapter 08) -/

@[simp] theorem storeBytes_kept (a bs) : Kept s (storeBytes s a bs) := ⟨rfl, rfl⟩
@[simp] theorem noteWrite_kept (t self gs) : Kept s (noteWrite s t self gs) := ⟨rfl, rfl⟩
@[simp] theorem writeMasked_kept (a bs) : Kept s (writeMasked s a bs) := by
  induction bs generalizing s a with
  | nil => exact ⟨rfl, rfl⟩
  | cons b bs ih => cases b <;> simp [writeMasked, ih]
/-- A property that holds of `s` and of every change of a bank's record holds of `noteRead`. The definition is taken as an
unknown function before it is unfolded: the kernel would otherwise decide `regionOf` to compare the two forms. -/
theorem noteRead_ind {P : State → Prop} (g) (h : P s) (hbank : ∀ b f, P (modBank s b f)) : P (noteRead s g) := by
  generalize hf : noteRead = f
  delta noteRead at hf
  subst hf
  beta_reduce
  split
  · extract_lets +onlyGivenNames b n u
    split
    · exact h
    · exact hbank ..
  · exact h
@[simp] theorem noteRead_kept (g) : Kept s (noteRead s g) :=
  noteRead_ind s g (P := Kept s) ⟨rfl, rfl⟩ fun _ _ => by simp
@[simp] theorem noteReads_kept (gs) : Kept s (noteReads s gs) := by simp [noteReads]
@[simp] theorem setMaps_kept (m) : Kept s (setMaps s m) := ⟨rfl, rfl⟩

/-! ### The operations every command shares -/

@[simp] theorem afterBoot_kept (o : Out) (ho : OutKept s o) : OutKept s (afterBoot s o) := by
  unfold afterBoot
  split <;> simp [ho]
@[simp] theorem settleErr_kept : Kept s (settleErr s) := ⟨rfl, rfl⟩
@[simp] theorem settleTrace_kept : Kept s (settleTrace s) := by simp [settleTrace]
@[simp] theorem modSyn_kept (f) : Kept s (modSyn f s) := ⟨rfl, rfl⟩
@[simp] theorem streamFault_kept (c code tag d) :
    Kept s (streamFault c code tag d s) := .of_eq (streamFault_frame ..) ⟨rfl, rfl⟩
@[simp] theorem hostStop_kept (c) : Kept s (hostStop c s) := by simp [hostStop]
@[simp] theorem addSummary_kept (c f tag) : Kept s (addSummary c f tag s) := by simp [addSummary]
@[simp] theorem addTot_kept (i n) : Kept s (addTot i n s) := by simp [addTot]

/-! ### What comes due as time passes: pennants, hoists, the EC -/

@[simp] theorem post_kept (owner host t m) : Kept s (post owner host t m s) := ⟨rfl, rfl⟩
@[simp] theorem ringDone_kept (r) : Kept s (ringDone r s) := .of_eq (ringDone_frame ..) ⟨rfl, rfl⟩
@[simp] theorem releaseTakes_kept (p k ws) : Kept s (releaseTakes p k ws s) := .of_eq (releaseTakes_frame ..) ⟨rfl, rfl⟩
@[simp] theorem hoistMsgs_kept (kind h parity value t ws) : Kept s (hoistMsgs kind h parity value t ws s) := .of_eq
    (hoistMsgs_frame ..) ⟨rfl, rfl⟩
@[simp] theorem closeEpoch_kept (h t) : Kept s (closeEpoch h t s) := .of_eq (closeEpoch_frame ..) ⟨rfl, rfl⟩
@[simp] theorem dueAtEnd_kept (k n) : Kept s (dueAtEnd k n s) := ⟨rfl, rfl⟩
@[simp] theorem closeNext_kept (h t) : Kept s (closeNext h t s) := by simp [closeNext]
@[simp] theorem checkHoist_kept (h t) : Kept s (checkHoist h t s) := .of_eq (checkHoist_frame ..) ⟨rfl, rfl⟩
@[simp] theorem markEntry_kept (h q next) : Kept s (markEntry h q next s) := ⟨rfl, rfl⟩
@[simp] theorem evalTops_kept (p k) : Kept s (evalTops p k s) := .of_eq (evalTops_frame ..) ⟨rfl, rfl⟩
@[simp] theorem dueEval_kept (p k) : Kept s (dueEval p k s) := ⟨rfl, rfl⟩
@[simp] theorem tick_kept : Kept s (tick s) := by simp [tick]
@[simp] theorem takeSlot_kept (owner g) : Kept s (takeSlot owner s g).2 := by simp [takeSlot]
@[simp] theorem takeSlots_kept (owner gs) : Kept s (takeSlots owner gs s) := by simp [takeSlots]

/-! ### Issue and the scalar commands of the escapement -/

@[simp] theorem passed_kept (c m) : Kept s (passed c m s) := by simp [passed]
@[simp] theorem skipped_kept (c m) : Kept s (skipped c m s) := by simp [skipped]
@[simp] theorem doIssue_kept (always) (act : Ctx → Cmd → State → State) (sl)
    (hact : ∀ x y s, Kept s (act x y s)) : Kept s (doIssue always act sl s) := by
  unfold doIssue
  split <;> simp [hact]
@[simp] theorem formatFault_kept (c m) : Kept s (formatFault c m s) := streamFault_kept ..
@[simp] theorem ungate_kept (q op ws) : Kept s (ungate q op ws s) := by
  unfold ungate
  split <;> simp
@[simp] theorem enqueue_kept (q c m) : Kept s (enqueue q c m s) := by
  simp only [enqueue]
  repeat' split
  all_goals simp
@[simp] theorem scalar_kept (ok eff c m) : Kept s (scalar ok eff c m s) := by simp [scalar]
@[simp] theorem issueRow_kept (op always) (act : Ctx → Cmd → State → State) (sl)
    (hact : ∀ x y s, Kept s (act x y s)) : OutKept s (issueRow op always act sl s) := by
  unfold issueRow
  split <;> simp [hact]
@[simp] theorem issueLoop_kept (c m) : Kept s (issueLoop c m s) := by simp [issueLoop]
@[simp] theorem issueEndLoop_kept (c m) : Kept s (issueEndLoop c m s) := by
  simp only [issueEndLoop]
  repeat' split
  all_goals simp
@[simp] theorem atPoint_kept (act : Ctx → Cmd → State → State) (c) (m) (hact : ∀ x y s, Kept s (act x y s)) :
    Kept s (atPoint act c m s) := by simp [atPoint, hact]
@[simp] theorem issueEnd_kept (c m) : Kept s (issueEnd c m s) := by simp [issueEnd]
@[simp] theorem issueReserved_kept (c m) : Kept s (issueReserved c m s) := streamFault_kept ..

/-! ### The start of a queued command -/

@[simp] theorem popQueue_kept (q) : Kept s (popQueue q s) := by simp [popQueue]
@[simp] theorem startFault_kept (q e code detail) : Kept s (startFault q e code detail s) := by simp [startFault]
@[simp] theorem accessStop_kept (q e f reads) : Kept s (accessStop q e f reads s) := by simp [accessStop]
@[simp] theorem startFormat_kept (q e) : Kept s (startFormat q e s) := by simp [startFormat]
@[simp] theorem drawGens_kept (effs) : Kept s (drawGens effs s) := ⟨rfl, rfl⟩
@[simp] theorem launch_kept (q e start occ depth seat effs) : Kept s (launch q e start occ depth seat effs s) := by
  simp [launch]
@[simp] theorem begin_kept (q e start occ depth effs) : Kept s (begin_ q e start occ depth effs s) := by simp [begin_]
@[simp] theorem beginSpan_kept (q e start occ depth reads id effs before writes) :
    Kept s (beginSpan q e start occ depth reads id effs s before writes) := by simp [beginSpan]
@[simp] theorem startAt_kept (a) (f : State → State) (hf : ∀ s, Kept s (f s)) : Kept s (startAt a f s) := by
  simp [startAt, hf]

/-! ### Scale trackers -/

@[simp] theorem startSct_kept (e) : Kept s (startSct e s) := by simp [startSct]
@[simp] theorem issueSct_kept (op sl) : OutKept s (issueSct op sl s) := by
  unfold issueSct
  split <;> simp
@[simp] theorem sctPut_kept (n r v) : Kept s (sctPut n r v s) := by
  unfold sctPut
  split <;> simp

/-! ### The matrix engine (chapters 04 and 05) -/

@[simp] theorem startFill_kept (strip e) : Kept s (startFill strip e s) := by
  refine startAt_kept s _ _ fun s => ?_
  split
  · simp
  · dsimp only
    split <;> simp
@[simp] theorem startSwap_kept (e) : Kept s (startSwap e s) := by simp [startSwap]
@[simp] theorem applyFill_kept (strip k) : Kept s (applyFill strip k s) := ⟨rfl, rfl⟩
@[simp] theorem applySwap_kept : Kept s (applySwap s) := ⟨rfl, rfl⟩
@[simp] theorem setFtq_kept (n x) : Kept s (setFtq n x s) := ⟨rfl, rfl⟩
@[simp] theorem landIn_kept (r n stamp acc rows) : Kept s (landIn r n stamp acc rows s).1 := by
  unfold landIn
  split <;> simp
@[simp] theorem landEff_kept (t r p e) : Kept p.1 (landEff t r p e).1 := by
  unfold landEff
  split <;> simp
@[simp] theorem landSums_kept (t) : Kept s (landSums t s) := by
  have h (r : Run) (p : State × List Eff) : Kept p.1 (r.effs.foldl (landEff t r) p).1 :=
    foldl_kept_fst (landEff_kept t r) r.effs p
  simp [landSums, h]
@[simp] theorem applySums_kept (r n stamp acc rows) : Kept s (applySums r n stamp acc rows s).1 := by simp [applySums]
@[simp] theorem claim_kept (acc c start n) : Kept s (claim acc c start n s) := by simp [claim]
@[simp] theorem enterStream_kept (e a M trow accMain accStrip) : Kept s (enterStream e a M trow accMain accStrip s) := by
  simp [enterStream]
@[simp] theorem startStream_kept (e) : Kept s (startStream e s) := by
  unfold startStream
  extract_lets ws M
  split
  · exact ⟨rfl, rfl⟩
  · refine startAt_kept s _ _ fun s => ?_
    repeat' split
    all_goals simp
@[simp] theorem streamDone_kept (r) : Kept s (streamDone r s) := by simp [streamDone]
@[simp] theorem execArrayLevelFall_kept : OutKept s (execArrayLevelFall s) := by
  simp only [execArrayLevelFall]
  split <;> simp
@[simp] theorem forgetTxb_kept (c) : Kept s (forgetTxb c s) := by simp [forgetTxb]
@[simp] theorem execGateArrival_kept : OutKept s (execGateArrival s) := by
  unfold execGateArrival
  repeat' split
  any_goals simp
  refine startAt_kept s _ _ fun s => ?_
  repeat' split
  all_goals simp
@[simp] theorem execGateDeadlineExpiry_kept : OutKept s (execGateDeadlineExpiry s) := by
  simp only [execGateDeadlineExpiry]
  repeat' split
  all_goals simp
@[simp] theorem execGateRelease_kept : OutKept s (execGateRelease s) := by
  unfold execGateRelease
  split
  · dsimp only
    split
    · simp
    · split
      · simp
      · split
        · simp
        · refine (outKept_next _ _).2 (startAt_kept s _ _ fun s => ?_)
          repeat' split
          all_goals simp
  · simp
@[simp] theorem issueStream_kept (c m) : Kept s (issueStream c m s) := by simp [issueStream]
@[simp] theorem consume_kept (n till) : Kept s (consume n till s) := by simp [consume]
@[simp] theorem startFtqCvt_kept (e) : Kept s (startFtqCvt e s) := by
  refine startAt_kept s _ _ fun s => ?_
  dsimp only
  repeat' split
  all_goals simp
@[simp] theorem startTxb_kept (e) : Kept s (startTxb e s) := by
  refine startAt_kept s _ _ fun s => ?_
  dsimp only
  repeat' split
  all_goals simp

/-! ### The vector engine (chapter 06) -/

@[simp] theorem startVxe_kept (e) : Kept s (startVxe e s) := by
  refine startAt_kept s _ _ fun s => ?_
  dsimp only
  split
  · simp
  · split <;> simp
@[simp] theorem issueVxe_kept (v sl) : OutKept s (issueVxe v sl s) := by
  unfold issueVxe
  split <;> simp

/-! ### The pinions (chapter 07) -/

@[simp] theorem holdPinions_kept (banks t) : Kept s (holdPinions s banks t) := ⟨rfl, rfl⟩
@[simp] theorem startPinRun_kept (e) : Kept s (startPinRun e s) := by
  refine startAt_kept s _ _ fun s => ?_
  dsimp only
  split
  · simp
  · split <;> simp
@[simp] theorem startAtom_kept (e) : Kept s (startAtom e s) := by
  refine startAt_kept s _ _ fun s => ?_
  dsimp only
  split
  · simp
  · split <;> simp
@[simp] theorem issueAtom_kept (op sl) : OutKept s (issueAtom op sl s) := by
  unfold issueAtom
  split <;> simp
@[simp] theorem issuePinRun_kept (c m) : Kept s (issuePinRun c m s) := by simp [issuePinRun]
@[simp] theorem fenceWrite_kept (i v) : Kept s (fenceWrite i v s) := by simp [fenceWrite]
@[simp] theorem execPinSelftest_kept (p) : OutKept s (execPinSelftest p s) := by
  simp only [execPinSelftest]
  repeat' split
  all_goals simp
@[simp] theorem execSelftestDone_kept (pass) : OutKept s (execSelftestDone pass s) := by
  unfold execSelftestDone
  split <;> simp

/-! ### The granules of running commands -/

@[simp] theorem freshen_kept (seat) : Kept s (freshen seat s) := by
  simp only [freshen]
  split <;> simp
@[simp] theorem writeAt_kept (t self g p) : Kept s (writeAt t self g s p) := by simp [writeAt]
@[simp] theorem writePlain_kept (t self g p) : Kept s (writePlain t self g s p) := by simp [writePlain]
@[simp] theorem atomRead_kept (r bs) : Kept s (atomRead r bs s) := by
  refine foldl_kept _ (fun s e => ?_) s
  split
  · dsimp only
    split <;> simp
  · simp
@[simp] theorem dropAtom_kept (r g) : Kept s (dropAtom r g s) := ⟨rfl, rfl⟩
@[simp] theorem passOn_kept (p q) : Kept s (passOn p q s) := by simp [passOn]
@[simp] theorem landAtom_kept (r g t) : Kept s (landAtom r g t s) := by
  simp only [landAtom]
  split <;> simp
@[simp] theorem landGran_kept (r g t) : Kept s (landGran r g t s) := by
  unfold landGran
  split
  · simp
  · rw [Kept, (modSpan_rest ..).2.1]
    refine foldl_kept _ (fun s e => ?_) s
    split <;> simp
@[simp] theorem touch_kept (n t self g) : Kept s (touch n t self g s) := by
  induction n generalizing s t self g with
  | zero => exact ⟨rfl, rfl⟩
  | succ n ih =>
    unfold touch
    split <;> simp [ih]
@[simp] theorem settleGran_kept (t g) : Kept s (settleGran t g s) := by simp [settleGran]
@[simp] theorem settleGrans_kept (gs) : Kept s (settleGrans gs s) := by simp [settleGrans]
@[simp] theorem reach_kept (owner gs) : Kept s (reach owner gs s) := by simp [reach]
@[simp] theorem reachRead_kept (owner gs) : Kept s (reachRead owner gs s) := by simp [reachRead]
@[simp] theorem takePending_kept (t g n pend l) : Kept s (takePending t g n pend l s).1 := by
  induction n generalizing s pend l with
  | zero => exact ⟨rfl, rfl⟩
  | succ n ih =>
    unfold takePending
    dsimp only
    split <;> simp [ih]
@[simp] theorem loseWrites_kept (t g) : Kept s (loseWrites t g s) := by simp [loseWrites]
@[simp] theorem writeRmw_kept (t g bs) : Kept s (writeRmw t g bs s) := by simp [writeRmw]
@[simp] theorem settleReads_kept (t seat) : Kept s (settleReads t seat s) := by simp [settleReads]
@[simp] theorem settleRun_kept (r) : Kept s (settleRun r s).1 := by
  simp only [settleRun]
  repeat' split
  all_goals simp
@[simp] theorem retireSpan_kept (seat) : Kept s (retireSpan seat s) := by simp [retireSpan]
@[simp] theorem settleStreams_kept (t) : Kept s (settleStreams t s) := by simp [settleStreams]
@[simp] theorem reseedRun_kept (v r) : Kept s (reseedRun v s r) := by
  simp only [reseedRun]
  split <;> simp
@[simp] theorem reseed_kept (v) : Kept s (reseed v s) := by simp [reseed]
@[simp] theorem startInOrder_kept (a) (f : State → State) (hf : ∀ s, Kept s (f s)) : Kept s (startInOrder a f s) := by
  simp [startInOrder, hf]

/-! ### Pennants, hoists and the halyard (chapter 11) -/

@[simp] theorem issueSignal_kept (c m) : Kept s (issueSignal c m s) := by simp [issueSignal]
@[simp] theorem enterWait_kept (w) : Kept s (enterWait w s) := by simp [enterWait]
@[simp] theorem issueWait_kept (c m) : Kept s (issueWait c m s) := by simp [issueWait]
@[simp] theorem releaseCleared_kept (c pred op tag n) : Kept s (releaseCleared c pred op tag n s) := by
  simp [releaseCleared]
@[simp] theorem timeOut_kept (w) : Kept s (timeOut w s) := by
  unfold timeOut
  split <;> simp
@[simp] theorem execSyncTimeout_kept (i) : OutKept s (execSyncTimeout i s) := by
  simp only [execSyncTimeout]
  repeat' split
  all_goals simp
@[simp] theorem issueHoist_kept (c m) : Kept s (issueHoist c m s) := by simp [issueHoist]
@[simp] theorem abortHoist_kept (h cause from_) : Kept s (abortHoist h cause from_ s) := by simp [abortHoist]
@[simp] theorem execHoistWaitTimeout_kept (c) : OutKept s (execHoistWaitTimeout c s) := by
  simp only [execHoistWaitTimeout]
  repeat' split
  all_goals simp
@[simp] theorem hostEnter_kept (h) : Kept s (hostEnter h s) := by
  unfold hostEnter
  split <;> simp
@[simp] theorem rearm_kept (h) : Kept s (rearm h s) := by simp [rearm]
@[simp] theorem hoistCfgWrite_kept (h v) : Kept s (hoistCfgWrite h v s) := by simp [hoistCfgWrite]
@[simp] theorem halUnknown_kept (m) : Kept s (halUnknown m s) := by simp [halUnknown]
@[simp] theorem receive_kept (kind) (act : HalMsg → State → State) (m) (hact : ∀ x s, Kept s (act x s)) :
    OutKept s (receive kind act m s) := by
  simp only [receive]
  repeat' split
  all_goals simp [hact]
@[simp] theorem atHoist_kept (act : Nat → Hoist → HalMsg → State → State) (m)
    (hact : ∀ x y z s, Kept s (act x y z s)) : Kept s (atHoist act m s) := by simp [atHoist, hact]
@[simp] theorem execArriveMessage_kept (m) : OutKept s (execArriveMessage m s) := by
  refine afterBoot_kept s _ (receive_kept s _ _ _ fun m s => atHoist_kept s _ _ fun h x m s => ?_)
  split
  · simp
  · dsimp only
    repeat' split
    all_goals simp
@[simp] theorem execReleaseMessage_kept (m) : OutKept s (execReleaseMessage m s) := by
  refine afterBoot_kept s _ (receive_kept s _ _ _ fun m s => atHoist_kept s _ _ fun h x m s => ?_)
  repeat' split
  all_goals simp
@[simp] theorem execAbortMessage_kept (m) : OutKept s (execAbortMessage m s) :=
  afterBoot_kept s _ (receive_kept s _ _ _ fun m s => atHoist_kept s _ _ fun h x m s => by simp)
@[simp] theorem execThermalAdvisory_kept (m) : OutKept s (execThermalAdvisory m s) :=
  afterBoot_kept s _ (receive_kept s _ _ _ fun m s => atHoist_kept s _ _ fun h x m s => by simp)
@[simp] theorem execHalyardSend_kept : OutKept s (execHalyardSend s) := by
  simp only [execHalyardSend]
  repeat' split
  all_goals simp
@[simp] theorem issueHoistRow_kept (mode sl) : OutKept s (issueHoistRow mode sl s) := by
  unfold issueHoistRow
  split <;> simp
@[simp] theorem execReservedOpcode_kept (sl) : OutKept s (execReservedOpcode sl s) := by
  simp only [execReservedOpcode]
  repeat' split
  all_goals simp

/-! ### External memory and its write-combining buffer -/

@[simp] theorem logDirUe_kept (b) : Kept s (logDirUe b s) := by simp [logDirUe]
@[simp] theorem drainLine_kept (l) : Kept s (drainLine l s) := by simp [drainLine]
@[simp] theorem combineWrite_kept (blame blk pl o bs) : Kept s (combineWrite blame blk pl o bs s) := by
  simp only [combineWrite]
  repeat' split
  all_goals simp
@[simp] theorem execWcbLineDrain_kept (i) : OutKept s (execWcbLineDrain i s) := by
  simp only [execWcbLineDrain]
  repeat' split
  all_goals simp
@[simp] theorem markRace_kept (b) : Kept s (markRace b s) := ⟨rfl, rfl⟩
@[simp] theorem acceptLine_kept (writer blame a bs) : Kept s (acceptLine writer blame a bs s) := by
  unfold acceptLine
  extract_lets b s₁ old got s₂
  have h₂ : Kept s s₂ := by simp [s₂, s₁]
  split
  · simp [h₂]
  · exact h₂
@[simp] theorem acceptFill_kept (a bs) : Kept s (acceptFill a bs s) := by simp [acceptFill]
@[simp] theorem endWriter_kept (writer) : Kept s (endWriter writer s) := ⟨rfl, rfl⟩
@[simp] theorem acceptRun_kept {f : Nat → List (Option W8) → State → State}
    (hf : ∀ a bs s, Kept s (f a bs s)) (n a bs) : Kept s (acceptRun f n a bs s) := by
  induction n generalizing s a bs with
  | zero => exact ⟨rfl, rfl⟩
  | succ n ih => cases bs <;> simp [acceptRun, ih, hf]
@[simp] theorem acceptBytes_kept (writer blame a bs) : Kept s (acceptBytes writer blame a bs s) := by simp [acceptBytes]

/-! ### The settings store (chapter 21) -/

@[simp] theorem startStore_kept : Kept s (startStore s) := by simp [startStore]
@[simp] theorem requestStore_kept : Kept s (requestStore s) := by simp [requestStore]
@[simp] theorem storeReq_kept : Kept s (storeReq s) := by simp [storeReq]
@[simp] theorem appendRec_kept (lo hi) : Kept s (appendRec lo hi s) := by simp [appendRec]
@[simp] theorem execStoreComplete_kept (ok) : OutKept s (execStoreComplete ok s) := by
  unfold execStoreComplete
  split <;> simp
@[simp] theorem nvsReload_kept : Kept s (nvsReload s) := by simp [nvsReload]
@[simp] theorem writeStaging_kept (w v) : Kept s (writeStaging w v s) := by simp [writeStaging]
@[simp] theorem fwLoad_kept : Kept s (fwLoad s) := by simp [fwLoad]
@[simp] theorem execFirmwareLoadDone_kept (img) : OutKept s (execFirmwareLoadDone img s) := by
  simp only [execFirmwareLoadDone]
  repeat' split
  all_goals simp

/-! ### The ports' responses -/

@[simp] theorem returnCredits_kept (p vc) : Kept s (returnCredits p vc s) := by simp [returnCredits]
@[simp] theorem giveBack_kept (h n) : Kept s (giveBack h n s) := by
  unfold giveBack
  split <;> simp
@[simp] theorem portUp_kept (p c) : Kept s (portUp p c s) := by simp [portUp]
@[simp] theorem respond_kept (p req kind status data) : Kept s (respond p req kind status data s) := by simp [respond]

/-! ### Transfers and arrivals -/

@[simp] theorem dropJob_kept (id) : Kept s (dropJob id s) := by simp [dropJob]
@[simp] theorem addJob_kept (f) : Kept s (addJob f s) := ⟨rfl, rfl⟩
@[simp] theorem jobFault_kept (code detail j) : Kept s (jobFault code detail j s) := by simp [jobFault]
@[simp] theorem traceDone_kept (j) : Kept s (traceDone j s) := by simp [traceDone]
@[simp] theorem raiseJob_kept (j) : Kept s (raiseJob j s) := by simp [raiseJob]
@[simp] theorem endCopy_kept (j) : Kept s (endCopy j s) := by
  unfold endCopy
  split <;> simp
@[simp] theorem endFetch_kept (j) : Kept s (endFetch j s) := by simp [endFetch]
@[simp] theorem modLnk_kept (f) : Kept s (modLnk f s) := ⟨rfl, rfl⟩
@[simp] theorem dropCmd_kept (c) : Kept s (dropCmd c s) := by simp [dropCmd]
@[simp] theorem closeCmd_kept (c) : Kept s (closeCmd c s) := by simp [closeCmd]
@[simp] theorem openCmd_kept (pkt) : Kept s (openCmd pkt s) := by simp [openCmd]
@[simp] theorem noteLost_kept (c) : Kept s (noteLost c s) := ⟨rfl, rfl⟩
@[simp] theorem noteCrcLost_kept (pkt) : Kept s (noteCrcLost pkt s) := by simp [noteCrcLost]
@[simp] theorem noteCame_kept (pkt) : Kept s (noteCame pkt s) := by simp [noteCame]
@[simp] theorem applyIncrs_kept (key n) : Kept s (applyIncrs key n s) := by
  induction n generalizing s with
  | zero => exact ⟨rfl, rfl⟩
  | succ n ih =>
    simp only [applyIncrs]
    repeat' split
    all_goals simp [ih]
@[simp] theorem endLinkIn_kept (j) : Kept s (endLinkIn j s) := by simp [endLinkIn]
@[simp] theorem countUnchecked_kept (j) : Kept s (countUnchecked j s) := by simp [countUnchecked]
@[simp] theorem settleJob_kept (id) : Kept s (settleJob id s) := by
  simp only [settleJob]
  repeat' split
  all_goals simp
@[simp] theorem writeLate_kept (job writer blame a bs) : Kept s (writeLate job writer blame a bs s) := ⟨rfl, rfl⟩
@[simp] theorem acceptUnit_kept (i g w) : Kept s (acceptUnit i g w s) := by simp [acceptUnit]
@[simp] theorem dropLate_kept (w) : Kept s (dropLate w s) := by simp [dropLate]
@[simp] theorem failLate_kept (f w) : Kept s (failLate f w s) := by
  simp only [failLate]
  split <;> simp
@[simp] theorem acceptUnits_kept (i gs) : Kept s (acceptUnits i gs s) := by
  induction gs generalizing s with
  | nil => exact ⟨rfl, rfl⟩
  | cons g gs ih =>
    unfold acceptUnits
    split <;> simp [ih]
@[simp] theorem flushOne_kept (w) : Kept s (flushOne w s) := by
  unfold flushOne
  split
  · simp
  · dsimp only
    split
    · simp
    · split <;> simp
@[simp] theorem flushLate_kept (job) : Kept s (flushLate job s) := foldl_kept _ flushOne_kept s
@[simp] theorem meetUnit_kept (p) : Kept s (meetUnit s p) := by
  unfold meetUnit
  split <;> simp
@[simp] theorem meetLate_kept (a n) : Kept s (meetLate a n s) := by simp [meetLate]
@[simp] theorem deliver_kept (job comb a bs hold) : Kept s (deliver job comb a bs hold s) := by simp [deliver]
@[simp] theorem discard_kept (a code detail) : Kept s (discard a code detail s) := by
  unfold discard
  split <;> simp
@[simp] theorem noteArrival_kept (a) : Kept s (noteArrival a s) := by simp [noteArrival]
@[simp] theorem plainWrite_kept (g bs) : Kept s (plainWrite g bs s) := by simp [plainWrite]
@[simp] theorem discardAt_kept (a f) : Kept s (discardAt a f s) := by simp [discardAt]
@[simp] theorem leavePath_kept (a) : Kept s (leavePath a s) := by simp [leavePath]
@[simp] theorem landCarried_kept (seat) : Kept s (landCarried seat s) := by simp [landCarried]
@[simp] theorem combineArr_kept {mid : State → State} (hmid : ∀ s, Kept s (mid s)) (j a) :
    Kept s (combineArr mid j a s).1 := by
  unfold combineArr
  extract_lets +onlyGivenNames b s₁
  split
  rename_i s₂ pend from_ h
  extract_lets +onlyGivenNames ue s₃
  clear_value ue
  have h₂ : Kept s s₂ := by
    have := takePending_kept s₁ s₁.ec a.gran (s₁.runs.length + 1) none []
    simp_all [s₁]
  have h₃ : Kept s s₃ := by
    unfold s₃
    split <;> simp [h₂]
  clear_value s₃
  split
  · simp [h₃]
  · extract_lets s₄ old comb new s₅ pin s₆ s₇
    have h₇ : Kept s s₇ := by
      simp [s₇, s₆, pin, s₅, hmid, s₄, h₃]
    clear_value s₇
    split <;> simp [h₇]
@[simp] theorem landArr_kept (mid : State → State) (a) (hmid : ∀ s, Kept s (mid s)) : Kept s (landArr mid a s).1 := by
  simp only [landArr]
  repeat' split
  all_goals simp [hmid]
@[simp] theorem landAt_kept (mid : State → State) (i) (a) (hmid : ∀ s, Kept s (mid s)) : Kept s (landAt mid i a s) := by
  simp only [landAt]
  repeat' split
  all_goals simp [hmid]
@[simp] theorem landRow_kept (combined i) : Kept s (landRow_ combined i s) := by
  unfold landRow_
  split <;> simp
@[simp] theorem hostWrite_kept (g bs) : Kept s (hostWrite g bs s) := by
  simp only [hostWrite]
  split <;> simp

/-! ### Inbound request packets -/

@[simp] theorem linkUnknown_kept (p pkt) : Kept s (linkUnknown p pkt s) := by simp [linkUnknown]
@[simp] theorem recv_kept (p pkt hold) (bad : State → State) (act : State → State) (hbad : ∀ s, Kept s (bad s))
    (hact : ∀ s, Kept s (act s)) : Kept s (recv p pkt hold bad act s) := by simp [recv, hbad, hact]
@[simp] theorem logCrc_kept (p pkt blame) : Kept s (logCrc p pkt blame s) := by simp [logCrc]
@[simp] theorem badReq_kept (p pkt) : Kept s (badReq p pkt s) := by simp [badReq]
@[simp] theorem badResp_kept (p pkt) : Kept s (badResp p pkt s) := by simp [badResp]
@[simp] theorem noteRefusal_kept (f) : Kept s (noteRefusal f s) := by simp [noteRefusal]
@[simp] theorem handleWrite_kept (p x) : Kept s (handleWrite p x s) := by
  simp only [handleWrite]
  split <;> simp
@[simp] theorem noteFault_kept (f) : Kept s (noteFault f s) := by simp [noteFault]
@[simp] theorem beginServe_kept (j) : Kept s (beginServe j s) := by
  simp only [beginServe]
  split <;> simp
@[simp] theorem startServes_kept (n) : Kept s (startServes n s) := by
  induction n generalizing s with
  | zero => exact ⟨rfl, rfl⟩
  | succ n ih =>
    unfold startServes
    split <;> simp [ih]
@[simp] theorem handleRead_kept (p x) : Kept s (handleRead p x s) := by simp [handleRead]
@[simp] theorem handleReq_kept (p x) : Kept s (handleReq p x s) := by simp [handleReq]
@[simp] theorem drainHeldF_kept (p n) : Kept s (drainHeldF p n s) := by
  induction n generalizing s with
  | zero => exact ⟨rfl, rfl⟩
  | succ n ih =>
    unfold drainHeldF
    split <;> simp [ih]
@[simp] theorem drainHeld_kept (p) : Kept s (drainHeld p s) := by simp [drainHeld]
@[simp] theorem acceptReq_kept (p pkt hold) : Kept s (acceptReq p pkt hold s) := by simp [acceptReq]

/-! ### The XMU at work (chapter 13) -/

@[simp] theorem readIdx_kept (j) : Kept s (readIdx j s) := by simp [readIdx]
@[simp] theorem reachIdx_kept (j) : Kept s (reachIdx j s) := by simp [reachIdx]
@[simp] theorem request_kept (j) : Kept s (request j s) := by
  simp only [request]
  repeat' split
  all_goals simp
@[simp] theorem pump_kept (n) : Kept s (pump n s) := by
  induction n generalizing s with
  | zero => exact ⟨rfl, rfl⟩
  | succ n ih =>
    unfold pump
    split <;> simp [ih]
@[simp] theorem flushFill_kept (n) : Kept s (flushFill n s) := by
  induction n generalizing s with
  | zero => exact ⟨rfl, rfl⟩
  | succ n ih =>
    unfold flushFill
    split <;> simp [ih]
@[simp] theorem pumpAll_kept : Kept s (pumpAll s) := by simp [pumpAll]
@[simp] theorem enterTraining_kept (phy c) : Kept s (enterTraining phy c s) := ⟨rfl, rfl⟩
@[simp] theorem leaveTraining_kept (c) : Kept s (leaveTraining c s) := by simp [leaveTraining]
@[simp] theorem noteRetry_kept (c blame) : Kept s (noteRetry c blame s) := by simp [noteRetry]
@[simp] theorem retireBlock_kept (b) : Kept s (retireBlock b s) := by simp [retireBlock]
@[simp] theorem mapOutChan_kept (c) : Kept s (mapOutChan c s) := by
  unfold mapOutChan
  extract_lets +onlyGivenNames lost s₁ s₂ js s₃ s₄
  have h₃ : Kept s₂ s₃ := by
    refine foldl_kept js (fun s j => ?_) s₂
    split <;> simp
  simp [s₄, h₃, s₂, s₁]
@[simp] theorem retrain_kept (c) : Kept s (retrain c s) := by simp [retrain]
@[simp] theorem mapOut_kept (c) : Kept s (mapOut c s) := by
  unfold mapOut
  split <;> simp
@[simp] theorem execTrainingAttemptEnd_kept (ch pass) : OutKept s (execTrainingAttemptEnd ch pass s) := by
  simp only [execTrainingAttemptEnd]
  repeat' split
  all_goals simp
@[simp] theorem execChPhyRdy_kept (ch rdy) : OutKept s (execChPhyRdy ch rdy s) := by
  simp only [execChPhyRdy]
  repeat' split
  all_goals simp
@[simp] theorem execChWerr_kept (w) : OutKept s (execChWerr w s) := by
  simp only [execChWerr]
  repeat' split
  all_goals simp
@[simp] theorem dropRd_kept (id i) : Kept s (dropRd id i s) := ⟨rfl, rfl⟩
@[simp] theorem checkBlock_kept (id blk) : Kept s (checkBlock id blk s) := by
  simp only [checkBlock]
  repeat' split
  all_goals simp
/-- One step of a structural recursion on a number, with the step `F` as it stands. -/
theorem brecOn_succ {β : Type} (F : ∀ n, Nat.below (motive := fun _ => β) n → β) (n : Nat) :
    ∃ b, (Nat.brecOn (n + 1) F : β) = F (n + 1) ⟨Nat.brecOn n F, b⟩ := ⟨_, rfl⟩
/-- One turn of `flushCopy`, over any rest `b.1` of the recursion. As in `noteRead_ind`, the kernel never compares the
function with its unfolded form. -/
theorem flushCopy_f_ind {P : State → Prop} (id n) (b : Nat.below (motive := fun _ => State → State) (n + 1)) (h : P s)
    (hfault : ∀ code d j, P (jobFault code d j s)) (hnext : ∀ f t, Kept s t → P (b.1 (modJob id f t))) :
    P (flushCopy._f id (n + 1) b s) := by
  generalize hf : flushCopy._f = f
  delta flushCopy._f at hf
  subst hf
  beta_reduce
  dsimp -zeta only
  split
  · exact h
  · split
    · exact h
    · split
      · exact h
      · extract_lets +onlyGivenNames a done
        split
        · exact hnext _ _ (by simp)
        · split
          · exact hfault ..
          · split
            · exact hnext _ _ (by simp)
            · exact h
@[simp] theorem flushCopy_kept (id n) : Kept s (flushCopy id n s) := by
  have e : flushCopy id = fun n => Nat.brecOn n (flushCopy._f id) := by
    delta flushCopy
    rfl
  rw [e]
  induction n generalizing s with
  | zero => exact ⟨rfl, rfl⟩
  | succ n ih =>
    obtain ⟨b, hb⟩ := brecOn_succ (flushCopy._f id) n
    beta_reduce
    rw [hb]
    refine flushCopy_f_ind (P := Kept s) s id n _ ⟨rfl, rfl⟩ (by simp) fun f t ht => ?_
    have := ih (modJob id f t)
    simp_all
@[simp] theorem noteCorrected_kept (c corrected) : Kept s (noteCorrected c corrected s) := by simp [noteCorrected]
@[simp] theorem noteDirErr_kept (job rd dirErr) : Kept s (noteDirErr job rd dirErr s) := by simp [noteDirErr]
@[simp] theorem comeUpon_kept (id k) : Kept s (comeUpon id s k) := by
  unfold comeUpon
  split <;> simp
@[simp] theorem meetWrites_kept (a n) : Kept s (meetWrites a n s) := by simp [meetWrites]
@[simp] theorem meetCopy_kept (a n j) : Kept s (meetCopy a n s j) := by simp [meetCopy]
@[simp] theorem meetExt_kept (a n) : Kept s (meetExt a n s) := by simp [meetExt]
@[simp] theorem takeRead_kept : Kept s (takeRead s).2 := by simp [takeRead]
@[simp] theorem execXmuReadReturn_kept (job i ret) : OutKept s (execXmuReadReturn job i ret s) := by
  simp only [execXmuReadReturn]
  repeat' split
  all_goals simp
@[simp] theorem remapTo_kept (c idx r errs) : Kept s (remapTo c idx r errs s) := by simp [remapTo]
@[simp] theorem rowFault_kept (c bank row errs) : Kept s (rowFault c bank row errs s).2 := by
  simp only [rowFault]
  repeat' split
  all_goals simp
@[simp] theorem execRemapCopyDone_kept : OutKept s (execRemapCopyDone s) := by
  simp only [execRemapCopyDone]
  repeat' split
  all_goals simp
@[simp] theorem remapReq_kept (v) : Kept s (remapReq v s) := by simp [remapReq]
@[simp] theorem dirHi_kept (v) : Kept s (dirHi v s) := by simp [dirHi]
@[simp] theorem devCmd_kept (v result) : Kept s (devCmd v result s) := by simp [devCmd]
@[simp] theorem sendAdvisories_kept : Kept s (sendAdvisories s) := by simp [sendAdvisories]
@[simp] theorem armAdvisory_kept : Kept s (armAdvisory s) := ⟨rfl, rfl⟩
@[simp] theorem drainAll_kept : Kept s (drainAll s) := by simp [drainAll]
@[simp] theorem enterCritical_kept (t) : Kept s (enterCritical t s) := by simp [enterCritical]
@[simp] theorem takeReading_kept (t) : Kept s (takeReading t s) := by simp [takeReading]
@[simp] theorem execXmuThermalSample_kept (t) : OutKept s (execXmuThermalSample t s) := by
  unfold execXmuThermalSample
  split <;> simp
@[simp] theorem execAdvisoryPeriodExpiry_kept : OutKept s (execAdvisoryPeriodExpiry s) := by
  simp only [execAdvisoryPeriodExpiry]
  repeat' split
  all_goals simp
@[simp] theorem execMtempStuck_kept : OutKept s (execMtempStuck s) := by
  unfold execMtempStuck
  split <;> simp

/-! ### XDMA, shared memory and the stash -/

@[simp] theorem beginJob_kept (q e f) : Kept s (beginJob q e f s) := by simp [beginJob]
@[simp] theorem startRw_kept (write e) : Kept s (startRw write e s) := by
  simp only [startRw]
  repeat' split
  all_goals simp
@[simp] theorem startGather_kept (e) : Kept s (startGather e s) := by
  simp only [startGather]
  repeat' split
  all_goals simp
/-- One turn of `acceptRow`, over any rest `b.1` of the recursion (as in `flushCopy_f_ind`). -/
theorem acceptRow_f_ind {P : State → Prop} (j i n)
    (b : Nat.below (motive := fun _ => State → State × Option (Nat × List Nat)) (n + 1)) (h : P (b.1 s).1)
    (hread : ∀ g, P (noteRead (reachRead ownOut [g] (b.1 s).1) g))
    (hrow : ∀ g a bs, P (acceptBytes j.id j.blame a bs (noteRead (reachRead ownOut [g] (b.1 s).1) g))) :
    P (acceptRow._f j i (n + 1) b s).1 := by
  generalize hf : acceptRow._f = f
  delta acceptRow._f at hf
  subst hf
  beta_reduce
  dsimp only
  split
  · simp_all
  · split
    · simp_all
    · split
      · simp_all
      · simp_all
@[simp] theorem acceptRow_kept (j i n) : Kept s (acceptRow j i n s).1 := by
  have e : acceptRow j i = fun n => Nat.brecOn n (acceptRow._f j i) := by
    delta acceptRow
    rfl
  rw [e]
  induction n with
  | zero => exact ⟨rfl, rfl⟩
  | succ n ih =>
    obtain ⟨b, hb⟩ := brecOn_succ (acceptRow._f j i) n
    beta_reduce
    rw [hb]
    exact acceptRow_f_ind (P := Kept s) _ j i n _ ih (by simpa using ih) (by simpa using ih)
@[simp] theorem acceptRows_kept (j n) : Kept s (acceptRows j n s).1 := by
  induction n with
  | zero => exact ⟨rfl, rfl⟩
  | succ n ih =>
    suffices h : Held s (acceptRows j (n + 1) s).1 from h.kept
    rw [acceptRows]
    generalize acceptRows j n s = p at ih ⊢
    split
    · exact Kept.held ih
    · split
      · exact Kept.held ih
      · exact Kept.held (by simpa using ih)
@[simp] theorem completeWrite_kept (j) : Kept s (completeWrite j s) := by
  have h := acceptRows_kept s j (writeRows j)
  unfold completeWrite
  split
  · simp
  · split
    · simp
    · split <;> simp_all
@[simp] theorem smRequest_kept (j) : Kept s (smRequest j s) := by
  apply Held.kept
  unfold smRequest
  extract_lets +onlyGivenNames cm addr t
  split
  · exact Kept.held (by simp)
  · extract_lets +onlyGivenNames s₁
    split
    · exact Kept.held (by simp [s₁])
    · exact Kept.held (by simp [s₁])
@[simp] theorem pumpSm_kept (n) : Kept s (pumpSm n s) := by
  induction n generalizing s with
  | zero => exact ⟨rfl, rfl⟩
  | succ n ih =>
    unfold pumpSm
    split <;> simp [ih]
@[simp] theorem hostRead_kept (addr use) : ∀ t ∈ hostRead addr use s, Kept s t := by simp [hostRead]
@[simp] theorem askHost_kept (id n) : Kept s (askHost id n s) := by
  induction n generalizing s with
  | zero => exact ⟨rfl, rfl⟩
  | succ n ih =>
    unfold askHost
    split
    · exact ⟨rfl, rfl⟩
    · split
      · exact ⟨rfl, rfl⟩
      · split
        · exact ⟨rfl, rfl⟩
        · next t ht => exact (hostRead_kept s _ _ t ht).trans (by simp [ih])
@[simp] theorem askAll_kept : Kept s (askAll s) := by simp [askAll]
@[simp] theorem afterLanding_kept : Kept s (afterLanding s) := by simp [afterLanding]
@[simp] theorem startSm_kept (write e) : Kept s (startSm write e s) := by
  simp only [startSm]
  repeat' split
  all_goals simp
@[simp] theorem execSmResponse_kept (tag wack err data) : OutKept s (execSmResponse tag wack err data s) := by
  simp only [execSmResponse]
  repeat' split
  all_goals simp
@[simp] theorem evictSlot_kept (c writer blame v) : Kept s (evictSlot c writer blame s v) := by simp [evictSlot]
@[simp] theorem placeSlot_kept (c writer blame layer n policy) : Kept s (placeSlot c writer blame layer n policy s) := by
  simp [placeSlot]
@[simp] theorem beginStash_kept (k e) : Kept s (beginStash k e s) := by simp [beginStash]
@[simp] theorem startClaim_kept (e) : Kept s (startClaim e s) := by
  simp only [startClaim]
  repeat' split
  all_goals simp
@[simp] theorem startFetch_kept (e) : Kept s (startFetch e s) := by
  simp only [startFetch]
  repeat' split
  all_goals simp
@[simp] theorem startRelease_kept (e) : Kept s (startRelease e s) := by
  simp only [startRelease]
  split <;> simp
@[simp] theorem startStash_kept (op e) : Kept s (startStash op e s) := by simp [startStash]
@[simp] theorem completeStash_kept (j) : Kept s (completeStash j s) := by simp [completeStash]
@[simp] theorem stashCfg_kept (c v) : Kept s (stashCfg c v s) := ⟨rfl, rfl⟩
@[simp] theorem startXdma_kept (e) : Kept s (startXdma e s) := by
  simp only [startXdma]
  repeat' split
  all_goals simp

/-! ### The LNK engine -/

@[simp] theorem startLnkNow_kept (e) : Kept s (startLnkNow e s) := by
  simp only [startLnkNow]
  repeat' split
  all_goals simp
@[simp] theorem startLnk_kept (e) : Kept s (startLnk e s) := by simp [startLnk]
@[simp] theorem forgetLnk_kept (id) : Kept s (forgetLnk id s) := by
  unfold forgetLnk
  split <;> simp
@[simp] theorem leavePort_kept (p id) : Kept s (leavePort p id s) := ⟨rfl, rfl⟩
@[simp] theorem lnkFault_kept (code detail j) : Kept s (lnkFault code detail j s) := by simp [lnkFault]
@[simp] theorem noteSent_kept (p j pkt n) : Kept s (noteSent p j pkt n s) := by simp [noteSent]
@[simp] theorem answered_kept (id) : Kept s (answered id s) := ⟨rfl, rfl⟩
@[simp] theorem refusalWords_kept (req st) : Kept s (refusalWords req st s).2 := by simp [refusalWords]
@[simp] theorem countRefusal_kept (p st) : Kept s (countRefusal p st s) := by simp [countRefusal]
@[simp] theorem rejected_kept (p st j) : Kept s (rejected p st j s) := by simp [rejected]
@[simp] theorem handleAck_kept (p r) : Kept s (handleAck p r s) := by
  simp only [handleAck]
  repeat' split
  all_goals simp
@[simp] theorem readAgain_kept (p o) : Kept s (readAgain p o s) := by
  unfold readAgain
  split <;> simp
@[simp] theorem handleData_kept (p r hold) : Kept s (handleData p r hold s) := by
  simp only [handleData]
  repeat' split
  all_goals simp
@[simp] theorem badData_kept (p r) : Kept s (badData p r s) := by
  unfold badData
  split <;> simp
@[simp] theorem giveUpResends_kept (j) : Kept s (giveUpResends j s) := by simp [giveUpResends]
@[simp] theorem completeLnkWrite_kept (j) : Kept s (completeLnkWrite j s) := by simp [completeLnkWrite]
@[simp] theorem countTimeout_kept (p) : Kept s (countTimeout p s) := ⟨rfl, rfl⟩
@[simp] theorem timeoutJob_kept (p o) : Kept s (timeoutJob p o s) := by
  unfold timeoutJob
  split <;> simp
@[simp] theorem portDown_kept (p) : Kept s (portDown p s) := ⟨rfl, rfl⟩
@[simp] theorem execCreditReturn_kept (p vc) : OutKept s (execCreditReturn p vc s) := by
  unfold execCreditReturn
  split <;> simp
@[simp] theorem setPortEn_kept (p en) : Kept s (setPortEn p en s) := by simp [setPortEn]

/-! ### Start and completion of the engines' commands -/

@[simp] theorem startMxe_kept (e) : Kept s (startMxe e s) := by
  unfold startMxe
  split <;> simp
@[simp] theorem startHead_kept (q) : Kept s (startHead q s) := by
  simp only [startHead]
  repeat' split
  all_goals simp
@[simp] theorem startDueHead_kept (q) : Kept s (startDueHead q s) := by
  unfold startDueHead
  split <;> simp
@[simp] theorem execEngineCommandStart_kept (q) : OutKept s (execEngineCommandStart q s) := by
  unfold execEngineCommandStart
  split <;> simp
@[simp] theorem applyEff_kept (r e) : Kept s (applyEff r e s).1 := by
  unfold applyEff
  split <;> simp
@[simp] theorem applyEffs_kept (r effs) : Kept s (applyEffs r effs s).1 := by
  refine foldl_kept_fst (fun p e => ?_) effs (s, fNone)
  exact applyEff_kept p.1 r e
@[simp] theorem noteLast_kept (r f) : Kept s (noteLast r f s) := by
  unfold noteLast
  split <;> simp
@[simp] theorem noteActive_kept (r) : Kept s (noteActive r s) := by simp [noteActive]
@[simp] theorem finishRun_kept (r) : Kept s (finishRun r s) := by simp [finishRun]
@[simp] theorem execCommandDone_kept : OutKept s (execCommandDone s) := by
  simp only [execCommandDone]
  repeat' split
  all_goals simp
@[simp] theorem inOwnEc_kept (late) (f : State → State) (hf : ∀ s, Kept s (f s)) : Kept s (inOwnEc late f s) := by
  simp [inOwnEc, hf]

/-! ### The escapement between timed sections -/

@[simp] theorem beginSection_kept (c e) : Kept s (beginSection c e s) := ⟨rfl, rfl⟩
@[simp] theorem releaseAt_kept (c e) : Kept s (releaseAt c e s) := by simp [releaseAt]
@[simp] theorem releasePoint_kept (c) : Kept s (releasePoint c s) := by
  simp only [releasePoint]
  split <;> simp
@[simp] theorem execUntimedPointRelease_kept (c) : OutKept s (execUntimedPointRelease c s) := by
  simp only [execUntimedPointRelease]
  repeat' split
  all_goals simp
@[simp] theorem execQuantumExpiry_kept : OutKept s (execQuantumExpiry s) := by
  unfold execQuantumExpiry
  split <;> simp
@[simp] theorem withdrawGated_kept (c) : Kept s (withdrawGated c s) := by simp [withdrawGated]
@[simp] theorem stepBack_kept (c) : Kept s (stepBack c s) := ⟨rfl, rfl⟩
@[simp] theorem withdrawPoint_kept (c) : Kept s (withdrawPoint c s) := by
  unfold withdrawPoint
  split <;> simp
@[simp] theorem requestQuiesce_kept (c) : Kept s (requestQuiesce c s) := by
  simp only [requestQuiesce]
  repeat' split
  all_goals simp
@[simp] theorem hostQuiesce_kept (c) : Kept s (hostQuiesce c s) := by simp [hostQuiesce]
@[simp] theorem resumeCtx_kept (c) : Kept s (resumeCtx c s) := by simp [resumeCtx]
@[simp] theorem clearCtx_kept (c) : Kept s (clearCtx c s) := by simp [clearCtx]
@[simp] theorem undispatch_kept (c) : Kept s (undispatch c s) := by simp [undispatch]
@[simp] theorem endLaunch_kept (c status tag) : Kept s (endLaunch c status tag s) := by
  simp only [endLaunch]
  split <;> simp
@[simp] theorem execContextStopped_kept (c) : OutKept s (execContextStopped c s) := by
  simp only [execContextStopped]
  split <;> simp
@[simp] theorem execContextQuiesced_kept (c) : OutKept s (execContextQuiesced c s) := by
  simp only [execContextQuiesced]
  repeat' split
  all_goals simp
@[simp] theorem setResident_kept (c on) : Kept s (setResident c on s) := by simp [setResident]
@[simp] theorem saveMxe_kept (x) : Kept s (saveMxe x s) := by
  unfold saveMxe
  split <;> simp
@[simp] theorem putMxe_kept (c k) : Kept s (putMxe c k s) := by simp [putMxe]
@[simp] theorem restoreMxe_kept (c) : Kept s (restoreMxe c s) := by
  have hread (gs : List Nat) : Kept s (noteReads (settleGrans gs s) gs) := by simp
  apply Held.kept
  unfold restoreMxe
  split
  · exact Kept.held (by simp)
  · extract_lets +onlyGivenNames s₁
    have h₁ : Held s s₁ := by
      unfold s₁
      split
      · exact (hread _).held
      · exact Kept.held ⟨rfl, rfl⟩
    clear_value s₁
    exact Kept.held (by simp [h₁.kept])
@[simp] theorem step3_kept (i) : Kept s (step3 i s).2 := by
  simp only [step3]
  repeat' split
  all_goals simp
@[simp] theorem step5_kept (i) : Kept s (step5 i s).2 := by
  simp only [step5]
  repeat' split
  all_goals simp
@[simp] theorem dispatch_kept (i) : Kept s (dispatch i s) := by simp [dispatch]
@[simp] theorem finishSwitch_kept (i s3) : Kept s (finishSwitch i s3 s) := by simp [finishSwitch]
@[simp] theorem endSpill_kept (c id) : Kept s (endSpill c id s) := ⟨rfl, rfl⟩
@[simp] theorem spillPart_kept (c) : Kept s (spillPart c s).2 := by
  simp only [spillPart]
  repeat' split
  all_goals simp
@[simp] theorem noteBlocks_kept (bs) : Kept s (noteBlocks bs s) := by simp [noteBlocks]
@[simp] theorem restoreFaults_kept (c ds) : Kept s (restoreFaults c ds s) := by
  cases ds <;> simp [restoreFaults]
@[simp] theorem restorePart_kept (c) : Kept s (restorePart c s).2 := by
  simp only [restorePart]
  repeat' split
  all_goals simp
@[simp] theorem spillAll_kept (cs) : Kept s (spillAll cs s).2 := by
  induction cs generalizing s with
  | nil => exact ⟨rfl, rfl⟩
  | cons c cs ih =>
    have h := spillPart_kept s c
    rw [spillAll]
    generalize spillPart c s = p at h ⊢
    split
    · simpa [ih] using h
    · exact h
@[simp] theorem endSwitch_kept : Kept s (endSwitch s) := ⟨rfl, rfl⟩
@[simp] theorem movePartitions_kept (i) : Kept s (movePartitions i s) := by
  have h := spillAll_kept s (inTheWay s i)
  apply Held.kept
  unfold movePartitions
  generalize spillAll (inTheWay s i) s = p at h ⊢
  split
  · exact h.held
  · exact Kept.held (by simpa using h)
  · rename_i s₁
    have h₁ := restorePart_kept s₁ i
    generalize restorePart i s₁ = q at h₁ ⊢
    split
    · exact Kept.held (by simp_all)
    · exact Kept.held (by simp_all)
    · exact Kept.held (by simp_all)
@[simp] theorem evict_kept (c) : Kept s (evict s c) := by
  have h := spillPart_kept s (ctxOf c)
  apply Held.kept
  unfold evict
  generalize spillPart (ctxOf c) s = p at h ⊢
  extract_lets +onlyGivenNames ended
  split
  · split
    · exact h.held
    · exact Kept.held (by simpa [ended] using h)
  · exact Kept.held ⟨rfl, rfl⟩
@[simp] theorem evictAll_kept : Kept s (evictAll s) := by simp [evictAll]
@[simp] theorem execPartitionSpill_kept : OutKept s (execPartitionSpill s) := by
  simp only [execPartitionSpill]
  repeat' split
  all_goals simp
@[simp] theorem partEvict_kept (mask) : Kept s (partEvict mask s) := by simp [partEvict]
@[simp] theorem giveWay_kept (d) : Kept s (giveWay d s) := by simp [giveWay]
@[simp] theorem continueSwitch_kept : Kept s (continueSwitch s) := by
  unfold continueSwitch
  split <;> simp
@[simp] theorem switchTo_kept (d i) : Kept s (switchTo_ d i s) := by simp [switchTo_]
@[simp] theorem execContextSwitch_kept : OutKept s (execContextSwitch s) := by
  simp only [execContextSwitch]
  repeat' split
  all_goals simp

/-! ### Health monitor, snapshot and fill (chapter 16) -/

@[simp] theorem adviseSnap_kept (reason) : Kept s (adviseSnap reason s) := by simp [adviseSnap]
@[simp] theorem retryAdvise_kept : Kept s (retryAdvise s) := by simp [retryAdvise]
@[simp] theorem adviseHeld_kept : Kept s (adviseHeld s) := by
  unfold adviseHeld
  split <;> simp
@[simp] theorem execSnapshotIntervalExpiry_kept : OutKept s (execSnapshotIntervalExpiry s) := by
  unfold execSnapshotIntervalExpiry
  split <;> simp
@[simp] theorem startSnapshot_kept (r mask full store) : Kept s (startSnapshot r mask full store s) := by
  simp [startSnapshot]
@[simp] theorem endSnapHost_kept (status bytes) : Kept s (endSnapHost status bytes s) := by
  unfold endSnapHost
  split <;> simp
@[simp] theorem resumePaused_kept : Kept s (resumePaused s) := by simp [resumePaused]
@[simp] theorem execSnapQuiesceTimeout_kept : OutKept s (execSnapQuiesceTimeout s) := by
  unfold execSnapQuiesceTimeout
  split <;> simp
@[simp] theorem freeze_kept : Kept s (freeze s) := by simp [freeze]
@[simp] theorem setFrozen_kept (on) : Kept s (setFrozen on s) := by simp [setFrozen]
@[simp] theorem closeSnap_kept (status bytes) : Kept s (closeSnap status bytes s) := by simp [closeSnap]
@[simp] theorem snapDone_kept : Kept s (snapDone s) := by simp [snapDone]
@[simp] theorem snapFail_kept : Kept s (snapFail s) := by simp [snapFail]
@[simp] theorem execSnapshotQuiesceEnd_kept : OutKept s (execSnapshotQuiesceEnd s) := by
  simp only [execSnapshotQuiesceEnd]
  repeat' split
  all_goals simp
@[simp] theorem noteSnapSent_kept (p pkt n) : Kept s (noteSnapSent p pkt n s) := by simp [noteSnapSent]
@[simp] theorem handleSnapAck_kept (p r) : Kept s (handleSnapAck p r s) := by
  unfold handleSnapAck
  split <;> simp
@[simp] theorem abortFill_kept (reason) : Kept s (abortFill reason s) := by simp [abortFill]
@[simp] theorem fillStart_kept : Kept s (fillStart s) := by simp [fillStart]
@[simp] theorem fillAbort_kept : Kept s (fillAbort s) := by simp [fillAbort]
@[simp] theorem execFillTimeout_kept : OutKept s (execFillTimeout s) := by
  unfold execFillTimeout
  split <;> simp
@[simp] theorem fillBlocks_kept (pre n o bs) : Kept s (fillBlocks pre n o bs s).1 := by
  induction n generalizing s o bs with
  | zero => exact ⟨rfl, rfl⟩
  | succ n ih =>
    cases bs with
    | nil => exact ⟨rfl, rfl⟩
    | cons b bs =>
      simp only [fillBlocks]
      split <;> simp [ih]
@[simp] theorem holdFill_kept (hold flits) : Kept s (holdFill hold flits s) := by
  unfold holdFill
  split <;> simp
@[simp] theorem fillOn_kept (hold flits toPre bs) : Kept s (fillOn hold flits toPre bs s) := by simp [fillOn]
@[simp] theorem fillBytes_kept (hold flits bs) : Kept s (fillBytes hold flits bs s) := by
  simp only [fillBytes]
  repeat' split
  all_goals simp
@[simp] theorem handleSnapData_kept (p r hold) : Kept s (handleSnapData p r hold s) := by simp [handleSnapData]
@[simp] theorem loadImages_kept (m cs bs) : Kept s (loadImages m cs bs s) := by
  induction cs generalizing s bs with
  | nil => exact ⟨rfl, rfl⟩
  | cons c cs ih => simp [loadImages, ih]
@[simp] theorem loadRanges_kept (rs bs) : Kept s (loadRanges rs bs s) := by
  induction rs generalizing s bs with
  | nil => exact ⟨rfl, rfl⟩
  | cons r rs ih => simp [loadRanges, ih]
@[simp] theorem loadFrozen_kept (f mask same) : Kept s (loadFrozen f mask same s) := by
  simp only [loadFrozen]
  repeat' split
  all_goals simp
@[simp] theorem fillFinish_kept : Kept s (fillFinish s) := by
  apply Held.kept
  unfold fillFinish
  extract_lets +onlyGivenNames s₁
  have h₁ : Kept s s₁ := by simp [s₁]
  clear_value s₁
  split
  · exact h₁.held
  · split
    · exact Kept.held (by simp [h₁])
    · split
      · exact Kept.held (by simp [h₁])
      · extract_lets +onlyGivenNames pre mask res same f s₂
        split
        · exact Kept.held (by simp [s₂, h₁])
        · exact Kept.held (by simp [s₂, h₁])
@[simp] theorem finishLate_kept : Kept s (finishLate s) := by simp [finishLate]

/-! ### The link ports at work -/

@[simp] theorem receivePkt_kept (p hold pkt) : Kept s (receivePkt p hold pkt s) := by
  unfold receivePkt
  split <;> simp
@[simp] theorem spendCredits_kept (p vc n) : Kept s (spendCredits p vc n s) := ⟨rfl, rfl⟩
@[simp] theorem fromFabric_kept (p vc pkt) : Kept s (fromFabric p vc pkt s) := by simp [fromFabric]
@[simp] theorem packetRow_kept (k port pkt) : OutKept s (packetRow k port pkt s) := by
  unfold packetRow
  split <;> simp
@[simp] theorem putOut_kept (p vc again pkt) : Kept s (putOut p vc again pkt s) := by simp [putOut]
@[simp] theorem sendOn_kept (p vc) : Kept s (sendOn p vc s) := by
  simp only [sendOn]
  repeat' split
  all_goals simp
@[simp] theorem execLinkPacketSend_kept (p vc) : OutKept s (execLinkPacketSend p vc s) := by
  simp only [execLinkPacketSend]
  repeat' split
  all_goals simp
@[simp] theorem execLinkTimeout_kept (p seq) : OutKept s (execLinkTimeout p seq s) := by
  unfold execLinkTimeout
  split <;> simp

/-! ### Rings and descriptors (chapter 15) -/

@[simp] theorem dropHeld_kept (r) : Kept s (dropHeld r s) := by simp [dropHeld]
@[simp] theorem haltRing_kept (r reason) : Kept s (haltRing r reason s) := by simp [haltRing]
@[simp] theorem sqDoorbell_kept (r v) : Kept s (sqDoorbell r v s) := by simp [sqDoorbell]
@[simp] theorem ringStop_kept (r) : Kept s (ringStop r s) := by simp [ringStop]
@[simp] theorem ringResume_kept (r) : Kept s (ringResume r s) := by simp [ringResume]
@[simp] theorem ringReset_kept (r) : Kept s (ringReset r s) := by simp [ringReset]
@[simp] theorem reportLost_kept : Kept s (reportLost s) := by simp [reportLost]
@[simp] theorem execRecordWrite_kept (ev) : OutKept s (execRecordWrite ev s) := by
  simp only [execRecordWrite]
  repeat' split
  all_goals simp
@[simp] theorem takeDesc_kept (r) : Kept s (takeDesc r s) := ⟨rfl, rfl⟩
@[simp] theorem noteBusy_kept (d) : Kept s (noteBusy d s) := ⟨rfl, rfl⟩
@[simp] theorem formatDesc_kept (d) : Kept s (formatDesc d s) := by simp [formatDesc]
@[simp] theorem passTurn_kept (r) : Kept s (passTurn r s) := ⟨rfl, rfl⟩
@[simp] theorem startRow_kept (kind r) (act : List Nat → HostRef → State → State)
    (hact : ∀ x y s, Kept s (act x y s)) : OutKept s (startRow kind r act s) := by
  simp only [startRow]
  repeat' split
  all_goals simp [hact]
@[simp] theorem startProgram_kept (c d) : Kept s (startProgram c d s) := ⟨rfl, rfl⟩
@[simp] theorem endWithFault_kept (c d code sev detail) : Kept s (endWithFault c d code sev detail s) := by
  simp [endWithFault]
@[simp] theorem failLaunch_kept (c d code detail) : Kept s (failLaunch c d code detail s) := by simp [failLaunch]
@[simp] theorem copyImage_kept (c h img) : Kept s (copyImage c h img s) := by simp [copyImage]
@[simp] theorem launchImage_kept (c d img) : Kept s (launchImage c d img s) := by
  simp only [launchImage]
  repeat' split
  all_goals simp
@[simp] theorem launchExt_kept (c d a n) : Kept s (launchExt c d a n s) := by
  simp only [launchExt]
  repeat' split
  all_goals simp
@[simp] theorem patchPar_kept (c p) : Kept s (patchPar c p s) := ⟨rfl, rfl⟩
@[simp] theorem execReplay_kept (r data) : OutKept s (execReplay r data s) := by
  refine startRow_kept s _ _ _ fun ws d s => ?_
  split
  · simp
  · split
    · simp
    · split <;> simp
@[simp] theorem copyOut_kept (id k) : Kept s (copyOut id s k) := by
  apply Held.kept
  unfold copyOut
  split
  · exact Kept.held ⟨rfl, rfl⟩
  · split
    · exact Kept.held ⟨rfl, rfl⟩
    · extract_lets +onlyGivenNames g s₁
      have h₁ : Kept s s₁ := by simp [s₁]
      clear_value s₁
      split
      · exact Kept.held (by simp [h₁])
      · extract_lets +onlyGivenNames bs s₂
        exact Kept.held (by simp [s₂, h₁])
@[simp] theorem startCopy_kept (r ws d) : Kept s (startCopy r ws d s) := by
  simp only [startCopy]
  repeat' split
  all_goals simp
@[simp] theorem copyBack_kept (id off err data) : Kept s (copyBack id off err data s) := by
  unfold copyBack
  split <;> simp
@[simp] theorem descBack_kept (r err data) : Kept s (descBack r err data s) := by simp [descBack]
@[simp] theorem execHostReadCompletion_kept (tag err data) : OutKept s (execHostReadCompletion tag err data s) := by
  simp only [execHostReadCompletion]
  repeat' split
  all_goals simp
@[simp] theorem startSignal_kept (ws d) : Kept s (startSignal ws d s) := by simp [startSignal]
@[simp] theorem startWait_kept (ws d) : Kept s (startWait ws d s) := by simp [startWait]
@[simp] theorem execAsyncCommandComplete_kept (job) : OutKept s (execAsyncCommandComplete job s) := by
  simp only [execAsyncCommandComplete]
  repeat' split
  all_goals simp

/-! ### Core memory as the host manages it -/

@[simp] theorem toTurn_kept : Kept s (toTurn s) := by simp [toTurn]
@[simp] theorem mapCommit_kept : Kept s (mapCommit s) := by simp [mapCommit]
@[simp] theorem setPart_kept (c base size) : Kept s (setPart c base size s) := by simp [setPart]
@[simp] theorem clearBank_kept (b) : Kept s (clearBank b s) := by simp [clearBank]
@[simp] theorem beginStage_kept (b p goal isol) : Kept s (beginStage b p goal isol s) := ⟨rfl, rfl⟩
@[simp] theorem followReq_kept (b) : Kept s (followReq b s) := by
  simp only [followReq]
  split <;> simp
@[simp] theorem pwrReq_kept (b req) : Kept s (pwrReq b req s) := by simp [pwrReq]
@[simp] theorem execBankDrainEnd_kept (b) : OutKept s (execBankDrainEnd b s) := by
  unfold execBankDrainEnd
  split <;> simp
@[simp] theorem execBankDrainTimeout_kept (b) : OutKept s (execBankDrainTimeout b s) := by
  unfold execBankDrainTimeout
  split <;> simp
@[simp] theorem execBankTransitionDone_kept (b) : OutKept s (execBankTransitionDone b s) := by
  simp only [execBankTransitionDone]
  repeat' split
  all_goals simp
@[simp] theorem upset_kept (u) : Kept s (upset s u) := by simp [upset]
@[simp] theorem scrubBank_kept (g b) : Kept s (scrubBank g s b) := by simp [scrubBank]
@[simp] theorem execScrubTick_kept (upsets) : OutKept s (execScrubTick upsets s) := by
  simp only [execScrubTick]
  split <;> simp
@[simp] theorem cleanGranule_kept (a) : Kept s (cleanGranule a s) := ⟨rfl, rfl⟩
@[simp] theorem execScrubWriteback_kept : OutKept s (execScrubWriteback s) := by
  simp only [execScrubWriteback]
  repeat' split
  all_goals simp
@[simp] theorem repair_kept (b row) : Kept s (repair b row s) := by simp [repair]
@[simp] theorem onSpare_kept (b row) : Kept s (onSpare b row s) := ⟨rfl, rfl⟩
@[simp] theorem execRepairSwitch_kept : OutKept s (execRepairSwitch s) := by
  unfold execRepairSwitch
  split <;> simp

/-! ### Clocks and power (chapter 17) -/

@[simp] theorem setFactor_kept (code) : Kept s (setFactor code s) := by simp [setFactor]
@[simp] theorem riseFactor_kept : Kept s (riseFactor s) := by simp [riseFactor]
@[simp] theorem execStretchFallStep_kept : OutKept s (execStretchFallStep s) := by
  unfold execStretchFallStep
  split <;> simp
@[simp] theorem assertDroop_kept (src) : Kept s (assertDroop src s) := by simp [assertDroop]
@[simp] theorem execDroopRelease_kept : OutKept s (execDroopRelease s) := by
  unfold execDroopRelease
  split <;> simp
@[simp] theorem execPersistentDroop_kept : OutKept s (execPersistentDroop s) := by
  unfold execPersistentDroop
  split <;> simp
@[simp] theorem execDroopRecovered_kept : OutKept s (execDroopRecovered s) := by
  unfold execDroopRecovered
  split <;> simp
@[simp] theorem limitStep_kept (avg) : Kept s (limitStep avg s) := by simp [limitStep]
@[simp] theorem execPowerEstimate_kept (us) : OutKept s (execPowerEstimate us s) := by
  refine afterBoot_kept s _ ?_
  split <;> simp
@[simp] theorem execClockGate_kept (unit) : OutKept s (execClockGate unit s) := by
  simp only [execClockGate]
  split <;> simp

/-! ### Outside events, error log and trace -/

@[simp] theorem settleEvt_kept (i) : Kept s (settleEvt s i) := by simp [settleEvt]
@[simp] theorem settleEvts_kept : Kept s (settleEvts s) := by simp [settleEvts]
@[simp] theorem execSvEvt_kept (i) : OutKept s (execSvEvt i s) := by
  simp only [execSvEvt]
  repeat' split
  all_goals simp
@[simp] theorem execEvtStuck_kept (i) : OutKept s (execEvtStuck i s) := by
  simp only [execEvtStuck]
  split <;> simp
@[simp] theorem evtUnmask_kept (i) : Kept s (evtUnmask i s) := by simp [evtUnmask]
@[simp] theorem errAck_kept : Kept s (errAck s) := by
  simp only [errAck]
  split <;> simp
@[simp] theorem errFlush_kept : Kept s (errFlush s) := ⟨rfl, rfl⟩
@[simp] theorem trcMark_kept (v) : Kept s (trcMark v s) := ⟨rfl, rfl⟩
@[simp] theorem sinkRecord_kept (ws) : ∀ t ∈ sinkRecord ws s, Kept s t := by
  simp only [sinkRecord]
  repeat' split
  all_goals simp
@[simp] theorem drainTrace_kept (n) : Kept s (drainTrace n s) := by
  induction n generalizing s with
  | zero => exact ⟨rfl, rfl⟩
  | succ n ih =>
    unfold drainTrace
    split
    · exact ⟨rfl, rfl⟩
    · split
      · exact ⟨rfl, rfl⟩
      · next t ht => exact (sinkRecord_kept s _ t ht).trans (by simp [ih])
@[simp] theorem idle_kept : Kept s (idle s) := by simp [idle]

/-! ### The Bezel meter (chapter 18) -/

@[simp] theorem sendTap_kept : Kept s (sendTap s) := by simp [sendTap]
@[simp] theorem execTapFrame_kept (ws) : OutKept s (execTapFrame ws s) := by
  simp only [execTapFrame]
  repeat' split
  all_goals simp
@[simp] theorem execTapGap_kept : OutKept s (execTapGap s) := by
  unfold execTapGap
  split <;> simp
@[simp] theorem takeSense_kept : Kept s (takeSense s) := by simp [takeSense]
@[simp] theorem signReport_kept (kind ticks) : Kept s (signReport kind ticks s) := by
  simp only [signReport]
  repeat' split
  all_goals simp
@[simp] theorem reportNow_kept (kind) : Kept s (reportNow kind s) := by simp [reportNow]
@[simp] theorem periodic_kept : Kept s (periodic s) := by simp [periodic]
@[simp] theorem execPeriodicReport_kept : OutKept s (execPeriodicReport s) := by
  unfold execPeriodicReport
  split <;> simp
@[simp] theorem answer_kept (bs) : Kept s (answer bs s) := by simp [answer]
@[simp] theorem execReport_kept : OutKept s (execReport s) := by
  simp only [execReport]
  repeat' split
  all_goals simp
@[simp] theorem execSetInterval_kept (n) : OutKept s (execSetInterval n s) := by
  unfold execSetInterval
  split <;> simp
@[simp] theorem execReadReport_kept : OutKept s (execReadReport s) := by
  unfold execReadReport
  split <;> simp
@[simp] theorem execReadCert_kept : OutKept s (execReadCert s) := by
  unfold execReadCert
  split <;> simp
@[simp] theorem execReadLog_kept : OutKept s (execReadLog s) := by
  unfold execReadLog
  split <;> simp
@[simp] theorem replaceBezel_kept : Kept s (replaceBezel s) := by simp [replaceBezel]
@[simp] theorem execBezelPowerUp_kept : OutKept s (execBezelPowerUp s) := by
  simp only [execBezelPowerUp]
  repeat' split
  all_goals simp
@[simp] theorem execBezelGlitch_kept : OutKept s (execBezelGlitch s) := by
  unfold execBezelGlitch
  split <;> simp
@[simp] theorem install_kept (kind detail f) : Kept s (install kind detail f s) := by simp [install]
@[simp] theorem execFwLoad_kept (pkg) : OutKept s (execFwLoad pkg s) := by
  simp only [execFwLoad]
  split <;> simp
@[simp] theorem execCalLoad_kept (pkg) : OutKept s (execCalLoad pkg s) := by
  unfold execCalLoad
  split <;> simp
@[simp] theorem execRetire_kept (pkg) : OutKept s (execRetire pkg s) := by
  unfold execRetire
  split <;> simp
@[simp] theorem execBezelLivePublish_kept : OutKept s (execBezelLivePublish s) := by
  unfold execBezelLivePublish
  split <;> simp

/-! ### Register writes, block by block -/

@[simp] theorem onBit_kept (v i) (act : State → State) (hact : ∀ s, Kept s (act s)) : Kept s (onBit v i act s) := by
  simp [onBit, hact]
@[simp] theorem mtempUnmask_kept : Kept s (mtempUnmask s) := by simp [mtempUnmask]
@[simp] theorem idWrite_kept (o v) : Kept s (idWrite o v s) := by
  simp only [idWrite]
  repeat' split
  all_goals simp
@[simp] theorem parked_kept (c) (act : State → State) (hact : ∀ s, Kept s (act s)) : Kept s (parked c act s) := by
  simp [parked, hact]
@[simp] theorem ctxCtl_kept (c v) : Kept s (ctxCtl c v s) := by simp [ctxCtl]
@[simp] theorem codeWrite_kept (c v) : Kept s (codeWrite c v s) := ⟨rfl, rfl⟩
@[simp] theorem affWrite_kept (c v) : Kept s (affWrite c v s) := ⟨rfl, rfl⟩
@[simp] theorem ctxWrite_kept (c r v) : Kept s (ctxWrite c r v s) := by
  unfold ctxWrite
  split <;> simp
@[simp] theorem parWrite_kept (c r v) : Kept s (parWrite c r v s) := by simp [parWrite]
@[simp] theorem escWrite_kept (o v) : Kept s (escWrite o v s) := by
  simp only [escWrite]
  repeat' split
  all_goals simp
@[simp] theorem stashWrite_kept (c r v) : Kept s (stashWrite c r v s) := by
  unfold stashWrite
  split <;> simp
@[simp] theorem mxeWrite_kept (o v) : Kept s (mxeWrite o v s) := by
  simp only [mxeWrite]
  repeat' split
  all_goals simp
@[simp] theorem vxeWrite_kept (o v) : Kept s (vxeWrite o v s) := by
  unfold vxeWrite
  split <;> simp
@[simp] theorem selftestWrite_kept (v) : Kept s (selftestWrite v s) := by simp [selftestWrite]
@[simp] theorem pinWrite_kept (o v) : Kept s (pinWrite o v s) := by
  simp only [pinWrite]
  repeat' split
  all_goals simp
@[simp] theorem modStaged_kept (f) : Kept s (modStaged f s) := ⟨rfl, rfl⟩
@[simp] theorem pwrReqWord_kept (i v) : Kept s (pwrReqWord i v s) := by simp [pwrReqWord]
@[simp] theorem repairWrite_kept (v) : Kept s (repairWrite v s) := by simp [repairWrite]
@[simp] theorem scrubWrite_kept (v) : Kept s (scrubWrite v s) := by simp [scrubWrite]
@[simp] theorem partWrite_kept (c v) : Kept s (partWrite c v s) := by simp [partWrite]
@[simp] theorem cmemWrite_kept (o v) : Kept s (cmemWrite o v s) := by
  simp only [cmemWrite]
  repeat' split
  all_goals simp
@[simp] theorem thermWrite_kept (v) : Kept s (thermWrite v s) := by simp [thermWrite]
@[simp] theorem chanWrite_kept (c v) : Kept s (chanWrite c v s) := by simp [chanWrite]
@[simp] theorem devWrite_kept (v) : Kept s (devWrite v s) := by simp [devWrite]
@[simp] theorem xmuWrite_kept (o v) : Kept s (xmuWrite o v s) := by
  simp only [xmuWrite]
  repeat' split
  all_goals simp
@[simp] theorem lnkCfg_kept (v) : Kept s (lnkCfg v s) := by simp [lnkCfg]
@[simp] theorem hoistWrite_kept (h r v) : Kept s (hoistWrite h r v s) := by
  unfold hoistWrite
  split <;> simp
@[simp] theorem synWrite_kept (o v) : Kept s (synWrite o v s) := by
  simp only [synWrite]
  repeat' split
  all_goals simp
@[simp] theorem iter_kept {f : Nat → State → State} (n : Nat) (hf : ∀ k s, Kept s (f k s)) : Kept s (iter f n s) := by
  induction n with
  | zero => exact ⟨rfl, rfl⟩
  | succ n ih => simpa [iter, hf] using ih
@[simp] theorem hstEnable_kept (on) : Kept s (hstEnable on s) := by
  unfold hstEnable
  extract_lets s₁
  split <;> simp [s₁]
@[simp] theorem sqSizeWrite_kept (r v) : Kept s (sqSizeWrite r v s) := by simp [sqSizeWrite]
@[simp] theorem sringWrite_kept (r o v) : Kept s (sringWrite r o v s) := by
  unfold sringWrite
  split <;> simp
@[simp] theorem hstWrite_kept (o v) : Kept s (hstWrite o v s) := by
  simp only [hstWrite]
  repeat' split
  all_goals simp
@[simp] theorem droopWrite_kept (v) : Kept s (droopWrite v s) := by simp [droopWrite]
@[simp] theorem tempWrite_kept (v) : Kept s (tempWrite v s) := by simp [tempWrite]
@[simp] theorem cgWrite_kept (v) : Kept s (cgWrite v s) := by simp [cgWrite]
@[simp] theorem pwrWrite_kept (o v) : Kept s (pwrWrite o v s) := by
  unfold pwrWrite
  split <;> simp
@[simp] theorem aliasWrite_kept (k r v) : Kept s (aliasWrite k r v s) := ⟨rfl, rfl⟩
@[simp] theorem trcCfg_kept (v) : Kept s (trcCfg v s) := by simp [trcCfg]
@[simp] theorem errWrite_kept (o v) : Kept s (errWrite o v s) := by
  unfold errWrite
  split <;> simp
@[simp] theorem nvsWrite_kept (o v) : Kept s (nvsWrite o v s) := by
  simp only [nvsWrite]
  repeat' split
  all_goals simp

/-! ### The host window -/

@[simp] theorem windowRange_kept (space off) : Kept s (windowRange space off s) := by simp [windowRange]
@[simp] theorem noteDark_kept : Kept s (noteDark s) := ⟨rfl, rfl⟩
@[simp] theorem writeCore_kept (off bs) : Kept s (writeCore off bs s) := by
  simp only [writeCore]
  repeat' split
  all_goals simp
@[simp] theorem answerRead_kept (err bs) : Kept s (answerRead err bs s) := by simp [answerRead]
@[simp] theorem readCore_kept (off) : Kept s (readCore off s) := by
  apply Held.kept
  unfold readCore
  split
  · exact Kept.held (by simp)
  · split
    · exact Kept.held (by simp)
    · extract_lets +onlyGivenNames b
      split
      · exact Kept.held (by simp)
      · exact Kept.held (by simp)
    · exact Kept.held (by simp)
@[simp] theorem readRegs_kept (off) : Kept s (readRegs off s) := by simp [readRegs]
@[simp] theorem execHostWindowRead_kept (space off) : OutKept s (execHostWindowRead space off s) := by
  unfold execHostWindowRead
  split <;> simp

/-! ### The phases of a core reset -/

@[simp] theorem fuseRow_kept (p) : Kept s (fuseRow s p) := by simp [fuseRow]
@[simp] theorem phaseTakes_kept (n) : Kept s (phaseTakes n s) := by simp [phaseTakes]
@[simp] theorem setPhase_kept (n) : Kept s (setPhase n s) := by simp [setPhase]
@[simp] theorem bistRow_kept (p) : Kept s (bistRow s p) := by simp [bistRow]
@[simp] theorem bistOther_kept : Kept s (bistOther s) := by simp [bistOther]
@[simp] theorem phase3_kept (r) : Kept s (phase3 r s) := by simp [phase3]
@[simp] theorem phase4_kept : Kept s (phase4 s) := by
  simp only [phase4]
  split <;> simp
@[simp] theorem boardPlace_kept (bs) : Kept s (boardPlace bs s) := by simp [boardPlace]
@[simp] theorem boardMem_kept (bs) : Kept s (boardMem bs s) := by simp [boardMem]
@[simp] theorem phase5_kept (r) : Kept s (phase5 r s) := by simp [phase5]
@[simp] theorem newBoard_kept : Kept s (newBoard s) := by simp [newBoard]

/-! ### What isolates a core -/

/-- The grade of `t` is that of `s`, and `t` is isolated when `s` is. -/
def Stays (s t : State) : Prop := t.grade = s.grade ∧ (s.isolated = true → t.isolated = true)
theorem Kept.stays {s t : State} (h : Kept s t) : Stays s t := ⟨h.1, fun hs => h.2.trans hs⟩
theorem Stays.refl (s : State) : Stays s s := ⟨rfl, id⟩
theorem Stays.trans {s t u : State} (h : Stays s t) (h' : Stays t u) : Stays s u :=
  ⟨h'.1.trans h.1, fun hs => h'.2 (h.2 hs)⟩
/-- Every state an outcome goes on with stands in `Stays` to `s`. -/
def OutStays (s : State) (o : Out) : Prop := ∀ t, o = .next t → Stays s t
@[simp] theorem outStays_next (s t : State) : OutStays s (.next t) ↔ Stays s t := by simp [OutStays]
theorem OutKept.stays {s : State} {o : Out} (h : OutKept s o) : OutStays s o := fun t ht => (h t ht).stays
theorem foldl_stays {α : Type} {f : State → α → State} (l : List α) (hf : ∀ s a, Stays s (f s a)) (s : State) :
    Stays s (l.foldl f s) :=
  List.foldlRecOn (motive := Stays s) l f (Stays.refl s) fun t h a _ => h.trans (hf t a)

@[simp] theorem goSilent_grade : (goSilent s).grade = s.grade := rfl
@[simp] theorem goSilent_isolated : (goSilent s).isolated = true := rfl
theorem isolate_stays : Stays s (isolate s) := ⟨by simp [isolate], by simp [isolate]⟩
theorem coreFault_stays (code sev detail) : Stays s (coreFault code sev detail s) :=
  ⟨by simp [coreFault], by simp [coreFault]⟩
theorem dieTrip_stays (t) : Stays s (dieTrip t s) :=
  (coreFault_stays s cDIE_TRIP 6 [t]).trans (Kept.stays (by simp [dieTrip]))

theorem onBit_stays (v i : Nat) (act : State → State) (hact : ∀ s, Stays s (act s)) : Stays s (onBit v i act s) := by
  unfold onBit
  split
  · exact hact s
  · exact Stays.refl s
theorem inOwnEc_stays (late : Nat) (f : State → State) (hf : ∀ s, Stays s (f s)) : Stays s (inOwnEc late f s) := by
  unfold inOwnEc
  extract_lets t
  have ht : Stays s t := Kept.stays (by simp [t])
  split
  · exact (ht.trans (hf t)).trans (Kept.stays (by simp))
  · exact Stays.refl s
theorem afterBoot_stays (o : Out) (ho : OutStays s o) : OutStays s (afterBoot s o) := by
  unfold afterBoot
  split
  · exact OutKept.stays (by simp)
  · exact ho

/-! ### Registers -/

/-- Of the words of the RSL block, 0x14 isolates the core (R368). -/
theorem rslWrite_stays (o v) : Stays s (rslWrite o v s) := by
  unfold rslWrite
  split
  case h_5 => exact onBit_stays s _ _ _ fun s => isolate_stays { s with isolateHost := true }
  all_goals refine Kept.stays ?_
  case h_11 => split <;> simp
  all_goals simp
theorem regPut_stays (off v) : Stays s (regPut off v s) := by
  unfold regPut
  extract_lets o
  split
  case h_11 => exact rslWrite_stays s o v
  all_goals refine Kept.stays ?_
  case h_1 => split <;> simp
  all_goals simp
theorem regWrite_stays (off v) : Stays s (regWrite off v s) := by
  unfold regWrite
  split
  · exact regPut_stays s off v
  · exact Stays.refl s
theorem writeWord_stays (off bs k) : Stays s (writeWord off bs s k) := by
  unfold writeWord
  extract_lets w
  split
  · exact regWrite_stays s _ _
  · exact Kept.stays (by split <;> simp)
theorem execHostWindowWrite_stays (space off data be) : OutStays s (execHostWindowWrite space off data be s) := by
  unfold execHostWindowWrite
  extract_lets off bs
  split
  · exact (outStays_next _ _).2 (inOwnEc_stays s _ _ fun s => foldl_stays _ (writeWord_stays · off bs) s)
  · exact OutKept.stays (by simp)
  · exact OutKept.stays (by simp)
theorem execRegisterWrite_stays (off v) : OutStays s (execRegisterWrite off v s) :=
  (outStays_next _ _).2 (inOwnEc_stays s _ _ fun s => regWrite_stays s off _)

/-! ### Isolation, core faults -/

theorem execIsolate_stays : OutStays s (execIsolate s) :=
  afterBoot_stays s _ ((outStays_next _ _).2 (isolate_stays { s with isolateHost := true }))
theorem execSvIsolate_stays : OutStays s (execSvIsolate s) :=
  (outStays_next _ _).2 (isolate_stays { s with isolateSeen := true })
theorem dieTripAt_stays (k) {t : State} (h : Kept s t) :
    Stays s (if t.pwr.trip ≤ k ∧ t.pwr.tripped = false then dieTrip k t else t) := by
  split
  · exact h.stays.trans (dieTrip_stays t k)
  · exact h.stays
theorem execDieTempSample_stays (ts) : OutStays s (execDieTempSample ts s) := by
  refine afterBoot_stays s _ ((outStays_next _ _).2 (dieTripAt_stays s _ ?_))
  repeat' split
  all_goals simp
theorem execPllUnlock_stays : OutStays s (execPllUnlock s) :=
  (outStays_next _ _).2 (coreFault_stays (modPwr (fun p => { p with pllLock := false, tripOut := true }) s) cPLL 6 [])
theorem execInternalParity_stays (unit) : OutStays s (execInternalParity unit s) :=
  (outStays_next _ _).2 (coreFault_stays s cPARITY 5 [unit])

/-! ### The startup -/

theorem preset_stays (off v) : Stays s (preset off v s) := by
  unfold preset
  split
  · exact Stays.refl s
  · exact regPut_stays s off v
/-- A register preset of the settings store may write the word that isolates. -/
theorem applyRecord_stays (r) : Stays s (applyRecord s r) := by
  unfold applyRecord
  split
  case h_5 => exact preset_stays s _ _
  all_goals refine Kept.stays ?_
  case h_1 =>
    dsimp only
    split <;> simp
  all_goals simp
theorem phase6_stays : Stays s (phase6 s) :=
  (Kept.stays (by simp : Kept s (newBoard (setPhase 6 s)))).trans (foldl_stays _ applyRecord_stays _)
theorem phase8_stays : Stays s (phase8 s) := by
  unfold phase8
  extract_lets s₁ s₂ stop s₃ s₄
  have h₂ : Kept s s₂ := by simp [s₂, s₁]
  have h₃ : Kept s s₃ := by simp [s₃, h₂]
  have h : Stays s s₄ := Kept.stays (by unfold s₄; split <;> simp [h₃])
  split
  · exact h.trans (isolate_stays s₄)
  · exact h
theorem bootStep_stays : Stays s (bootStep s) := by
  unfold bootStep
  extract_lets r
  split
  case h_4 => exact phase6_stays s
  case h_6 =>
    split
    · exact Stays.refl s
    · exact phase8_stays s
  all_goals exact Kept.stays (by simp)
theorem idleStep_stays : Stays s (idleStep s) := by
  unfold idleStep
  split
  · exact bootStep_stays s
  · exact Kept.stays (by simp)

theorem afterFuses_grade (r) : (afterFuses r s).grade = s.grade := by
  have h : (takeFree 1 (phaseTakes (phaseLongest 2) s)).2.grade = s.grade := by simp
  unfold afterFuses
  generalize takeFree 1 (phaseTakes (phaseLongest 2) s) = p at h ⊢
  exact (foldl_kept _ fuseRow_kept _).1.trans h
theorem execCoreReset_grade (r t) (h : execCoreReset r s = .next t) : t.grade = s.grade := by
  cases h
  rw [afterFuses_grade]
  split <;> simp

/-! ### One step -/

/-- The rows that may isolate the core come first, then the rows that are the issue of a command, by what issues them. Every
other row keeps both fields. -/
theorem exec_stays (i : Instr) (hi : ∀ r, i ≠ .coreReset r) : OutStays s (exec i s) := by
  cases i
  case coreReset r => exact absurd rfl (hi r)
  case hostWindowWrite => exact execHostWindowWrite_stays s _ _ _ _
  case registerWrite => exact execRegisterWrite_stays s _ _
  case isolate => exact execIsolate_stays s
  case svIsolate => exact execSvIsolate_stays s
  case dieTempSample => exact execDieTempSample_stays s _
  case pllUnlock => exact execPllUnlock_stays s
  case internalParity => exact execInternalParity_stays s _
  case escNop | escSet | escLdp | escAlu | escCmp | escPlog | escCmparm | escLoop | escEndloop | escEnd | mxeFill |
      mxeFillA | mxeSwap | mxeStream | ftqCvt | sctRead | txbLoad | pinRun | synSignal | synWait | xdmaRead |
      xdmaWrite | xdmaGather | xdmaSmread | xdmaSmwrite | stashClaim | stashFetch | stashRelease | lnkWrite |
      lnkRead =>
    exact (issueRow_kept s _ _ _ _ fun _ _ _ => by simp).stays
  case sctWriteCfg | sctWriteScale | sctClear | sctRoll =>
    exact (issueSct_kept s _ _).stays
  case vxeAdd | vxeSub | vxeMul | vxeFma | vxeMin | vxeMax | vxeAbs | vxeNeg | vxeCmpEq | vxeCmpNe | vxeCmpLt |
      vxeCmpLe | vxeSelect | vxeCvt | flagsStore | flagsClear | vxeExp | vxeExp2 | vxeLog | vxeLog2 | vxeRcp |
      vxeDiv | vxeSqrt | vxeRsqrt | vxeTanh | vxeSigmoid | vxeSilu | vxeGelu | vxeErf | vxeSin | vxeCos | vxePermute |
      vxeReverse | vxeRotate | vxeInterleave | vxeDeinterleave | vxePack | vxeUnpack | vxeSum | vxeRedMax |
      vxeRedMin | vxeAmax | vxeSumsq | vxeTileSum | vxeTileMax | vxeTileMin | vxeTileAmax | vxeTileSumsq | tstate |
      smxState | smxMerge | smxFinal | smxNorm =>
    exact (issueVxe_kept s _ _).stays
  case atomLoad | atomSwap | atomCas | atomAddI32 | atomAddF32 | atomMaxI32 | atomMinI32 | atomMaxU32 | atomMinU32 |
      atomMaxF32 | atomMinF32 | atomAnd | atomOr | atomXor | atomIncWrap =>
    exact (issueAtom_kept s _ _).stays
  case hoistArriveWait | hoistArrive | hoistWait =>
    exact (issueHoistRow_kept s _ _).stays
  case writePacket | readReq | ack | readData | snapData | snapAck =>
    exact (packetRow_kept s _ _ _).stays
  all_goals
    exact OutKept.stays (by simp [exec, execPlainArrival, execCombinedArrival, execSignalMessage,
      execLinkPortUp, execLinkPortDown, execXmuRowFault, execXmuRemapReq, execRetrain, execMapOut, execXmuDirHi,
      execXmuDevCmd, execLaunch, execCopy, execSignal, execWait, execSnapshot, execFence, execHstSqDb, execHstCqDb,
      execHstEqDb, execRingStop, execRingResume, execRingReset, execCtxQuiesce, execCtxStop, execCtxResume,
      execCtxClear, execPennantSet, execSynHoistCfgWrite, execHostArrive, execRearm, execStashCfgWrite,
      execCmemMapCommit, execCmemPartEvict, execCmemPwrReq, execCmemRepair, execPinFence, execPinFenceApply,
      execSctSrSeed, execHealthSample, execSnapshotFloorExpiry, execFillStart, execFillFinish, execFillAbort,
      execNvsStore, execNvsReload, execFirmwareLoad, execPmDroop, execEvtUnmask, execChMtemp, execErrAck,
      execErrFlush, execErrTrcMark, execTapFrameSend, execBezelSupplyLoss])

end Sys2Proof.Machine

section
open Sys2Proof Sys2Proof.Machine Host

/-- Settles O4: by cases on what the step is. As time passes and under every command but the core reset the two states stand
in `Stays`; the core reset, which the premise on the queue shuts out for the isolation, keeps the grade. -/
theorem isolationAndGradeLast : Obligations.IsolationAndGradeLast := by
  intro s t h
  cases hp : s.pending with
  | nil =>
    simp only [step, hp, Outcome.next.injEq] at h
    obtain ⟨hgrade, hisolated⟩ : Stays s t := h ▸ idleStep_stays s
    exact ⟨hgrade, fun _ => hisolated⟩
  | cons i rest =>
    simp only [step, hp] at h
    by_cases hi : ∃ r, i = .coreReset r
    · obtain ⟨r, rfl⟩ := hi
      exact ⟨execCoreReset_grade { s with pending := rest } r t h, fun hnot => absurd rfl (hnot r rest)⟩
    · obtain ⟨hgrade, hisolated⟩ := exec_stays { s with pending := rest } i (not_exists.1 hi) t h
      exact ⟨hgrade, fun _ => hisolated⟩

end

/-!
## Issue: the rows of engine commands, and what a predicate skips (R27, R209)
-/

namespace Sys2Proof.Machine

/-- What issues the command of an engine row: MXE.STREAM and PIN.RUN have an issue of their own (R79, R139). -/
def EngineRow.act (r : EngineRow) : Ctx → Cmd → State → State :=
  if r.op = 0x13 then issueStream else if r.op = 0x24 then issuePinRun else enqueue r.q

/-- The command of a row issues the slot, or the slot is another row's. -/
def EngineRow.Issues (r : EngineRow) : Prop := ∀ (sl : Slot) (s : State),
  exec (r.cmd sl) s = .next (doIssue false r.act sl s) ∨ exec (r.cmd sl) s = .fault .notThisRow ∧ ¬ r.has sl

/-- What issues a slot whose opcode is that of its row issues it, or faults. -/
theorem issueRow_cases (op : Nat) (act : Ctx → Cmd → State → State) (sl : Slot) (s : State) :
    issueRow op false act sl s = .next (doIssue false act sl s) ∨
      issueRow op false act sl s = .fault .notThisRow ∧ opcodeOf sl ≠ op := by
  unfold issueRow
  split
  · exact .inl rfl
  · exact .inr ⟨rfl, ‹_›⟩

theorem EngineRow.Issues.of_opcode {r : EngineRow} (h : ∀ sl s, exec (r.cmd sl) s = issueRow r.op false r.act sl s) :
    r.Issues := fun sl s => by
  rw [h]
  exact (issueRow_cases ..).imp_right fun ⟨hf, hop⟩ => ⟨hf, fun has => hop has.1⟩

theorem EngineRow.Issues.of_form {r : EngineRow}
    (h : ∀ sl s, exec (r.cmd sl) s = if r.form sl = true then issueRow r.op false r.act sl s else .fault .notThisRow) :
    r.Issues := fun sl s => by
  rw [h]
  split
  · exact (issueRow_cases ..).imp_right fun ⟨hf, hop⟩ => ⟨hf, fun has => hop has.1⟩
  · exact .inr ⟨rfl, fun has => ‹¬ _› has.2⟩

theorem vxeRow_issues {v : Nat} {cmd : Slot → Instr} (h : ∀ sl s, exec (cmd sl) s = issueVxe v sl s) :
    (vxeRow v cmd).Issues :=
  .of_form fun sl s => by simp only [vxeRow, h, issueVxe, decide_eq_true_eq]; rfl

theorem atomRow_issues {a : Nat} {cmd : Slot → Instr} (h : ∀ sl s, exec (cmd sl) s = issueAtom a sl s) :
    (atomRow a cmd).Issues :=
  .of_form fun sl s => by simp only [atomRow, h, issueAtom, decide_eq_true_eq]; rfl

theorem sctRow_issues {o : Nat} {cmd : Slot → Instr} (h : ∀ sl s, exec (cmd sl) s = issueSct o sl s) :
    (sctRow o cmd).Issues :=
  .of_form fun sl s => by simp only [sctRow, h, issueSct, decide_eq_true_eq]; rfl

theorem vxeRows_issue : ∀ r ∈ vxeRows, r.Issues := by
  unfold vxeRows
  repeat refine List.forall_mem_cons.2 ⟨vxeRow_issues fun _ _ => rfl, ?_⟩
  exact List.forall_mem_nil _

theorem pinRows_issue : ∀ r ∈ pinRows, r.Issues := by
  refine List.forall_mem_cons.2 ⟨.of_opcode fun _ _ => rfl, ?_⟩
  repeat refine List.forall_mem_cons.2 ⟨atomRow_issues fun _ _ => rfl, ?_⟩
  exact List.forall_mem_nil _

theorem xferRows_issue : ∀ r ∈ xferRows, r.Issues := by
  unfold xferRows
  repeat refine List.forall_mem_cons.2 ⟨.of_opcode fun _ _ => rfl, ?_⟩
  exact List.forall_mem_nil _

theorem mxeRows_issue : ∀ r ∈ mxeRows, r.Issues := by
  unfold mxeRows
  iterate 5 refine List.forall_mem_cons.2 ⟨.of_opcode fun _ _ => rfl, ?_⟩
  iterate 4 refine List.forall_mem_cons.2 ⟨sctRow_issues fun _ _ => rfl, ?_⟩
  iterate 2 refine List.forall_mem_cons.2 ⟨.of_opcode fun _ _ => rfl, ?_⟩
  exact List.forall_mem_nil _

theorem engineRows_issue : ∀ r ∈ engineRows, r.Issues := by
  simp only [engineRows, List.forall_mem_append]
  exact ⟨⟨⟨mxeRows_issue, vxeRows_issue⟩, pinRows_issue⟩, xferRows_issue⟩

/-- The command of an engine row issues a slot of the row. -/
theorem exec_engineRow {r : EngineRow} (hr : r ∈ engineRows) {sl : Slot} (has : r.has sl) (s : State) :
    exec (r.cmd sl) s = .next (doIssue false r.act sl s) :=
  (engineRows_issue r hr sl s).resolve_right fun h => h.2 has

/-- The issue of a slot whose command obeys its predicate: a command that issues it in some way, or faults. -/
def Obeys (i : Instr) (sl : Slot) : Prop := ∀ s, (∃ act, exec i s = .next (doIssue false act sl s)) ∨ ∃ f, exec i s = .fault f

theorem obeys_of_issueRow {i : Instr} {sl : Slot} {op : Nat} {act : Ctx → Cmd → State → State}
    (h : ∀ s, exec i s = issueRow op false act sl s) : Obeys i sl := fun s => by
  rw [h]
  exact (issueRow_cases op act sl s).imp (fun h => ⟨_, h⟩) fun h => ⟨_, h.1⟩

theorem obeys_of_issueHoistRow {i : Instr} {sl : Slot} {mode : Nat} (h : ∀ s, exec i s = issueHoistRow mode sl s) :
    Obeys i sl := fun s => by
  rw [h, issueHoistRow]
  split
  · exact (issueRow_cases ..).imp (fun h => ⟨_, h⟩) fun h => ⟨_, h.1⟩
  · exact .inr ⟨_, rfl⟩

theorem obeys_reservedOpcode (sl : Slot) : Obeys (.reservedOpcode sl) sl := fun s => by
  change (∃ act, execReservedOpcode sl s = _) ∨ ∃ f, execReservedOpcode sl s = _
  unfold execReservedOpcode
  split
  · exact .inl ⟨_, rfl⟩
  · split
    · exact .inl ⟨_, rfl⟩
    · exact .inr ⟨_, rfl⟩

theorem EngineRow.obeys {r : EngineRow} (hr : r ∈ engineRows) (sl : Slot) : Obeys (r.cmd sl) sl := fun s =>
  (engineRows_issue r hr sl s).imp (fun h => ⟨_, h⟩) fun h => ⟨_, h.1⟩

/-- The rows of SkippedCommandUsesItsGap obey their predicate. -/
theorem obeys_rows (sl : Slot) : ∀ i ∈ [Instr.escNop sl, .escSet sl, .escLdp sl, .escAlu sl, .escCmp sl, .escPlog sl,
    .escCmparm sl, .synSignal sl, .synWait sl, .hoistArriveWait sl, .hoistArrive sl, .hoistWait sl, .reservedOpcode sl] ++
    engineRows.map (fun r => r.cmd sl), Obeys i sl := by
  rw [List.forall_mem_append]
  refine ⟨?_, List.forall_mem_map.2 fun r hr => EngineRow.obeys hr sl⟩
  iterate 9 refine List.forall_mem_cons.2 ⟨obeys_of_issueRow fun _ => rfl, ?_⟩
  iterate 3 refine List.forall_mem_cons.2 ⟨obeys_of_issueHoistRow fun _ => rfl, ?_⟩
  exact List.forall_mem_singleton.2 (obeys_reservedOpcode sl)

/-- A due slot that its predicate holds back is skipped, whatever it would do (R27). -/
theorem doIssue_skip {s : State} {c : Ctx} {sl : Slot} (h : Due s c sl) (hp : ¬ Passes s c sl)
    (act : Ctx → Cmd → State → State) :
    doIssue false act sl s = skipped c (cmdOf s (ctx s c) sl) (atIssueState s c sl) := by
  rw [doIssue_due h, if_pos]
  simpa [Passes] using hp

/-- After an issue EC the next command is due a gap later (R26). -/
theorem dueEc_of_not_slipping (s : State) (x : CtxSt) (sl : Slot) (h : x.slipping = false) :
    dueEc s x sl = x.lastIssue + gapOf sl := by simp [dueEc, h]

end Sys2Proof.Machine

section
open Sys2Proof Sys2Proof.Machine Host

/-- Settles O6: the row issues its slot, whose predicate skips it; `frame_skipped` and `ctx_skipped` say what that leaves. -/
theorem skippedCommandUsesItsGap : Obligations.SkippedCommandUsesItsGap := by
  intro s c sl i hi hdue hp hfault
  obtain ⟨act, hexec⟩ := (obeys_rows sl i hi s).resolve_right fun ⟨f, hf⟩ => hfault f hf
  rw [doIssue_skip hdue hp act] at hexec
  refine ⟨_, hexec, frame_skipped, ctx_skipped s c sl, frame_skipped.queues, fun n => ?_⟩
  rw [dueEc_of_not_slipping _ _ _ (by rw [ctx_skipped]), dueEc_of_not_slipping _ (afterIssue s c sl) _ rfl, ctx_skipped]
  exact ⟨rfl, rfl⟩

end

/-!
## Issue: the entry of a command into its queue (R28, R31, R209)
-/

namespace Sys2Proof.Machine

/-! ### The context at an issue -/

theorem applyLate_frame (x : CtxSt) (w : LateReg) : applyLate x w = { x with areg := (applyLate x w).areg } := by
  unfold applyLate; split <;> rfl

theorem foldl_applyLate_frame (l : List LateReg) (x : CtxSt) :
    l.foldl applyLate x = { x with areg := (l.foldl applyLate x).areg } :=
  List.foldlRecOn (motive := fun y => y = { x with areg := y.areg }) l applyLate rfl fun y hy w _ => by
    rw [applyLate_frame, hy]

/-- What a context finds at its issue differs from what it was in the registers that engines have written, and in the
predicates of its comparators (R209, R210). -/
theorem atIssue_frame (e : Nat) (x : CtxSt) :
    atIssue e x = { x with areg := (atIssue e x).areg, late := (atIssue e x).late, pred := (atIssue e x).pred } := by
  unfold atIssue
  rw [updateCmps_eq, seeLate, foldl_applyLate_frame]

theorem issueCtx_stopping {s : State} {c : Ctx} {sl : Slot} (h : Due s c sl) : (issueCtx s c sl).stopping = false := by
  rw [issueCtx, atIssue_frame]; exact h.stillGoing.1

theorem issueCtx_running {s : State} {c : Ctx} {sl : Slot} (h : Due s c sl) : (issueCtx s c sl).cstate = .running := by
  rw [issueCtx, atIssue_frame]; exact h.stillGoing.2

/-! ### The state at an issue -/

/-- Of what an issue finds, only contexts, time, pennants, hoists and records may differ from before. -/
@[simp] theorem atIssueState_rest (s : State) (c : Ctx) (sl : Slot) :
    (atIssueState s c sl).grade = s.grade ∧ (atIssueState s c sl).slips = s.slips ∧
    (atIssueState s c sl).queues = s.queues ∧ (atIssueState s c sl).runs = s.runs ∧
    (atIssueState s c sl).mem = s.mem ∧ (atIssueState s c sl).pin = s.pin := by
  simp [atIssueState, issueState]

theorem queue_atIssueState (s : State) (c : Ctx) (sl : Slot) (q : QName) :
    queue (atIssueState s c sl) q = queue s q := queue_congr s (by simp) q

/-! ### The units that a command needs (R13, R223, R153) -/

theorem pinNeeds_congr {s t : State} (h : t.grade = s.grade) (op : Nat) (ws : List Nat) :
    pinNeeds t op ws = pinNeeds s op ws := by unfold pinNeeds bankBytes; rw [h]

theorem absentUnit_congr {s t : State} (h : t.grade = s.grade) (op : Nat) (ws : List Nat) :
    absentUnit t op ws = absentUnit s op ws := by unfold absentUnit; rw [pinNeeds_congr h, h]

theorem fencedPinion_congr {s t : State} (h : t.grade = s.grade) (hp : t.pin = s.pin) (op : Nat) (ws : List Nat) :
    fencedPinion t op ws = fencedPinion s op ws := by unfold fencedPinion; rw [pinNeeds_congr h, h, hp]

/-! ### Entering a queue -/

/-- The queue entry of a command that issues (R209). -/
def issuedEnt (c : Ctx) (m : Cmd) (s : State) : QEnt :=
  { ctx := c, tag := m.tag, pos := m.pos, words := m.words, rsv := m.rsv, areg := (ctx s c).areg
    off3 := wrap 32 (loopOff s (ctx s c) (affOf (slotAt s (ctx s c) m.pos)) 3), arrive := m.ec / 2 + 2 }

/-- The state in which a command stands in its queue. -/
def queued (q : QName) (c : Ctx) (m : Cmd) (s : State) : State :=
  setQueue (ungate q m.op m.words s) q (queue s q ++ [issuedEnt c m s])

section
variable {q : QName} {c : Ctx} {m : Cmd} {s : State}

/-- R223. -/
theorem enqueue_absent (ha : absentUnit s m.op m.words = true) :
    enqueue q c m s = streamFault c cABSENT m.tag [m.op, m.pos] s := if_pos ha

variable (ha : absentUnit s m.op m.words = false) (hf : fencedPinion s m.op m.words = none)
include ha hf

theorem enqueue_room (hq : (queue s q).length < queueDepth s.grade q) :
    enqueue q c m s = passed c m (queued q c m s) := by
  simp [enqueue, ha, hf, Nat.not_le.2 hq, issuedEnt, queued]

/-- R31: a command within a section finds its queue full. -/
theorem enqueue_full (hq : queueDepth s.grade q ≤ (queue s q).length) (hfresh : (ctx s c).fresh = false) :
    enqueue q c m s = faultCtx c cSCHED 4 m.tag [qIdx q, m.pos] s := by
  simp [enqueue, ha, hf, hq, hfresh]

/-- R31: the first command of a section finds its queue full, and slips. -/
theorem enqueue_slip (hq : queueDepth s.grade q ≤ (queue s q).length) (hfresh : (ctx s c).fresh = true)
    (hslip : (ctx s c).slipping = false) :
    enqueue q c m s = advise cSLIP { ctx := some c, tag := m.tag } [qIdx q, m.ec % 2 ^ 32]
      (modCtx { s with slips := (s.slips + 1) % 2 ^ 32 } c (fun x => { x with slipping := true })) := by
  simp [enqueue, ha, hf, hq, hfresh, hslip]

/-- R31: a command that has slipped waits on for room. -/
theorem enqueue_slipping (hq : queueDepth s.grade q ≤ (queue s q).length) (hfresh : (ctx s c).fresh = true)
    (hslip : (ctx s c).slipping = true) : enqueue q c m s = s := by
  simp [enqueue, ha, hf, hq, hfresh, hslip]

end

theorem ungate_frame (q : QName) (op : Nat) (ws : List Nat) (s : State) :
    ungate q op ws s = { s with pwr := (ungate q op ws s).pwr } := by unfold ungate; split <;> rfl

theorem runRow_queue : ∀ r ∈ engineRows, r.op = 0x24 → r.q = .pin := by decide

/-- The row of MXE.STREAM is that of its ungated form. -/
theorem streamRow_form : ∀ r ∈ engineRows, r.op = 0x13 → r.q = .mxe ∧ r.form = fun sl => !bit sl.w5.toNat 23 := by
  have hmxe : ∀ r ∈ mxeRows, r.op = 0x13 → r.q = .mxe ∧ r.form = fun sl => !bit sl.w5.toNat 23 := by
    simp [mxeRows, plainRow, sctRow]
  have hrest : ∀ r ∈ vxeRows ++ pinRows ++ xferRows, r.op ≠ 0x13 := by decide
  intro r hr hop
  simp only [engineRows, List.append_assoc, List.mem_append] at hr hrest
  exact hr.elim (fun h => hmxe r h hop) fun h => absurd hop (hrest r h)

/-- The command of an engine row enters its queue, a PIN.RUN with its constants behind its words (R139); the units it needs are
those of its words. -/
theorem act_engineRow {r : EngineRow} (hr : r ∈ engineRows) {sl : Slot} (has : r.has sl) (s u : State) (x : CtxSt) (c : Ctx) :
    ∃ ws, (cmdOf s x sl).words <+: ws ∧ r.act c (cmdOf s x sl) u = enqueue r.q c { cmdOf s x sl with words := ws } u ∧
      (∀ t, absentUnit t r.op ws = absentUnit t r.op (cmdOf s x sl).words) ∧
      ∀ t, fencedPinion t r.op ws = fencedPinion t r.op (cmdOf s x sl).words := by
  obtain ⟨hop, hform⟩ := has
  unfold EngineRow.act
  split
  next h13 =>
    obtain ⟨hq, hf⟩ := streamRow_form r hr h13
    rw [h13] at hop
    have hgate : bit ((cmdOf s x sl).w 5) 23 = false := by
      have hw : (cmdOf s x sl).w 5 = sl.w5.toNat := by simp only [Cmd.w, cmdOf, hop]; rfl
      rw [hw]; simpa [hf] using hform
    exact ⟨_, List.prefix_rfl, by rw [issueStream, hgate, hq]; rfl, fun _ => rfl, fun _ => rfl⟩
  next =>
    split
    next h24 =>
      rw [h24] at hop ⊢
      have hw : (cmdOf s x sl).words = slotWords sl := by simp only [cmdOf, hop]; rfl
      have hpad : padTo 0 8 (slotWords sl) = slotWords sl := rfl
      refine ⟨slotWords sl ++ constsOf (ctx u c) (slotWords sl), hw ▸ List.prefix_append .., ?_, ?_, ?_⟩
      · rw [runRow_queue r hr h24, issuePinRun, hw, hpad]
      · intro t; rw [hw]; rfl
      · intro t; rw [hw]; rfl
    next => exact ⟨_, List.prefix_rfl, rfl, fun _ => rfl, fun _ => rfl⟩

/-- A change of context c, of the trace, of queue q and of the clock gates alone is the frame of a command that enters q. -/
theorem queueFrame_of {s : State} {c : Ctx} {sl : Slot} {q : QName} {t : State}
    (hrest : t = { issueState s c sl with ctxs := t.ctxs, err := t.err, queues := t.queues, pwr := t.pwr })
    (hothers : ∀ d : Ctx, d ≠ c → ctx t d = ctx (issueState s c sl) d) (hqueues : ∀ p, p ≠ q → queue t p = queue s p)
    (hlog : SameLog (issueState s c sl) t) : QueueFrame s c sl q t where
  rest := hrest
  time := by rw [hrest]; exact issueState_ec ..
  others := hothers
  queues := hqueues
  bytes a := readByte_congr s (by rw [hrest]; simp [issueState]) a
  log := hlog

@[simp] theorem queue_modCtx (s : State) (c : Ctx) (f : CtxSt → CtxSt) (q : QName) : queue (modCtx s c f) q = queue s q := rfl

@[simp] theorem queue_trace (s : State) (r : TraceRec) (q : QName) : queue (trace r s) q = queue s q := rfl

@[simp] theorem queue_passed (s : State) (c : Ctx) (m : Cmd) (q : QName) : queue (passed c m s) q = queue s q := by
  simp [passed]

/-- A command that issues out of `v`, which differs from the state at its issue in queue q and in clock gates alone: the
frame. -/
theorem frame_enqueued {s v : State} {c : Ctx} {sl : Slot} {q : QName} (m : Cmd)
    (hv : v = { atIssueState s c sl with queues := v.queues, pwr := v.pwr }) (hq : ∀ p, p ≠ q → queue v p = queue s p) :
    QueueFrame s c sl q (passed c m v) := by
  apply queueFrame_of
  · clear hq
    generalize v.queues = l, v.pwr = p at hv
    subst hv
    unfold passed atIssueState
    generalize issueState s c sl = u
    dsimp only [modCtx, trace]
  · intro d hd
    have hctxs : v.ctxs = (atIssueState s c sl).ctxs := by rw [hv]
    rw [passed, ctx_trace, ctx_modCtx_ne _ _ _ _ hd, ctx_congr _ hctxs, ctx_atIssue_ne _ _ _ hd]
  · exact fun p hp => (queue_passed ..).trans (hq p hp)
  · have herr : v.err = (issueState s c sl).err := by rw [hv]; rfl
    simp only [SameLog, passed, ← herr]
    exact traceErr_log _ v.err

/-- A change of its context after it keeps the frame of a command that enters a queue. -/
theorem QueueFrame.modCtx {s t : State} {c : Ctx} {sl : Slot} {q : QName} (h : QueueFrame s c sl q t) (f : CtxSt → CtxSt) :
    QueueFrame s c sl q (modCtx t c f) where
  rest := congrArg (fun u : State => { u with ctxs := (Machine.modCtx t c f).ctxs }) h.rest
  time := h.time
  others d hd := (ctx_modCtx_ne _ _ _ _ hd).trans (h.others d hd)
  queues := h.queues
  bytes := h.bytes
  log := h.log

theorem queued_frame (q : QName) (c : Ctx) (m : Cmd) (s : State) :
    queued q c m s = { s with queues := (queued q c m s).queues, pwr := (queued q c m s).pwr } := by
  unfold queued; rw [ungate_frame]; rfl

@[simp] theorem queue_queued_same (q : QName) (c : Ctx) (m : Cmd) (s : State) :
    queue (queued q c m s) q = queue s q ++ [issuedEnt c m s] := queue_setQueue_same ..

theorem queue_queued_ne {p q : QName} (c : Ctx) (m : Cmd) (s : State) (h : p ≠ q) :
    queue (queued q c m s) p = queue s p :=
  (queue_setQueue_ne _ _ _ _ h).trans (queue_congr s (by rw [ungate_frame]) p)

theorem frame_queued {s : State} {c : Ctx} {sl : Slot} {q : QName} (m : Cmd) :
    QueueFrame s c sl q (passed c m (queued q c m (atIssueState s c sl))) :=
  frame_enqueued m (queued_frame ..) fun _ hp => (queue_queued_ne _ _ _ hp).trans (queue_atIssueState ..)

theorem ctx_queued (s : State) (c : Ctx) (sl : Slot) (q : QName) (ws : List Nat) :
    ctx (passed c { cmdOf s (ctx s c) sl with words := ws }
      (queued q c { cmdOf s (ctx s c) sl with words := ws } (atIssueState s c sl))) c = afterIssue s c sl := by
  generalize hm : { cmdOf s (ctx s c) sl with words := ws } = m
  have hctxs : (queued q c m (atIssueState s c sl)).ctxs = (atIssueState s c sl).ctxs := by rw [queued_frame]
  rw [passed, ctx_trace, ctx_modCtx_same, ctx_congr _ hctxs, ctx_atIssue, ← hm]
  rfl

/-! ### Untimed points (R25, R199) -/

theorem atPoint_go {s : State} {c : Ctx} (h : (ctx s c).quiesceReq = false) (act : Ctx → Cmd → State → State) (m : Cmd) :
    atPoint act c m s = act c m s := by rw [atPoint, h]; rfl

/-- A pending quiesce request takes effect at the untimed point. -/
theorem atPoint_pause {s : State} {c : Ctx} (h : (ctx s c).quiesceReq = true) (act : Ctx → Cmd → State → State) (m : Cmd) :
    atPoint act c m s = modCtx s c (fun x => { x with point := .pausing, quiesceReq := false }) := if_pos h

theorem ctx_setPoint_atIssue (s : State) (c : Ctx) (sl : Slot) (f : CtxSt → CtxSt) :
    ctx (modCtx (atIssueState s c sl) c f) c = f (issueCtx s c sl) := by rw [ctx_modCtx_same, ctx_atIssue]

/-- What a gated STREAM does at its issue once no quiesce request holds it: it enters the queue, and its context waits at the
gate (R79). -/
theorem issueStream_gated {s u : State} {c : Ctx} {m : Cmd} (hgate : bit (m.w 5) 23 = true)
    (hgo : (ctx s c).quiesceReq = false) (hu : enqueue .mxe c m s = u) (hpos : (ctx u c).pos = m.pos + 1)
    (hlen : (queue u .mxe).length = (queue s .mxe).length + 1) :
    issueStream c m s = modCtx u c (fun x => { x with point := .gated }) := by
  rw [issueStream, if_pos hgate, atPoint_go hgo]
  dsimp only
  rw [hu, if_pos ⟨hpos, hlen⟩]

end Sys2Proof.Machine

section
open Sys2Proof Sys2Proof.Machine Host

/-- Settles O10: the command stands at the end of its queue (`enqueue_room`); the issue of a gated STREAM changes the point of its
context besides, or, under a quiesce request, nothing but the point. -/
theorem engineCommandEntersItsQueue : Obligations.EngineCommandEntersItsQueue := by
  constructor
  · intro s c sl r hr has hdue hp habs hfen hroom
    obtain ⟨ws, hpre, hact, habs', hfen'⟩ := act_engineRow hr has s (atIssueState s c sl) (ctx s c) c
    have hop : (cmdOf s (ctx s c) sl).op = r.op := has.1
    rw [exec_engineRow hr has, doIssue_pass hdue hp, hact, enqueue_room
      (by rw [hop, absentUnit_congr (s := s) (by simp), habs', habs])
      (by rw [hop, fencedPinion_congr (s := s) (by simp) (by simp), hfen', hfen])
      (by rw [queue_atIssueState]; simpa using hroom)]
    refine ⟨_, issuedEnt c { cmdOf s (ctx s c) sl with words := ws } (atIssueState s c sl), rfl, frame_queued _, ?_,
      ctx_queued .., rfl, rfl, rfl, rfl, ?_, rfl, hpre⟩
    · rw [queue_passed, queue_queued_same, queue_atIssueState]
    · rw [issuedEnt, ctx_atIssue]; rfl
  · intro s c sl hop hgate hdue hp habs hroom
    have hw : (cmdOf s (ctx s c) sl).w 5 = sl.w5.toNat := by simp only [Cmd.w, cmdOf, hop]; rfl
    have hexec : exec (.mxeStream sl) s = .next (issueStream c (cmdOf s (ctx s c) sl) (atIssueState s c sl)) :=
      (if_pos hop).trans (congrArg _ (doIssue_pass hdue hp false _))
    rw [hexec]
    cases hquiesce : (issueCtx s c sl).quiesceReq
    · have henter := enqueue_room (q := .mxe) (c := c) (m := cmdOf s (ctx s c) sl) (s := atIssueState s c sl)
        (by rw [absentUnit_congr (s := s) (by simp), ← habs, ← hop]; rfl)
        (by rw [show (cmdOf s (ctx s c) sl).op = 0x13 from hop]; rfl)
        (by rw [queue_atIssueState]; exact hroom)
      have hctx := ctx_queued s c sl .mxe (cmdOf s (ctx s c) sl).words
      rw [issueStream_gated (hw ▸ hgate) (by rw [ctx_atIssue, hquiesce]) henter (by rw [hctx]; rfl) (by simp)]
      exact ⟨_, rfl, fun _ => ⟨(frame_queued _).modCtx _, by simp [queue_atIssueState], by rw [ctx_modCtx_same, hctx]⟩, nofun⟩
    · rw [issueStream, if_pos (hw ▸ hgate), atPoint_pause (by rw [ctx_atIssue, hquiesce])]
      exact ⟨_, rfl, nofun, fun _ => ⟨frame_point _, (queue_modCtx ..).trans (queue_atIssueState ..), ctx_setPoint_atIssue ..⟩⟩

end

/-!
## Issue: the commands that are turned away (R31, R208, R223)
-/

namespace Sys2Proof.Machine

/-! ### Commands that are turned away (R31, R208, R223) -/

theorem queue_faultCtx (s : State) (c : Ctx) (code sev tag : Nat) (d : List Nat) (q : QName) :
    queue (faultCtx c code sev tag d s) q = queue s q := queue_congr s (by simp) q

/-- A fault at the issue of a due slot stops its context with its code and tag. -/
theorem ctx_faultCtx_issue {s : State} {c : Ctx} {sl : Slot} (h : Due s c sl) (code sev tag : Nat) (d : List Nat) :
    ctx (faultCtx c code sev tag d (atIssueState s c sl)) c =
      { issueCtx s c sl with
        stopping := true, faultCode := code, faultTag := tag, faultSev := sev
        imageValid := (issueCtx s c sl).imageValid && decide (sev ≠ 4) } := by
  rw [ctx_faultCtx _ _ _ _ _ _ (by rw [ctx_atIssue, issueCtx_stopping h])
    (by rw [ctx_atIssue, issueCtx_running h]; exact CState.noConfusion), ctx_atIssue]

theorem ctx_slips (s : State) (n : Nat) (c : Ctx) : ctx { s with slips := n } c = ctx s c := rfl

theorem queue_slips (s : State) (n : Nat) (q : QName) : queue { s with slips := n } q = queue s q := rfl

theorem queue_advise (s : State) (code : Nat) (cause : Cause) (d : List Nat) (q : QName) :
    queue (advise code cause d s) q = queue s q := queue_congr s (by simp) q

theorem ctx_advise (s : State) (code : Nat) (cause : Cause) (d : List Nat) (c : Ctx) :
    ctx (advise code cause d s) c = ctx s c := ctx_logErr s code 1 cause d c

end Sys2Proof.Machine

section
open Sys2Proof Sys2Proof.Machine Host

/-- Settles O11: a reserved opcode, an absent unit and a full queue fault at the issue (`ctx_faultCtx_issue`); the first command
of a section that finds its queue full slips instead (`enqueue_slip`). -/
theorem commandsAreTurnedAway : Obligations.CommandsAreTurnedAway := by
  constructor
  · intro s c sl hdue hp hop
    have hexec : exec (.reservedOpcode sl) s = .next (issueReserved c (cmdOf s (ctx s c) sl) (atIssueState s c sl)) :=
      (if_pos hop).trans (congrArg _ (doIssue_pass hdue hp false _))
    have hctx := ctx_faultCtx_issue hdue cFORMAT 3 (issuedTag s (ctx s c) sl) [opcodeOf sl, (ctx s c).pos]
    refine ⟨_, hexec, congrArg CtxSt.stopping hctx, congrArg CtxSt.faultCode hctx,
      congrArg CtxSt.faultTag hctx, fun q => (queue_faultCtx ..).trans (queue_atIssueState ..),
      fun d hd => (ctx_faultCtx_ne _ _ _ _ _ _ _ hd).trans (ctx_atIssue_ne _ _ _ hd), fun a => readByte_congr s ?_ a, ?_⟩
    · simp [issueReserved, formatFault, streamFault]
    · simp [issueReserved, formatFault, streamFault]
  · intro s c sl r hr has hdue hp
    obtain ⟨ws, -, hact, habs', hfen'⟩ := act_engineRow hr has s (atIssueState s c sl) (ctx s c) c
    have hop : (cmdOf s (ctx s c) sl).op = r.op := has.1
    rw [exec_engineRow hr has, doIssue_pass hdue hp, hact]
    generalize hm : { cmdOf s (ctx s c) sl with words := ws } = m
    have hmabs : absentUnit (atIssueState s c sl) m.op m.words = absentUnit s r.op (cmdOf s (ctx s c) sl).words := by
      rw [absentUnit_congr (s := s) (by simp), ← hm, ← habs']; exact congrArg (absentUnit s · ws) hop
    have hmfen : fencedPinion (atIssueState s c sl) m.op m.words = fencedPinion s r.op (cmdOf s (ctx s c) sl).words := by
      rw [fencedPinion_congr (s := s) (by simp) (by simp), ← hm, ← hfen']; exact congrArg (fencedPinion s · ws) hop
    refine ⟨_, rfl, fun habs => ?_, fun habs hfen hfull => ?_⟩
    · rw [enqueue_absent (hmabs.trans habs), streamFault, ctx_faultCtx_issue hdue]
      exact ⟨fun q => (queue_faultCtx ..).trans (queue_atIssueState ..), rfl, rfl⟩
    · have hfull' : queueDepth (atIssueState s c sl).grade r.q ≤ (queue (atIssueState s c sl) r.q).length := by
        rw [queue_atIssueState]; simpa using hfull
      cases hfresh : (issueCtx s c sl).fresh
      · rw [enqueue_full (hmabs.trans habs) (hmfen.trans hfen) hfull' (by rw [ctx_atIssue, hfresh]), ctx_faultCtx_issue hdue]
        exact ⟨fun q => (queue_faultCtx ..).trans (queue_atIssueState ..), fun _ => ⟨rfl, rfl⟩, nofun⟩
      · cases hslip : (issueCtx s c sl).slipping
        · rw [enqueue_slip (hmabs.trans habs) (hmfen.trans hfen) hfull' (by rw [ctx_atIssue, hfresh])
            (by rw [ctx_atIssue, hslip]), ctx_advise, ctx_modCtx_same, ctx_slips, ctx_atIssue]
          exact ⟨fun q => by rw [queue_advise, queue_modCtx, queue_slips, queue_atIssueState], nofun,
            fun _ _ => ⟨issueCtx_stopping hdue, rfl, by simp, rfl⟩⟩
        · rw [enqueue_slipping (hmabs.trans habs) (hmfen.trans hfen) hfull' (by rw [ctx_atIssue, hfresh])
            (by rw [ctx_atIssue, hslip])]
          exact ⟨queue_atIssueState s c sl, nofun, nofun⟩

end

/-!
## Start: what the operations of a start leave (R28, R33)
-/

namespace Sys2Proof.Machine

/-! ### What the shared operations of a start leave -/

/-- What holding units, counting and reading leave as it is: bytes of core memory, queues, running commands, contexts, the EC,
pennants and hoists. -/
structure StartKept (s t : State) : Prop where
  mem : t.mem = s.mem
  queues : t.queues = s.queues
  runs : t.runs = s.runs
  ctxs : t.ctxs = s.ctxs
  ec : t.ec = s.ec
  syn : t.syn = s.syn

namespace StartKept
variable {s t u : State}

theorem refl (s : State) : StartKept s s := ⟨rfl, rfl, rfl, rfl, rfl, rfl⟩

theorem trans (h : StartKept s t) (h' : StartKept t u) : StartKept s u :=
  ⟨h'.mem.trans h.mem, h'.queues.trans h.queues, h'.runs.trans h.runs, h'.ctxs.trans h.ctxs, h'.ec.trans h.ec,
    h'.syn.trans h.syn⟩

end StartKept

theorem noteReads_startKept (gs : List Nat) (s : State) : StartKept s (noteReads s gs) := by
  unfold noteReads
  induction gs generalizing s with
  | nil => exact .refl s
  | cons g gs ih =>
    exact StartKept.trans (noteRead_ind s g (P := StartKept s) (.refl s) fun _ _ => ⟨rfl, rfl, rfl, rfl, rfl, rfl⟩) (ih _)

theorem addTot_startKept (i n : Nat) (s : State) : StartKept s (addTot i n s) := by
  unfold addTot
  split
  · exact .refl s
  · exact ⟨rfl, rfl, rfl, rfl, rfl, rfl⟩

theorem modMxe_startKept (f : MxeSt → MxeSt) (s : State) : StartKept s (modMxe f s) := ⟨rfl, rfl, rfl, rfl, rfl, rfl⟩

theorem consume_startKept (n till : Nat) (s : State) : StartKept s (consume n till s) := ⟨rfl, rfl, rfl, rfl, rfl, rfl⟩

theorem free_startKept (n : Nat) (s : State) : StartKept s { s with free := n } := ⟨rfl, rfl, rfl, rfl, rfl, rfl⟩

theorem vxe_startKept (v : VxeSt) (s : State) : StartKept s { s with vxe := v } := ⟨rfl, rfl, rfl, rfl, rfl, rfl⟩

theorem pin_startKept (v : PinSt) (s : State) : StartKept s { s with pin := v } := ⟨rfl, rfl, rfl, rfl, rfl, rfl⟩

theorem holdPinions_startKept (bs : List Nat) (t : Nat) (s : State) : StartKept s (holdPinions s bs t) :=
  ⟨rfl, rfl, rfl, rfl, rfl, rfl⟩

/-- A STREAM takes its entries: the matrix engine alone changes. -/
def claims (acc : Bool) (c : Ctx) (a : Nat) (ns : List Nat) (s : State) : State := ns.foldl (fun s n => claim acc c a n s) s

theorem claims_startKept (acc : Bool) (c : Ctx) (a : Nat) (ns : List Nat) (s : State) : StartKept s (claims acc c a ns s) := by
  unfold claims
  induction ns generalizing s with
  | nil => exact .refl s
  | cons n ns ih => exact StartKept.trans (t := claim acc c a n s) ⟨rfl, rfl, rfl, rfl, rfl, rfl⟩ (ih _)

/-! ### Rows of STREAMs -/

/-- Changes that bring no rows stay with their command. -/
theorem landEff_noSums (t : Nat) (r : Run) (l : List Eff) (hl : ∀ f ∈ l, ∀ n stamp acc rows, f ≠ .sums n stamp acc rows)
    (s : State) (l' : List Eff) : l.foldl (landEff t r) (s, l') = (s, l' ++ l) := by
  induction l generalizing l' with
  | nil => simp
  | cons f l ih =>
    have hf : landEff t r (s, l') f = (s, l' ++ [f]) := by
      cases f
      case sums n stamp acc rows => exact absurd rfl (hl _ (by simp) n stamp acc rows)
      all_goals rfl
    rw [List.foldl_cons, hf, ih fun f hf => hl f (by simp [hf])]
    simp

/-- With no STREAM running only the spans note that rows have landed. -/
theorem landSums_noStream {s : State} (h : NoStream s) (t : Nat) :
    landSums t s = { s with spans := s.spans.map (fun x => (x.1, { x.2 with rowsTo := Nat.max x.2.rowsTo t })) } := by
  have hfold : ∀ (l : List Run) (l' : List Run),
      (∀ r ∈ l, ∀ f ∈ r.effs, ∀ n stamp acc rows, f ≠ .sums n stamp acc rows) →
      l.foldl (fun (p : State × List Run) r =>
        ((r.effs.foldl (landEff t r) (p.1, [])).1, p.2 ++ [{ r with effs := (r.effs.foldl (landEff t r) (p.1, [])).2 }]))
        (s, l') = (s, l' ++ l) := by
    intro l
    induction l with
    | nil => simp
    | cons r l ih =>
      intro l' hl
      rw [List.foldl_cons, landEff_noSums t r r.effs (hl r (by simp)) s [], List.nil_append, ih _ fun r hr => hl r (by simp [hr])]
      simp
  have := hfold s.runs [] fun r hr => (h r hr).2
  unfold landSums
  dsimp only
  rw [this]
  rfl

theorem landSums_startKept {s : State} (h : NoStream s) (t : Nat) : StartKept s (landSums t s) := by
  rw [landSums_noStream h]
  exact ⟨rfl, rfl, rfl, rfl, rfl, rfl⟩

theorem settleStreams_noStream {s : State} (h : NoStream s) (t : Nat) : settleStreams t s = s := by
  have hnil : s.runs.filter (fun r => decide (r.opcode = 0x13) && decide (r.seat ≠ 0)) = [] :=
    List.filter_eq_nil_iff.2 fun r hr => by simp [(h r hr).1]
  rw [settleStreams, hnil]; rfl

theorem NoStream.congr {s t : State} (h : NoStream s) (hr : t.runs = s.runs) : NoStream t := by
  unfold NoStream; rw [hr]; exact h

/-! ### A head that starts -/

/-- A command has started (R28, R33): it has left its queue and runs, and nothing else of what a program sees has changed. -/
structure Started (q : QName) (e : QEnt) (start occ depth : Nat) (effs : List Eff) (s t : State) : Prop where
  head : queue t q = (queue s q).tail
  other : ∀ p, p ≠ q → queue t p = queue s p
  mem : t.mem = s.mem
  ctxs : t.ctxs = s.ctxs
  ec : t.ec = s.ec
  syn : t.syn = s.syn
  runs : ∃ seat, t.runs =
    s.runs ++ [⟨e.ctx, e.tag, wd e.words 0 % 256, start, start + occ, start + occ + depth, effs, e, seat⟩]

theorem StartKept.started {q : QName} {e : QEnt} {start occ depth : Nat} {effs : List Eff} {s u t : State} (h : StartKept s u)
    (ht : Started q e start occ depth effs u t) : Started q e start occ depth effs s t where
  head := by rw [ht.head, queue_congr s h.queues]
  other p hp := by rw [ht.other p hp, queue_congr s h.queues]
  mem := ht.mem.trans h.mem
  ctxs := ht.ctxs.trans h.ctxs
  ec := ht.ec.trans h.ec
  syn := ht.syn.trans h.syn
  runs := by rw [← h.runs]; exact ht.runs

theorem queue_popQueue_same (q : QName) (s : State) : queue (popQueue q s) q = (queue s q).tail :=
  (queue_congr (setQueue s q (queue s q).tail) (by simp [popQueue]) q).trans (queue_setQueue_same ..)

theorem queue_popQueue_ne {q p : QName} (h : p ≠ q) (s : State) : queue (popQueue q s) p = queue s p :=
  (queue_congr (setQueue s q (queue s q).tail) (by simp [popQueue]) p).trans (queue_setQueue_ne s p q _ h)

theorem launch_queues (q : QName) (e : QEnt) (start occ depth seat : Nat) (effs : List Eff) (s : State) :
    (launch q e start occ depth seat effs s).queues = (popQueue q s).queues := rfl

theorem launch_started (q : QName) (e : QEnt) (start occ depth seat : Nat) (effs : List Eff) (s : State) :
    Started q e start occ depth effs s (launch q e start occ depth seat effs s) where
  head := by rw [queue_congr (popQueue q s) (launch_queues ..), queue_popQueue_same]
  other p hp := by rw [queue_congr (popQueue q s) (launch_queues ..), queue_popQueue_ne hp]
  mem := by simp [launch, drawGens, popQueue]
  ctxs := by simp [launch, drawGens, popQueue]
  ec := by simp [launch, drawGens, popQueue]
  syn := by simp [launch, drawGens, popQueue]
  runs := ⟨seat, by simp [launch, drawGens, popQueue]⟩

theorem beginSpan_started (q : QName) (e : QEnt) (start occ depth : Nat) (reads : List Nat) (id : Nat) (effs : List Eff)
    (s : State) (before writes : List Nat) :
    Started q e start occ depth effs s (beginSpan q e start occ depth reads id effs s before writes) :=
  StartKept.started (u := { s with free := s.free + 1, spans := (beginSpan q e start occ depth reads id effs s before writes).spans })
    ⟨rfl, rfl, rfl, rfl, rfl, rfl⟩ (launch_started q e start occ depth (s.free + 1) effs _)

/-- A start that holds its unit and reads its operands first. -/
theorem StartKept.beginSpan {s u : State} (h : StartKept s u) (q : QName) (e : QEnt) (start occ depth : Nat) (reads : List Nat)
    (id : Nat) (effs : List Eff) (before writes : List Nat) :
    Started q e start occ depth effs s (beginSpan q e start occ depth reads id effs u before writes) :=
  h.started (beginSpan_started ..)

/-! ### What the start of a head can do -/

/-- What the start of a head can do: it takes at most that head away and adds at most one running command (R28). -/
structure HeadStep (q : QName) (s t : State) : Prop where
  mem : t.mem = s.mem
  other : ∀ p, p ≠ q → queue t p = queue s p
  runs : t.runs = s.runs ∧ (queue t q = queue s q ∨ queue t q = (queue s q).tail) ∨
    ∃ r : Run, t.runs = s.runs ++ [r] ∧ queue t q = (queue s q).tail

namespace HeadStep
variable {q : QName} {s t u : State}

theorem refl (q : QName) (s : State) : HeadStep q s s := ⟨rfl, fun _ _ => rfl, .inl ⟨rfl, .inl rfl⟩⟩

theorem of_started {e : QEnt} {start occ depth : Nat} {effs : List Eff} (h : Started q e start occ depth effs s t) : HeadStep q s t :=
  ⟨h.mem, h.other, .inr ⟨_, h.runs.choose_spec, h.head⟩⟩

/-- What happens before the start may change all but bytes, queues and running commands. -/
theorem of_eq (hm : u.mem = s.mem) (hq : u.queues = s.queues) (hr : u.runs = s.runs) (h : HeadStep q u t) : HeadStep q s t where
  mem := h.mem.trans hm
  other p hp := (h.other p hp).trans (queue_congr s hq p)
  runs := by rw [← hr, ← queue_congr s hq]; exact h.runs

theorem of_kept (hk : StartKept s u) (h : HeadStep q u t) : HeadStep q s t := h.of_eq hk.mem hk.queues hk.runs

end HeadStep

/-- A fault in the start AC takes the head away (R33). -/
theorem startFault_headStep (q : QName) (e : QEnt) (code : Nat) (detail : List Nat) (s : State) :
    HeadStep q s (startFault q e code detail s) := by
  have hq (p) : queue (startFault q e code detail s) p = queue (popQueue q s) p := queue_congr _ (by simp [startFault, streamFault]) p
  refine ⟨by simp [startFault, streamFault, popQueue], fun p hp => (hq p).trans (queue_popQueue_ne hp s),
    .inl ⟨by simp [startFault, streamFault, popQueue], .inr ((hq q).trans (queue_popQueue_same q s))⟩⟩

theorem startFormat_headStep (q : QName) (e : QEnt) (s : State) : HeadStep q s (startFormat q e s) :=
  startFault_headStep ..

theorem accessStop_headStep (q : QName) (e : QEnt) (f : Nat × List Nat) (reads : List Nat) (s : State) :
    HeadStep q s (accessStop q e f reads s) := by
  unfold accessStop
  split
  · exact .of_kept (noteReads_startKept reads s) (startFault_headStep ..)
  · exact startFault_headStep ..

/-- The head waits for completions, or it starts in its AC. -/
theorem startAt_headStep {q : QName} (a : Nat) (f : State → State) (s : State)
    (hf : ∀ u : State, u.runs = s.runs → HeadStep q u (f u)) : HeadStep q s (startAt a f s) := by
  unfold startAt
  split
  · exact (hf _ (by simp)).of_eq (by simp) (by simp) (by simp)
  · exact .refl q s

end Sys2Proof.Machine

/-!
## Start: the start of each command takes at most its head away (R28)
-/

namespace Sys2Proof.Machine

/-! ### The start of each command takes at most its head away -/

theorem startFill_headStep (strip : Bool) (e : QEnt) (s : State) : HeadStep .mxe s (startFill strip e s) := by
  unfold startFill
  refine startAt_headStep _ _ _ fun u _ => ?_
  split
  · exact startFormat_headStep ..
  · dsimp only
    split
    · exact accessStop_headStep ..
    · exact .of_started (((noteReads_startKept _ u).trans (modMxe_startKept _ _)).beginSpan ..)

theorem startSwap_headStep (e : QEnt) (s : State) : HeadStep .mxe s (startSwap e s) := by
  unfold startSwap
  refine startAt_headStep _ _ _ fun u _ => ?_
  split
  · exact startFormat_headStep ..
  · exact .of_started ((modMxe_startKept _ u).started (launch_started ..))

/-- Whether a tracker command is a SCT.READ. -/
def sctReads (e : QEnt) : Bool := decide (wd e.words 0 % 256 = 0x16)

/-- The layout conditions of a tracker command (R221). -/
def sctOk (e : QEnt) : Bool := if sctReads e then sctReadOk e.words else sctSetOk e.words

/-- What a tracker command does (R221). -/
def sctEff (e : QEnt) : Eff :=
  if sctReads e then .sctRead (bits (wd e.words 1) 7 0) (bits (wd e.words 1) 14 10) (bits (wd e.words 1) 18 15)
  else .sctSet (bits (wd e.words 1) 7 0) (bits (wd e.words 1) 9 8) (wd e.words 2)

theorem startSct_eq (e : QEnt) (s : State) : startSct e s = startAt (sctStart e s) (fun u =>
    if e.rsv ≠ 0 ∨ sctOk e = false then startFormat .mxe e u
    else begin_ .mxe e (sctStart e s) 1 4 [sctEff e] (modMxe (fun m => { m with sctFree := sctStart e s + 1 }) u)) s := rfl

theorem startSct_headStep (e : QEnt) (s : State) : HeadStep .mxe s (startSct e s) := by
  rw [startSct_eq]
  refine startAt_headStep _ _ _ fun u _ => ?_
  split
  · exact startFormat_headStep ..
  · exact .of_started ((modMxe_startKept _ u).started (launch_started ..))

/-- A STREAM of M rows reads its operand, is counted, and finds the rows that are visible (R70, R385). -/
def streamCounted (e : QEnt) (a M : Nat) (s : State) : State :=
  landSums a (addTot (macUnits s e.words M).1 (macUnits s e.words M).2 (noteReads s (granules (streamOpnd e.words M).ranges)))

theorem streamCounted_startKept {s : State} (h : NoStream s) (e : QEnt) (a M : Nat) : StartKept s (streamCounted e a M s) := by
  have h1 := (noteReads_startKept (granules (streamOpnd e.words M).ranges) s).trans
    (addTot_startKept (macUnits s e.words M).1 (macUnits s e.words M).2 _)
  exact h1.trans (landSums_startKept (h.congr h1.runs) a)

/-- What a STREAM of M rows has done when its span begins: its operand is read and counted, its entries are its own. -/
def streamHeld (e : QEnt) (a M : Nat) (accMain accStrip : Bool) (s : State) : State :=
  claims accStrip e.ctx a (if adpEn e.words then entriesOf (adpBase e.words) M else [])
    (claims accMain e.ctx a (entriesOf (bits (wd e.words 5) 14 12) M) (streamCounted e a M s))

theorem streamHeld_startKept {s : State} (h : NoStream s) (e : QEnt) (a M : Nat) (accMain accStrip : Bool) :
    StartKept s (streamHeld e a M accMain accStrip s) :=
  (streamCounted_startKept h e a M).trans ((claims_startKept ..).trans (claims_startKept ..))

/-- The array is held from the start of a STREAM (R70, R71). -/
def arrayHeld (a occ L : Nat) (s : State) : State := modMxe (fun m => { m with entryFree := a + occ, lvl := L, lvlAc := a, lvlUp := true }) s

/-- The occupancy of a STREAM that enters at the level it finds (R71). -/
def streamHolds (s : State) (e : QEnt) (a M trow : Nat) : Nat :=
  Nat.max (streamOcc (levelAt s.mxe a) (M * trow))
    (slotBound s ownMxe (bankGranules s (granules (streamOpnd e.words M).ranges)))

theorem enterStream_eq (e : QEnt) (a M trow : Nat) (accMain accStrip : Bool) (s : State) :
    enterStream e a M trow accMain accStrip s =
      beginSpan .mxe e a (streamHolds s e a M trow) 272 ((streamOpnd e.words M).steps.map Prod.fst) 0
        (streamEffs e a (streamHolds s e a M trow) M trow (levelAt s.mxe a) accMain accStrip (streamHeld e a M accMain accStrip s))
        (arrayHeld a (streamHolds s e a M trow) (levelAt s.mxe a) (streamHeld e a M accMain accStrip s))
        ((streamOpnd e.words M).steps.map (fun p =>
          rowEnters a (levelAt s.mxe a) trow (streamHolds s e a M trow) M p.2 + 1)) := rfl

theorem enterStream_started {s : State} (h : NoStream s) (e : QEnt) (a M trow : Nat) (accMain accStrip : Bool) :
    Started .mxe e a (streamHolds s e a M trow) 272
      (streamEffs e a (streamHolds s e a M trow) M trow (levelAt s.mxe a) accMain accStrip (streamHeld e a M accMain accStrip s))
      s (enterStream e a M trow accMain accStrip s) := by
  rw [enterStream_eq]
  exact ((streamHeld_startKept h e a M accMain accStrip).trans (modMxe_startKept _ _)).beginSpan ..

theorem startStream_headStep {s : State} (h : NoStream s) (e : QEnt) : HeadStep .mxe s (startStream e s) := by
  unfold startStream
  dsimp only
  split
  · exact .refl ..
  · refine startAt_headStep _ _ _ fun u hu => ?_
    split
    · exact startFormat_headStep ..
    · split
      · exact startFault_headStep ..
      · split
        · exact startFault_headStep ..
        · split
          · exact accessStop_headStep ..
          · exact .of_started (enterStream_started (h.congr hu) ..)

/-- What a conversion has done when its span begins: its factors are read, its entry is consumed. -/
def cvtHeld (e : QEnt) (a occ : Nat) (s : State) : State :=
  modMxe (fun m => { m with cvtFree := a + occ })
    (consume (bits (wd e.words 6) 2 0) (a + occ) (landSums a (noteReads s (cvtReads e.words))))

theorem cvtHeld_startKept {s : State} (h : NoStream s) (e : QEnt) (a occ : Nat) : StartKept s (cvtHeld e a occ s) := by
  have h1 := noteReads_startKept (cvtReads e.words) s
  exact (h1.trans (landSums_startKept (h.congr h1.runs) a)).trans
    ((consume_startKept ..).trans (modMxe_startKept ..))

theorem startFtqCvt_headStep {s : State} (h : NoStream s) (e : QEnt) : HeadStep .mxe s (startFtqCvt e s) := by
  unfold startFtqCvt
  refine startAt_headStep _ _ _ fun u hu => ?_
  split
  · exact startFormat_headStep ..
  · split
    · exact startFault_headStep ..
    · dsimp only
      split
      · exact accessStop_headStep ..
      · exact .of_started ((cvtHeld_startKept (h.congr hu) e _ _).beginSpan ..)

theorem startMxe_headStep {s : State} {e : QEnt} (h : wd e.words 0 % 256 = 0x13 ∨ wd e.words 0 % 256 = 0x14 → NoStream s) :
    HeadStep .mxe s (startMxe e s) := by
  unfold startMxe
  split
  · exact startFill_headStep ..
  · exact startFill_headStep ..
  · exact startSwap_headStep ..
  · split
    · exact .refl ..
    · exact startStream_headStep (h (.inl ‹_›)) e
  · exact startFtqCvt_headStep (h (.inr ‹_›)) e
  · exact startSct_headStep ..

theorem startTxb_headStep (e : QEnt) (s : State) : HeadStep .txb s (startTxb e s) := by
  unfold startTxb
  refine startAt_headStep _ _ _ fun u _ => ?_
  split
  · exact startFormat_headStep ..
  · dsimp only
    split
    · exact accessStop_headStep ..
    · exact .of_started (((free_startKept _ u).trans
        ((noteReads_startKept ..).trans (modMxe_startKept ..))).beginSpan ..)

/-- What a VXE command has done when its span begins: its operands are read and counted, and a tile reduction consumes its entry. -/
def vxeHeld (e : QEnt) (a occ : Nat) (gs : List Nat) (s : State) : State :=
  let u := addTot tVXE (vActive s e) (noteReads { s with free := s.free + vFree e.words + 2 ^ 32 } gs)
  if isTile e.words then consume (tileEntry e.words) (a + occ) (landSums a u) else u

theorem vxeHeld_startKept {s : State} (e : QEnt) (h : isTile e.words = true → NoStream s) (a occ : Nat) (gs : List Nat) :
    StartKept s (vxeHeld e a occ gs s) := by
  have h1 : StartKept s (addTot tVXE (vActive s e) (noteReads { s with free := s.free + vFree e.words + 2 ^ 32 } gs)) :=
    (free_startKept _ s).trans ((noteReads_startKept ..).trans (addTot_startKept ..))
  unfold vxeHeld
  split
  · exact (h1.trans (landSums_startKept ((h ‹_›).congr h1.runs) a)).trans (consume_startKept ..)
  · exact h1

theorem startVxe_headStep {s : State} {e : QEnt} (h : isTile e.words = true → NoStream s) : HeadStep .vxe s (startVxe e s) := by
  unfold startVxe
  refine startAt_headStep _ _ _ fun u hu => ?_
  split
  · exact startFormat_headStep ..
  · dsimp only
    split
    · exact accessStop_headStep ..
    · exact .of_started (((vxeHeld_startKept e (fun ht => (h ht).congr hu) _ _ _).trans (vxe_startKept ..)).beginSpan ..)

/-- What a RUN has done when its span begins: its steps are counted, its streams read, its pinions held. -/
def pinHeld (e : QEnt) (t : Nat) (rd : List Nat) (s : State) : State :=
  let u := addTot tSTEPS (pElems e.words * pSteps e.words * (pinBanks e.words).length) s
  holdPinions (noteReads { u with free := u.free + 2 ^ 32 } rd) (pinBanks e.words) t

theorem pinHeld_startKept (e : QEnt) (t : Nat) (rd : List Nat) (s : State) : StartKept s (pinHeld e t rd s) :=
  (addTot_startKept ..).trans ((free_startKept ..).trans ((noteReads_startKept ..).trans (holdPinions_startKept ..)))

theorem startPinRun_headStep (e : QEnt) (s : State) : HeadStep .pin s (startPinRun e s) := by
  unfold startPinRun
  refine startAt_headStep _ _ _ fun u _ => ?_
  split
  · exact startFormat_headStep ..
  · dsimp only
    split
    · exact accessStop_headStep ..
    · exact .of_started (((pinHeld_startKept e _ _ u).trans (pin_startKept ..)).beginSpan ..)

theorem startAtom_headStep (e : QEnt) (s : State) : HeadStep .pin s (startAtom e s) := by
  unfold startAtom
  refine startAt_headStep _ _ _ fun u _ => ?_
  split
  · exact startFormat_headStep ..
  · dsimp only
    split
    · exact accessStop_headStep ..
    · exact .of_started ((((noteReads_startKept _ u).trans (holdPinions_startKept ..)).trans (pin_startKept ..)).beginSpan ..)

end Sys2Proof.Machine

/-!
## Start: the heads of the queues (R28, R33, R73, R221)
-/

namespace Sys2Proof.Machine

theorem exec_engineCommandStart {q : QName} (h : q ∈ [QName.mxe, .txb, .vxe, .pin]) (s : State) :
    exec (.engineCommandStart q) s = .next (startDueHead q s) := by
  cases q
  case xdma => simp at h
  case lnk => simp at h
  all_goals rfl

/-- A head that finds no rows starts, or waits for its AC (R28). -/
theorem startDueHead_eq {s : State} {q : QName} (h : findsRows s q = false ∨ NoStream s) : startDueHead q s =
    match headStart s q with
    | none => s
    | some a => if startDue s a then s else startHead q s := by
  have hs (a : Nat) : (if findsRows s q && settledAc s a then settleStreams a s else s) = s := by
    obtain h | h := h
    · simp [h]
    · simp [settleStreams_noStream h]
  unfold startDueHead
  cases headStart s q with
  | none => rfl
  | some a => exact congrArg (fun u => if startDue s a then s else startHead q u) (hs a)

theorem startHead_headStep {s : State} {q : QName} (hq : q ∈ [QName.mxe, .txb, .vxe, .pin]) (h : findsRows s q = false ∨ NoStream s) :
    HeadStep q s (startHead q s) := by
  unfold startHead
  split
  · exact .refl ..
  · rename_i e rest he
    cases q
    case mxe => exact startMxe_headStep fun h13 => h.resolve_left (by simp only [findsRows, he, h13]; decide)
    case txb => exact startTxb_headStep ..
    case vxe => exact startVxe_headStep fun ht => h.resolve_left (by simp [findsRows, he, ht])
    case pin =>
      dsimp only
      split
      · exact startPinRun_headStep ..
      · exact startAtom_headStep ..
    case xdma => simp at hq
    case lnk => simp at hq

theorem startDueHead_headStep {s : State} {q : QName} (hq : q ∈ [QName.mxe, .txb, .vxe, .pin])
    (h : findsRows s q = false ∨ NoStream s) : HeadStep q s (startDueHead q s) := by
  rw [startDueHead_eq h]
  split
  · exact .refl ..
  · split
    · exact .refl ..
    · exact startHead_headStep hq h

/-! ### The heads of the MXE queue that touch no granule -/

theorem advance_pass {s : State} (h : NothingDue s) (e : Nat) : advance e s = pass e s :=
  advance_none s e (by rw [h]; simp)

/-- A head that is due starts in its AC. -/
theorem startDueHead_due {s : State} {q : QName} {a : Nat} (h : findsRows s q = false ∨ NoStream s)
    (ha : headStart s q = some a) (hd : startDue s a = false) : startDueHead q s = startHead q s := by
  rw [startDueHead_eq h, ha]; simp [hd]

theorem startAt_due {a : Nat} {s : State} (h : settledAc s a = true) (f : State → State) : startAt a f s = f (advance (2 * a) s) := by
  rw [startAt, if_pos h]

theorem startSwap_begins {s : State} {e : QEnt} (hr : e.rsv = 0) (hw : ∀ w ∈ slice 1 7 e.words, w = 0)
    (hs : settledAc s (swapStart e s) = true) : startSwap e s = begin_ .mxe e (swapStart e s) 1 0 [.swap]
      (modMxe (fun m => { m with fillFree := swapStart e s + 1, entryFree := swapStart e s + 1 }) (advance (2 * swapStart e s) s)) := by
  have hok : ¬ (e.rsv ≠ 0 ∨ (slice 1 7 e.words).any (fun w => decide (w ≠ 0)) = true) := by simpa [hr] using hw
  unfold startSwap
  rw [startAt_due hs, if_neg hok]

theorem startSct_begins {s : State} {e : QEnt} (hr : e.rsv = 0) (hok : sctOk e = true) (hs : settledAc s (sctStart e s) = true) :
    startSct e s = begin_ .mxe e (sctStart e s) 1 4 [sctEff e]
      (modMxe (fun m => { m with sctFree := sctStart e s + 1 }) (advance (2 * sctStart e s) s)) := by
  rw [startSct_eq, startAt_due hs, if_neg (by simp [hr, hok])]

theorem begin_queue (q : QName) (e : QEnt) (start occ depth : Nat) (effs : List Eff) (s : State) :
    queue (begin_ q e start occ depth effs s) q = (queue s q).tail := (launch_started ..).head

/-- A start leaves its engine's registers and the trackers. -/
@[simp] theorem begin_rest (q : QName) (e : QEnt) (start occ depth : Nat) (effs : List Eff) (s : State) :
    (begin_ q e start occ depth effs s).mem = s.mem ∧ (begin_ q e start occ depth effs s).ctxs = s.ctxs ∧
    (begin_ q e start occ depth effs s).mxe = s.mxe ∧ (begin_ q e start occ depth effs s).sct = s.sct ∧
    (begin_ q e start occ depth effs s).runs =
      s.runs ++ [⟨e.ctx, e.tag, wd e.words 0 % 256, start, start + occ, start + occ + depth, effs, e, 0⟩] := by
  simp [begin_, launch, drawGens, popQueue]


theorem exec_mxeHead {s u : State} {e : QEnt} {rest : List QEnt} {a : Nat} (hqe : queue s .mxe = e :: rest)
    (hf : findsRows s .mxe = false) (ha : headStart s .mxe = some a) (hd : startDue s a = false) (hu : startMxe e s = u) :
    exec (.engineCommandStart .mxe) s = .next u := by
  rw [exec_engineCommandStart (by simp), startDueHead_due (.inl hf) ha hd, startHead, hqe]
  exact congrArg _ hu

end Sys2Proof.Machine

section
open Sys2Proof Sys2Proof.Machine Host

/-- Settles O12: each start function, between its format check and its span, keeps bytes, queues and running commands; a
SWAP and a tracker command begin in the AC that `headStart` gives. -/
theorem headsOfQueuesStart : Obligations.HeadsOfQueuesStart := by
  refine ⟨fun s q hq h => ?_, fun s e rest hqe hr htrip hdue => ?_⟩
  · have ht := startDueHead_headStep hq h
    exact ⟨_, exec_engineCommandStart hq s, readByte_congr s ht.mem, ht.other, ht.runs⟩
  · extract_lets a1 a2
    have hrows (h : wd e.words 0 % 256 ≠ 0x13 ∧ wd e.words 0 % 256 ≠ 0x14) : findsRows s .mxe = false := by
      simp [findsRows, hqe, h]
    have hq (u : State) (hu : u.queues = s.queues) : (queue u .mxe).tail = rest := by rw [queue_congr s hu, hqe]; rfl
    have hsct (h : wd e.words 0 % 256 = 0x15 ∨ wd e.words 0 % 256 = 0x16) (hok : sctOk e = true) (hs : settledAc s a2 = true)
        (hd : startDue s a2 = false) : ∃ t, exec (.engineCommandStart .mxe) s = .next t ∧ queue t .mxe = rest ∧
          t.ctxs = s.ctxs ∧ t.sct = s.sct ∧
          t.runs = s.runs ++ [⟨e.ctx, e.tag, wd e.words 0 % 256, a2, a2 + 1, a2 + 5, [sctEff e], e, 0⟩] := by
      have hm : startMxe e s = startSct e s := by obtain h | h := h <;> simp [startMxe, h]
      have ha : headStart s .mxe = some a2 := by obtain h | h := h <;> simp [headStart, hqe, htrip, h] <;> rfl
      refine ⟨_, exec_mxeHead hqe (hrows (by omega)) ha hd (hm.trans (startSct_begins hr hok hs)), ?_⟩
      rw [begin_queue, hq _ (by simp), advance_pass hdue]
      simp [a2, sctStart]
    refine ⟨fun hop hw hs hd => ?_, fun hop hok hs hd => ?_, fun hop hok hs hd => ?_⟩
    · have hm : startMxe e s = startSwap e s := by simp [startMxe, hop]
      have ha : headStart s .mxe = some a1 := by simp [headStart, hqe, htrip, hop]; rfl
      refine ⟨_, exec_mxeHead hqe (hrows (by omega)) ha hd (hm.trans (startSwap_begins hr hw hs)), ?_⟩
      rw [begin_queue, hq _ (by simp), advance_pass hdue]
      refine ⟨rfl, by simp, by simp [hop]; rfl, by simp only [begin_rest, modMxe, pass_rest]; rfl, readByte_congr s (by simp)⟩
    · simpa [sctEff, sctReads, hop] using hsct (.inl hop) (by simpa [sctOk, sctReads, hop] using hok) hs hd
    · simpa [sctEff, sctReads, hop] using hsct (.inr hop) (by simpa [sctOk, sctReads, hop] using hok) hs hd
end

/-!
## Start: the timed heads (R33, R70 to R78, R87, R111, R152)
-/

namespace Sys2Proof.Machine

/-! ### What the start of a timed command holds and carries -/

@[simp] theorem beginSpan_rest (q : QName) (e : QEnt) (start occ depth : Nat) (reads : List Nat) (id : Nat) (effs : List Eff)
    (s : State) (before writes : List Nat) :
    (beginSpan q e start occ depth reads id effs s before writes).mem = s.mem ∧
    (beginSpan q e start occ depth reads id effs s before writes).mxe = s.mxe ∧
    (beginSpan q e start occ depth reads id effs s before writes).vxe = s.vxe ∧
    (beginSpan q e start occ depth reads id effs s before writes).pin = s.pin := by
  simp [beginSpan, launch, drawGens, popQueue]

theorem beginSpan_mxe (q : QName) (e : QEnt) (start occ depth : Nat) (reads : List Nat) (id : Nat) (effs : List Eff)
    (s : State) (before writes : List Nat) :
    (beginSpan q e start occ depth reads id effs s before writes).mxe = s.mxe := by simp

theorem ftq_congr {s t : State} (h : t.mxe.ftq = s.mxe.ftq) (n : Nat) : ftq t n = ftq s n := by unfold ftq; rw [h]

@[simp] theorem ftq_setFtq_same (n : Nat) (x : Ftq) (s : State) : ftq (setFtq n x s) n = x := SMap.get_set_same ..

theorem ftq_setFtq_ne {n m : Nat} (h : m ≠ n) (x : Ftq) (s : State) : ftq (setFtq n x s) m = ftq s m := SMap.get_set_ne _ h

/-- A claimed entry is OPEN (R76). -/
theorem ftq_claim_open (acc : Bool) (c : Ctx) (a n : Nat) (s : State) : (ftq (claim acc c a n s) n).st = .open_ := by
  unfold claim
  rw [ftq_setFtq_same]
  split <;> rfl

/-- Further claims leave an OPEN entry OPEN. -/
theorem ftq_claims_open (acc : Bool) (c : Ctx) (a n : Nat) (ns : List Nat) (s : State)
    (h : n ∈ ns ∨ (ftq s n).st = .open_) : (ftq (claims acc c a ns s) n).st = .open_ := by
  unfold claims
  induction ns generalizing s with
  | nil => simpa using h
  | cons m ns ih =>
    refine ih _ ?_
    by_cases hm : n = m
    · subst hm; exact .inr (ftq_claim_open ..)
    · refine (h.imp_left fun h => (List.mem_cons.1 h).resolve_left hm).imp_right fun h => ?_
      exact (congrArg Ftq.st (ftq_setFtq_ne hm _ s)).trans h

/-- A line of an operand is read from core memory and the transposing buffers (R66, R87). -/
theorem Opnd.line_congr {s t : State} (hm : t.mem = s.mem) (hx : t.mxe.txb = s.mxe.txb) (hg : t.mxe.txbGen = s.mxe.txbGen)
    (o : Opnd) (c : Nat) : o.line t c = o.line s c := by
  simp only [Opnd.line, txbByte, readNats, readWords, readLE, readBytes, readByte, hm, hx, hg]

/-- What a STREAM carries comes from memory, the buffers, the active sets and its entries (R68). -/
theorem streamEffs_congr {s t : State} (hm : t.mem = s.mem) (hx : t.mxe.txb = s.mxe.txb) (hg : t.mxe.txbGen = s.mxe.txbGen)
    (ha : t.mxe.active = s.mxe.active) (hs : t.mxe.stripActive = s.mxe.stripActive) (hf : t.mxe.ftq = s.mxe.ftq)
    (e : QEnt) (a occ M trow L : Nat) (accMain accStrip : Bool) :
    streamEffs e a occ M trow L accMain accStrip t = streamEffs e a occ M trow L accMain accStrip s := by
  have hl : (streamOpnd e.words M).line t = (streamOpnd e.words M).line s := funext (Opnd.line_congr hm hx hg _)
  simp only [streamEffs, hl, ha, hs, ftq_congr hf]

/-! ### The starts of good commands -/

theorem Started.starts {s t : State} {q : QName} {e : QEnt} {rest : List QEnt} {a occ depth : Nat} {effs : List Eff}
    (hqe : queue s q = e :: rest) (h : Started q e a occ depth effs (advance (2 * a) s) t) :
    queue t q = rest ∧ (∀ p, p ≠ q → queue t p = queue s p) ∧ t.ec = Nat.max s.ec (2 * a) ∧
      t.ctxs = (advance (2 * a) s).ctxs ∧ (∀ b, readByte t b = readByte s b) ∧
      ∃ seat, t.runs = s.runs ++ [⟨e.ctx, e.tag, wd e.words 0 % 256, a, a + occ, a + occ + depth, effs, e, seat⟩] := by
  have hq (p) : queue (advance (2 * a) s) p = queue s p := queue_congr s (by simp) p
  refine ⟨by rw [h.head, hq, hqe]; rfl, fun p hp => by rw [h.other p hp, hq], by rw [h.ec, advance_ec], h.ctxs,
    readByte_congr s (by rw [h.mem]; simp), ?_⟩
  obtain ⟨seat, hr⟩ := h.runs
  exact ⟨seat, by rw [hr]; simp⟩

/-- A timed head that is due starts. -/
theorem exec_head {s u : State} {q : QName} {a : Nat} (hq : q ∈ [QName.mxe, .txb, .vxe, .pin])
    (h : NoStream s) (ha : headStart s q = some a) (hd : startDue s a = false) (hu : startHead q s = u) :
    exec (.engineCommandStart q) s = .next u := by
  rw [exec_engineCommandStart hq, startDueHead_due (.inr h) ha hd, hu]

theorem startFill_good {s : State} {strip : Bool} {e : QEnt} (hs : settledAc s (fillGo e s) = true) (hok : fillOk strip e = true)
    (hacc : accessFault (advance (2 * fillGo e s) s) ownMxe e.ctx (fun _ => false) (granules (fillOpnd e.words).ranges) [] = none) :
    let u := advance (2 * fillGo e s) s
    let occ := occupancy u ownMxe (fillAc (fillOpnd e.words).fmt) (granules (fillOpnd e.words).ranges) []
    Started .mxe e (fillGo e s) occ 0 (fillEffs strip e u) u (startFill strip e s) ∧
      (startFill strip e s).mxe.fillFree = fillGo e s + occ := by
  unfold startFill
  simp only [startAt_due hs, hok, hacc, Bool.true_eq_false, if_false]
  exact ⟨((noteReads_startKept ..).trans (modMxe_startKept ..)).beginSpan .., by simp [modMxe]⟩

theorem startStream_good {s : State} {e : QEnt} {a trow : Nat} (hn : NoStream s) (hs : settledAc s a = true)
    (ha : streamStart e s = some a) (hok : streamOk false e = true) (hrow : streamRow (advance (2 * a) s) e.words = some trow)
    (hadd : badAcc (advance (2 * a) s) a e.ctx (streamAdds e.words) = none)
    (hacc : accessFault (advance (2 * a) s) ownMxe e.ctx (fun r => decide (r = .mxeBuf))
      (granules (streamOpnd e.words (bits (wd e.words 5) 11 0)).ranges) [] = none) :
    let u := advance (2 * a) s
    let M := bits (wd e.words 5) 11 0
    let t := startStream e s
    let occ := streamHolds u e a M trow
    Started .mxe e a occ 272
      (streamEffs e a occ M trow (levelAt u.mxe a) (bit (wd e.words 5) 15) (adpAcc e.words) t) u t ∧
      t.mxe.entryFree = a + occ ∧ t.mxe.lvl = levelAt u.mxe a ∧ t.mxe.lvlAc = a ∧ t.mxe.lvlUp = true ∧
      ∀ n ∈ entriesOf (bits (wd e.words 5) 14 12) M, (ftq t n).st = .open_ := by
  extract_lets u M t occ
  have ht : t = enterStream e a M trow (bit (wd e.words 5) 15) (adpAcc e.words) u := by
    simp only [t, startStream, ha, startAt_due hs, hok, hrow, hadd, hacc, Bool.true_eq_false, if_false, M, u]
  have hmxe : t.mxe = (arrayHeld a occ (levelAt u.mxe a) (streamHeld e a M (bit (wd e.words 5) 15) (adpAcc e.words) u)).mxe := by
    rw [ht, enterStream_eq, beginSpan_mxe]
  have hst := enterStream_started (hn.congr (t := u) (by simp [u])) e a M trow (bit (wd e.words 5) 15) (adpAcc e.words)
  rw [← ht] at hst
  have hk := streamHeld_startKept (hn.congr (t := u) (by simp [u])) e a M (bit (wd e.words 5) 15) (adpAcc e.words)
  refine ⟨?_, by rw [hmxe]; rfl, by rw [hmxe]; rfl, by rw [hmxe]; rfl, by rw [hmxe]; rfl, fun n h => ?_⟩
  · rw [streamEffs_congr (hst.mem.trans hk.mem.symm) (by rw [hmxe]; rfl) (by rw [hmxe]; rfl) (by rw [hmxe]; rfl)
      (by rw [hmxe]; rfl) (by rw [hmxe]; rfl)]
    exact hst
  · rw [ftq_congr (t := t) (s := streamHeld e a M (bit (wd e.words 5) 15) (adpAcc e.words) u) (by rw [hmxe]; rfl)]
    exact ftq_claims_open _ _ _ _ _ _ (.inr (ftq_claims_open _ _ _ _ _ _ (.inl h)))

theorem startFtqCvt_good {s : State} {e : QEnt} (hn : NoStream s) (hs : settledAc s (cvtStart e s) = true) (hok : ftqCvtOk e = true)
    (hent : badAcc (advance (2 * cvtStart e s) s) (cvtStart e s) e.ctx [bits (wd e.words 6) 2 0] = none)
    (hbad : badGranule (advance (2 * cvtStart e s) s) e.ctx (fun _ => false) (cvtReads e.words) = none)
    (hacc : accessFault (advance (2 * cvtStart e s) s) ownMxe e.ctx (fun r => decide (r = .mxeBuf)) (cvtReads e.words)
      (cvtWrites e.words (advance (2 * cvtStart e s) s)) = none) :
    let u := advance (2 * cvtStart e s) s
    let n := (cvtShape e.words).1
    let B := n * cvtBytes e.words + (if (cvtFmt (wd e.words 3)).isMx then n * ((cvtShape e.words).2 / 32) else 0)
    let occ := occupancy u ownMxe (ceilDiv B 1024) (cvtReads e.words) (cvtWrites e.words u)
    let t := startFtqCvt e s
    Started .mxe e (cvtStart e s) occ 16 (cvtEffs e (landSums (cvtStart e s) (noteReads u (cvtReads e.words)))) u t ∧
      t.mxe.cvtFree = cvtStart e s + occ ∧ (ftq t (bits (wd e.words 6) 2 0)).st = .consuming ∧
      (ftq t (bits (wd e.words 6) 2 0)).freeAt = cvtStart e s + occ := by
  extract_lets u n B occ t
  have ht : ∃ effs writes, t = beginSpan .mxe e (cvtStart e s) occ 16 (cvtReads e.words) 0 effs (cvtHeld e (cvtStart e s) occ u) [] writes ∧
      effs = cvtEffs e (landSums (cvtStart e s) (noteReads u (cvtReads e.words))) := by
    refine ⟨_, cvtWrites e.words u, ?_, rfl⟩
    simp only [t, startFtqCvt, startAt_due hs, hok, hent, hbad, hacc, Bool.true_eq_false, if_false]
    rfl
  obtain ⟨effs, writes, ht, rfl⟩ := ht
  have hmxe : t.mxe = (cvtHeld e (cvtStart e s) occ u).mxe := by rw [ht, beginSpan_mxe]
  have hf : ftq t (bits (wd e.words 6) 2 0) = { ftq (landSums (cvtStart e s) (noteReads u (cvtReads e.words))) (bits (wd e.words 6) 2 0) with
      st := .consuming, freeAt := cvtStart e s + occ } := by
    rw [ftq_congr (t := t) (s := consume (bits (wd e.words 6) 2 0) (cvtStart e s + occ)
      (landSums (cvtStart e s) (noteReads u (cvtReads e.words)))) (by rw [hmxe]; rfl)]
    exact ftq_setFtq_same ..
  refine ⟨?_, by rw [hmxe]; rfl, by rw [hf], by rw [hf]⟩
  rw [ht]
  exact (cvtHeld_startKept (hn.congr (by simp [u])) e _ _).beginSpan ..

theorem startTxb_good {s : State} {e : QEnt} (hs : settledAc s (txbStart e s) = true) (hok : txbOk e = true)
    (hacc : accessFault (advance (2 * txbStart e s) s) ownMxe e.ctx (fun _ => false)
      (granules ((List.range (txbRows e.words)).map (txbRow e.words))) [] = none) :
    let u := advance (2 * txbStart e s) s
    let occ := occupancy u ownMxe (ceilDiv (txbRows e.words * (txbRow e.words 0).2) 2048)
      (granules ((List.range (txbRows e.words)).map (txbRow e.words))) []
    Started .txb e (txbStart e s) occ 4 (txbEffs e u.free u) u (startTxb e s) ∧
      SMap.get 0 (startTxb e s).mxe.txbFree (txbSel e.words) = txbStart e s + occ := by
  unfold startTxb
  simp only [startAt_due hs, hok, hacc, Bool.true_eq_false, if_false]
  exact ⟨((free_startKept _ _).trans ((noteReads_startKept ..).trans (modMxe_startKept ..))).beginSpan .., by simp [modMxe]⟩

theorem startVxe_good {s : State} {e : QEnt} (hn : NoStream s) (hs : settledAc s (vxeStart e s) = true) (hok : vxeOk e = true)
    (hacc : vFault (advance (2 * vxeStart e s) s) e (vxeStart e s)
      (vOut (advance (2 * vxeStart e s) s) e (vxeStart e s) (advance (2 * vxeStart e s) s).free) = none) :
    let u := advance (2 * vxeStart e s) s
    let o := vOut u e (vxeStart e s) u.free
    let m := vMoves u e (vxeStart e s) u.free
    let occ := occupancy u ownVxe (vFigure e.words) (granules m.1) (granules m.2)
    Started .vxe e (vxeStart e s) occ (vDepth e.words) (vEffs (vLanes e.words) u.free o) u (startVxe e s) ∧
      (startVxe e s).vxe.free = vxeStart e s + occ := by
  unfold startVxe
  simp only [startAt_due hs, hok, hacc, Bool.true_eq_false, if_false]
  exact ⟨((vxeHeld_startKept e (fun _ => hn.congr (by simp)) _ _ _).trans (vxe_startKept ..)).beginSpan .., by simp⟩

/-- Held pinions are held until then (R152). -/
theorem holdPinions_free (bs : List Nat) (t : Nat) (s : State) : ∀ b ∈ bs,
    SMap.get 0 (holdPinions s bs t).pin.free (pinionOf s.grade b) = t := by
  have h (m : SMap Nat) (p : Nat) (hp : p ∈ bs.map (pinionOf s.grade) ∨ SMap.get 0 m p = t) :
      SMap.get 0 (bs.foldl (fun m b => SMap.set 0 m (pinionOf s.grade b) t) m) p = t := by
    induction bs generalizing m with
    | nil => simpa using hp
    | cons b bs ih =>
      refine ih _ ?_
      rw [SMap.get_set]
      split
      · exact .inr rfl
      · simpa [*] using hp
  exact fun b hb => h _ _ (.inl (List.mem_map_of_mem hb))

theorem pinHeld_free (e : QEnt) (t : Nat) (rd : List Nat) (s : State) : ∀ b ∈ pinBanks e.words,
    SMap.get 0 (pinHeld e t rd s).pin.free (pinionOf s.grade b) = t := by
  unfold pinHeld
  extract_lets u
  have hg : (noteReads { u with free := u.free + 2 ^ 32 } rd).grade = s.grade := by simp [u]
  rw [← hg]
  exact holdPinions_free _ _ _

theorem startPinRun_good {s : State} {e : QEnt} (hs : settledAc s (runStart e s) = true)
    (hok : pinOk (advance (2 * runStart e s) s) e = true)
    (hacc : accessFault (advance (2 * runStart e s) s) ownPin e.ctx (fun _ => false)
      (runGrans (advance (2 * runStart e s) s) e.words (pIns e.words))
      (runGrans (advance (2 * runStart e s) s) e.words (pOuts e.words)) = none) :
    let u := advance (2 * runStart e s) s
    let rd := runGrans u e.words (pIns e.words)
    let wr := runGrans u e.words (pOuts e.words)
    let occ := occupancy u ownPin (ceilDiv (pElems e.words * pSteps e.words) (2 * lanesOf (pType e.words))) rd wr
    Started .pin e (runStart e s) occ (pSteps e.words + 8) (pinEffs u e u.free) u (startPinRun e s) ∧
      ∀ b ∈ pinBanks e.words, SMap.get 0 (startPinRun e s).pin.free (pinionOf s.grade b) = runStart e s + occ := by
  unfold startPinRun
  simp only [startAt_due hs, hok, hacc, Bool.true_eq_false, if_false]
  refine ⟨((pinHeld_startKept e _ _ _).trans (pin_startKept ..)).beginSpan .., ?_⟩
  simp only [beginSpan_rest]
  intro b hb
  exact (congrArg (fun g => SMap.get 0 _ (pinionOf g b)) (by simp)).trans (pinHeld_free e _ _ (advance (2 * runStart e s) s) b hb)

end Sys2Proof.Machine

section
open Sys2Proof Sys2Proof.Machine Host

/-- Settles O13: a good head passes its checks in the AC that `headStart` gives, and its span begins there. -/
theorem timedHeadsStart : Obligations.TimedHeadsStart := by
  intro s q e rest a hqe ha hs hd hn u ws op Starts
  have htrip : s.pwr.tripped = false := by
    by_contra ht
    simp [headStart, hqe, ht] at ha
  refine ⟨fun strip hq hop hok hacc => ?_, fun trow hq hop hok hrow hadd hacc => ?_, fun hq hop hok hent hbad hacc => ?_,
    fun hq hok hacc => ?_, fun hq hok hf => ?_, fun hq hop hok hacc => ?_⟩ <;> subst hq
  · replace hop : wd e.words 0 % 256 = if strip then 0x11 else 0x10 := hop
    obtain rfl : fillGo e s = a := by cases strip <;> simpa [headStart, hqe, htrip, hop] using ha
    obtain ⟨h1, h2⟩ := startFill_good hs hok hacc
    exact ⟨_, exec_head (by simp) hn ha hd (by cases strip <;> simp [startHead, hqe, startMxe, hop]), h1.starts hqe, h2⟩
  · replace hop : wd e.words 0 % 256 = 0x13 := hop
    obtain ⟨hgate, hst⟩ : bit (wd e.words 5) 23 = false ∧ streamStart e s = some a := by
      simpa [headStart, hqe, htrip, hop] using ha
    obtain ⟨h1, h2⟩ := startStream_good hn hs hst hok hrow hadd hacc
    exact ⟨_, exec_head (by simp) hn ha hd (by simp [startHead, hqe, startMxe, hop, hgate]), h1.starts hqe, h2⟩
  · replace hop : wd e.words 0 % 256 = 0x14 := hop
    obtain rfl : cvtStart e s = a := by simpa [headStart, hqe, htrip, hop] using ha
    obtain ⟨h1, h2⟩ := startFtqCvt_good hn hs hok hent hbad hacc
    exact ⟨_, exec_head (by simp) hn ha hd (by simp [startHead, hqe, startMxe, hop]), h1.starts hqe, h2⟩
  · obtain rfl : txbStart e s = a := by simpa [headStart, hqe, htrip] using ha
    obtain ⟨h1, h2⟩ := startTxb_good hs hok hacc
    exact ⟨_, exec_head (by simp) hn ha hd (by simp [startHead, hqe]), h1.starts hqe, h2⟩
  · obtain rfl : vxeStart e s = a := by simpa [headStart, hqe, htrip] using ha
    obtain ⟨h1, h2⟩ := startVxe_good hn hs hok hf
    exact ⟨_, exec_head (by simp) hn ha hd (by simp [startHead, hqe]), h1.starts hqe, h2⟩
  · replace hop : wd e.words 0 % 256 = 0x24 := hop
    obtain rfl : runStart e s = a := by simpa [headStart, hqe, htrip, hop] using ha
    obtain ⟨h1, h2⟩ := startPinRun_good hs hok hacc
    exact ⟨_, exec_head (by simp) hn ha hd (by simp [startHead, hqe, hop]), h1.starts hqe, h2⟩
end

/-!
## Done: what a completion changes (R33, R210)
-/

namespace Sys2Proof.Machine

/-! ### The command that completes next -/

/-- The older of those that are done first completes next (R33). -/
theorem nextDone_head (r : Run) (rest : List Run)
    (h : ∀ x ∈ rest, r.doneAc < x.doneAc ∨ (r.doneAc = x.doneAc ∧ doneOrder r ≤ doneOrder x)) : nextDone (r :: rest) = some r := by
  unfold nextDone
  simp only [List.foldl_cons]
  induction rest with
  | nil => rfl
  | cons x rest ih =>
    have hx := h x (by simp)
    simp only [List.foldl_cons]
    rw [if_neg (by omega)]
    exact ih fun y hy => h y (by simp [hy])

/-! ### A command that meets no other -/

theorem spanOf_single {s : State} {r : Run} {x : Span} (h : s.spans = [(r.seat, x)]) : spanOf s r.seat = x := by
  simp [spanOf, SMap.get, h]

theorem firstDue_alone {s : State} {r : Run} (h : s.runs = [r]) (t g : Nat) : firstDue s t (some r.seat) g = none := by
  simp [firstDue, h]

theorem touch_alone {s : State} {r : Run} (h : s.runs = [r]) (n t g : Nat) : touch n t (some r.seat) g s = s := by
  cases n with
  | zero => rfl
  | succ n => rw [touch, firstDue_alone h]

theorem settleReads_alone {s : State} {r : Run} {x : Span} (h : s.runs = [r]) (hx : s.spans = [(r.seat, x)]) (hd : x.dirty = false)
    (t : Nat) : settleReads t r.seat s = s := by
  have hf (l : List Nat) : l.foldl (fun s h => touch (touchFuel s) (Nat.min t (readEc s r.seat (spanOf s r.seat) h)) (some r.seat) h s) s = s := by
    induction l with
    | nil => rfl
    | cons g l ih => rw [List.foldl_cons, touch_alone h]; exact ih
  rw [settleReads, hf, freshen, spanOf_single hx, hd]

theorem Alone.congr {s t : State} {r : Run} (h : Alone s r) (hr : t.runs = s.runs) (hs : t.spans = s.spans) : Alone t r := by
  unfold Alone; rw [hr, hs]; exact h

/-- A command that meets no other makes its own changes at its done AC (R33). -/
theorem settleRun_alone {s : State} {r : Run} (h : Alone s r) : settleRun r s = (s, r, r.effs) := by
  obtain h | ⟨hr, x, hx, hd, hl⟩ := h
  · rw [settleRun, if_pos h]
  · have hrun : (runOf s r.seat).getD r = r := by simp [runOf, hr]
    have hal : alone r s = true := by simp [alone, spanOf_single hx, hl, hx, hr]
    unfold settleRun
    split
    · rfl
    · simp only [settleReads_alone hr hx hd, hrun, hal, if_true]

/-! ### What one change of a completion leaves -/

/-- What a change of a command leaves as it is: the EC, the queues, the running commands; no arrival comes to be carried. -/
structure DoneKept (s t : State) : Prop where
  ec : t.ec = s.ec
  queues : t.queues = s.queues
  runs : t.runs = s.runs
  carried : NoneCarried s → NoneCarried t

namespace DoneKept
variable {s t u : State}

theorem refl (s : State) : DoneKept s s := ⟨rfl, rfl, rfl, id⟩

theorem trans (h : DoneKept s t) (h' : DoneKept t u) : DoneKept s u :=
  ⟨h'.ec.trans h.ec, h'.queues.trans h.queues, h'.runs.trans h.runs, h'.carried ∘ h.carried⟩

theorem of_xfer (he : t.ec = s.ec) (hq : t.queues = s.queues) (hr : t.runs = s.runs) (hx : t.xfer = s.xfer) : DoneKept s t :=
  ⟨he, hq, hr, fun h a ha => h a (hx ▸ ha)⟩

end DoneKept

theorem NoneCarried.congr {s t : State} (h : NoneCarried s) (hx : t.xfer = s.xfer) : NoneCarried t := by
  unfold NoneCarried; rw [hx]; exact h

theorem modCtx_doneKept (c : Ctx) (f : CtxSt → CtxSt) (s : State) : DoneKept s (modCtx s c f) := .of_xfer rfl rfl rfl rfl
theorem modMxe_doneKept (f : MxeSt → MxeSt) (s : State) : DoneKept s (modMxe f s) := .of_xfer rfl rfl rfl rfl
theorem setFtq_doneKept (n : Nat) (x : Ftq) (s : State) : DoneKept s (setFtq n x s) := .of_xfer rfl rfl rfl rfl
theorem modSct_doneKept (n : Nat) (f : Sct → Sct) (s : State) : DoneKept s (modSct n f s) := .of_xfer rfl rfl rfl rfl
theorem modSpan_doneKept (n : Nat) (f : Span → Span) (s : State) : DoneKept s (modSpan n f s) := .of_xfer rfl rfl rfl rfl
theorem addTot_doneKept (i n : Nat) (s : State) : DoneKept s (addTot i n s) := by
  unfold addTot
  split
  · exact .refl s
  · exact .of_xfer rfl rfl rfl rfl

theorem addSummary_doneKept (c : Ctx) (f : Flags) (tag : Nat) (s : State) : DoneKept s (addSummary c f tag s) := by
  unfold addSummary
  split
  · exact .refl s
  · exact modCtx_doneKept ..

theorem landIn_doneKept (r : Run) (n stamp : Nat) (acc : Bool) (rows : List (Nat × Nat × List W32)) (s : State) :
    DoneKept s (landIn r n stamp acc rows s).1 := by
  unfold landIn
  split
  · exact .refl s
  · dsimp only
    exact (setFtq_doneKept ..).trans (modMxe_doneKept ..)

theorem applySums_doneKept (r : Run) (n stamp : Nat) (acc : Bool) (rows : List (Nat × Nat × List W32)) (s : State) :
    DoneKept s (applySums r n stamp acc rows s).1 := by
  unfold applySums
  dsimp only
  exact (landIn_doneKept ..).trans ((setFtq_doneKept ..).trans (modMxe_doneKept ..))

theorem raise_doneKept (cls p op v : Nat) (cause : Cause) (s : State) : DoneKept s (raise cls p op v cause s) :=
  .of_xfer (by simp) (by simp) (by simp) (by rw [raise_frame])

/-! ### An atomic at its done AC -/

theorem atomRead_doneKept (r : Run) (bs : List W8) (s : State) : DoneKept s (atomRead r bs s) := by
  unfold atomRead
  induction r.effs generalizing s with
  | nil => exact .refl s
  | cons e l ih =>
    rw [List.foldl_cons]
    refine DoneKept.trans ?_ (ih _)
    split
    · dsimp only
      split
      · exact .refl s
      · exact modSpan_doneKept ..
    · exact .refl s

theorem writeAt_doneKept (t : Nat) (self : Option Nat) (g : Nat) (p : Nat × List W8) (s : State) : DoneKept s (writeAt t self g s p) := by
  unfold writeAt
  split
  · exact .refl s
  · dsimp only
    split <;> exact .of_xfer rfl rfl rfl rfl

/-- With nothing carried nothing is passed on. -/
theorem passOn_doneKept (p : Nat) (q : Option Nat) (s : State) (h : NoneCarried s) : DoneKept s (passOn p q s) := by
  refine ⟨rfl, rfl, rfl, fun _ a ha => ?_⟩
  obtain ⟨b, hb, rfl⟩ := List.mem_map.1 ha
  simp [h b hb]

theorem landAtom_doneKept (r : Run) (g t : Nat) (s : State) (h : NoneCarried s) : DoneKept s (landAtom r g t s) := by
  have hu (bs) : DoneKept s (if (spanOf s r.seat).took = none then atomRead r bs s else s) := by
    split
    · exact atomRead_doneKept ..
    · exact .refl s
  unfold landAtom
  extract_lets u
  have hu : DoneKept s u := hu _
  split
  · rename_i q _
    have hv := (hu.trans (u := dropAtom r g u) (modSpan_doneKept ..)).trans (atomRead_doneKept q (spanOf u r.seat).result _)
    exact hv.trans (passOn_doneKept _ _ _ (hv.carried h))
  · exact hu.trans ((writeAt_doneKept ..).trans (modSpan_doneKept ..))

theorem applyEff_doneKept (r : Run) (e : Eff) (s : State) (h : NoneCarried s) : DoneKept s (applyEff r e s).1 := by
  cases e
  case atom a op v cmp d =>
    have hz : DoneKept s (addTot tATOMS 1 (if a / 64 * 64 ∈ (spanOf s r.seat).landed then s
        else landAtom r (a / 64 * 64) (writeEc s r (a / 64 * 64)) s)) := by
      refine DoneKept.trans ?_ (addTot_doneKept ..)
      split
      · exact .refl s
      · exact landAtom_doneKept _ _ _ _ h
    unfold applyEff
    dsimp only
    split
    · exact hz.trans (modCtx_doneKept ..)
    · exact hz
  case mem a bs => exact .of_xfer (by simp [applyEff]) (by simp [applyEff]) (by simp [applyEff]) rfl
  case sums n stamp acc rows => exact applySums_doneKept ..
  case pennant p op v => exact raise_doneKept ..
  case lane w f => exact modCtx_doneKept ..
  case summary f => exact .refl s
  case laneClear => exact modCtx_doneKept ..
  case fold k amax nf => exact modSct_doneKept ..
  case jit k o => exact modSct_doneKept ..
  case sctSet k op v => exact modSct_doneKept ..
  case sctRead k sel d => exact modCtx_doneKept ..
  case fill strip fmt kind rank lines => exact .of_xfer rfl rfl rfl rfl
  case swap => exact .of_xfer rfl rfl rfl rfl
  case accFlags f => exact .of_xfer rfl rfl rfl rfl
  case txb sel off bs => exact .of_xfer rfl rfl rfl rfl
  case gen q st => exact .refl s
  case readsTxb sel => exact .refl s

/-! ### The completion of a command that meets no other -/

/-- The machine in which a completing command makes its changes: its done AC has come, its units idle, it runs no more. -/
def atDone (r : Run) (s : State) : State :=
  { noteActive r (advance (2 * r.doneAc) s) with runs := s.runs.erase r }

/-- What a completion notes after the command's changes: its summary, its engine's last command, its retirement. -/
def noteDone (r : Run) (f : Flags) (s : State) : State :=
  let u := retireSpan r.seat (landCarried r.seat (noteLast r f (addSummary r.ctx f r.tag s)))
  trace { kind := 4, ctx := some r.ctx, opcode := r.opcode, tag := r.tag, time := 2 * r.doneAc, argA := f.toNat } u

theorem sctSlot_modSct_ne {n m : Nat} (f : Sct → Sct) (h : m ≠ n) (s : State) : sctSlot (modSct n f s) m = sctSlot s m := by
  simp [sctSlot, modSct, SMap.get_mod, h]

theorem landCarried_none {s : State} (h : NoneCarried s) (seat : Nat) : landCarried seat s = s := by
  have hnil : s.xfer.arrivals.filter (fun a => decide (a.carrier = some seat)) = [] :=
    List.filter_eq_nil_iff.2 fun a ha => by simp [h a ha]
  rw [landCarried, hnil]; rfl

theorem noteLast_doneKept (r : Run) (f : Flags) (s : State) : DoneKept s (noteLast r f s) := by
  unfold noteLast
  split
  · exact .of_xfer rfl rfl rfl rfl
  · exact .of_xfer rfl rfl rfl rfl
  · exact .of_xfer rfl rfl rfl rfl
  · exact .refl s

theorem noteDone_doneKept (r : Run) (f : Flags) (s : State) (h : NoneCarried s) : DoneKept s (noteDone r f s) := by
  have h1 := (addSummary_doneKept r.ctx f r.tag s).trans (noteLast_doneKept r f _)
  unfold noteDone
  rw [landCarried_none (h1.carried h)]
  exact h1.trans (.of_xfer rfl rfl rfl rfl)

/-- A command without flags changes nothing but what its engine shows of its last command. -/
theorem noteDone_fNone (r : Run) (s : State) (h : NoneCarried s) :
    (noteDone r fNone s).mem = s.mem ∧ (noteDone r fNone s).ctxs = s.ctxs ∧ (noteDone r fNone s).sct = s.sct ∧
    (noteDone r fNone s).mxe = s.mxe ∧ (noteDone r fNone s).syn = s.syn := by
  have h1 : addSummary r.ctx fNone r.tag s = s := rfl
  unfold noteDone
  rw [h1, landCarried_none ((noteLast_doneKept r fNone s).carried h)]
  unfold noteLast
  split <;> exact ⟨rfl, rfl, rfl, rfl, rfl⟩

theorem finishRun_alone {s : State} {r : Run} {f : Eff} (hal : Alone s r) (hf : r.effs = [f]) (h13 : r.opcode ≠ 0x13) :
    let x := applyEff r f (atDone r s)
    let t := noteDone r (fNone ||| x.2) x.1
    finishRun r s = if r.opcode = 0x16 then advance (2 * r.doneAc + 1) t else t := by
  have hset : settleRun r (noteActive r (advance (2 * r.doneAc) s)) = (noteActive r (advance (2 * r.doneAc) s), r, [f]) := by
    rw [settleRun_alone (hal.congr (by simp [noteActive]) (by simp [noteActive])), hf]
  have hruns : (noteActive r (advance (2 * r.doneAc) s)).runs = s.runs := by simp [noteActive]
  unfold finishRun
  simp only [hset, hruns, h13, if_false]
  rfl

/-- A completion that has made its changes: the command runs no more, and time has come to its done AC. -/
theorem noteDone_completes {s : State} {r : Run} {rest : List Run} {f : Eff} (hr : s.runs = r :: rest) (hn : NoneCarried s) :
    let x := applyEff r f (atDone r s)
    let t := noteDone r (fNone ||| x.2) x.1
    t.runs = rest ∧ t.queues = s.queues ∧ t.ec = Nat.max s.ec (2 * r.doneAc) ∧ NoneCarried x.1 := by
  have h0 : NoneCarried (atDone r s) := hn.congr (by simp [atDone, noteActive])
  have h1 := applyEff_doneKept r f (atDone r s) h0
  have h2 := h1.trans (noteDone_doneKept r (fNone ||| (applyEff r f (atDone r s)).2) _ (h1.carried h0))
  refine ⟨h2.runs.trans ?_, h2.queues.trans ?_, h2.ec.trans ?_, h1.carried h0⟩
  · simp [atDone, hr]
  · simp [atDone, noteActive]
  · simp [atDone, noteActive, advance_ec]

/-- What a completion finds of memory, contexts, trackers, the matrix engine and what is due. -/
theorem atDone_finds {s : State} (h : NothingDue s) (r : Run) : (atDone r s).mem = s.mem ∧ (atDone r s).ctxs = s.ctxs ∧
    (atDone r s).sct = s.sct ∧ (atDone r s).mxe = s.mxe ∧ (atDone r s).syn = s.syn := by
  simp [atDone, noteActive, advance_pass h]

/-- The time that a completion takes; a SCT.READ has the EC after its done AC to itself (R63). -/
theorem finishRun_completes {s : State} {r : Run} {rest : List Run} {f : Eff} (hr : s.runs = r :: rest) (hf : r.effs = [f])
    (h13 : r.opcode ≠ 0x13) (hal : Alone s r) (hn : NoneCarried s) :
    (finishRun r s).runs = rest ∧ (finishRun r s).queues = s.queues ∧
      (finishRun r s).ec = Nat.max s.ec (2 * r.doneAc + if r.opcode = 0x16 then 1 else 0) := by
  obtain ⟨hruns, hqueues, hec, -⟩ := noteDone_completes (f := f) hr hn
  rw [finishRun_alone hal hf h13]
  split
  · refine ⟨by simpa using hruns, by simpa using hqueues, ?_⟩
    rw [advance_ec, hec]
    simp only [Nat.max_def]
    split_ifs <;> omega
  · exact ⟨hruns, hqueues, hec⟩

/-- A change that raises no flag and nothing of the pennants is all that its command's completion changes. -/
theorem finishRun_changes {s : State} {r : Run} {rest : List Run} {f : Eff} (hr : s.runs = r :: rest) (hf : r.effs = [f])
    (h13 : r.opcode ≠ 0x13) (hal : Alone s r) (hn : NoneCarried s) (hdue : NothingDue s) {u : State}
    (hu : applyEff r f (atDone r s) = (u, fNone)) (hsyn : u.syn = s.syn) :
    (finishRun r s).mem = u.mem ∧ (finishRun r s).ctxs = u.ctxs ∧ (finishRun r s).sct = u.sct ∧
      (finishRun r s).mxe = u.mxe := by
  obtain ⟨-, -, -, hnone⟩ := noteDone_completes (f := f) hr hn
  rw [finishRun_alone hal hf h13]
  rw [hu] at hnone ⊢
  obtain ⟨hm, hc, hs, hx, hy⟩ := noteDone_fNone r u hnone
  have hdue' : NothingDue (noteDone r (fNone ||| fNone) u) := by
    unfold NothingDue
    rw [show fNone ||| fNone = fNone from rfl, hy, hsyn]; exact hdue
  dsimp only
  rw [advance_pass hdue']
  split
  · simp only [pass_rest]; exact ⟨hm, hc, hs, hx⟩
  · exact ⟨hm, hc, hs, hx⟩

end Sys2Proof.Machine

section
open Sys2Proof Sys2Proof.Machine Host

/-- Settles O15: a command that meets no other completes by its changes in their order, `applyEff`, and by notes of its
retirement that reach neither memory nor trackers. -/
theorem doneCommandChangesWhatItCarries : Obligations.DoneCommandChangesWhatItCarries := by
  intro s r rest f hr hf h13 hal hn hdue htrip hd hrest
  have hx : exec .commandDone s = .next (finishRun r s) := by
    have hl : nextDone (liveRuns s) = some r := by rw [liveRuns, htrip, hr]; exact nextDone_head r rest hrest
    show execCommandDone s = _
    simp [execCommandDone, hl, hd]
  obtain ⟨hm0, hc0, hs0, hx0, hy0⟩ := atDone_finds hdue r
  obtain ⟨h1, h2, h3⟩ := finishRun_completes hr hf h13 hal hn
  refine ⟨_, hx, h1, h2, h3, ?_⟩
  refine ⟨fun a bs h => ?_, fun h => ?_, fun k op v h => ?_, fun k sel d h => ?_, fun h => ?_⟩ <;> subst h
  · obtain ⟨hm, hc, hs, -⟩ := finishRun_changes hr hf h13 hal hn hdue rfl (by simpa using hy0)
    refine ⟨by simpa [hc0] using hc, by simpa [hs0] using hs, fun k => ?_⟩
    rw [readByte_congr _ hm, readByte_writeBytes, readByte_congr s hm0]
  · obtain ⟨hm, hc, hs, hx⟩ := finishRun_changes hr hf h13 hal hn hdue rfl hy0
    exact ⟨hm.trans hm0, hc.trans hc0, hs.trans hs0, by rw [hx]; exact congrArg MxeSt.shadow hx0,
      by rw [hx]; exact congrArg MxeSt.active hx0, by rw [hx]; exact congrArg MxeSt.stripShadow hx0,
      by rw [hx]; exact congrArg MxeSt.stripActive hx0⟩
  · obtain ⟨hm, hc, hs, -⟩ := finishRun_changes hr hf h13 hal hn hdue rfl hy0
    have hk (j : Nat) : sctSlot (finishRun r s) j = sctSlot (modSct k (sctOp op v) (atDone r s)) j := by rw [sctSlot, hs]; rfl
    have h0 (j : Nat) : sctSlot (atDone r s) j = sctSlot s j := by rw [sctSlot, hs0]; rfl
    refine ⟨hm.trans hm0, hc.trans hc0, by rw [hk, sctSlot_modSct_same, h0], fun j hj => ?_⟩
    rw [hk, sctSlot_modSct_ne _ hj, h0]
  · obtain ⟨hm, hc, hs, -⟩ := finishRun_changes hr hf h13 hal hn hdue rfl hy0
    refine ⟨hm.trans hm0, (hs.trans hs0), ?_, fun c hcr => ?_⟩
    · rw [ctx_congr _ hc, ctx_modCtx_same, ctx_congr s hc0, sctSlot, hs0]; rfl
    · rw [ctx_congr _ hc, ctx_modCtx_ne _ _ _ _ hcr, ctx_congr s hc0]
  · obtain ⟨hm, hc, hs, -⟩ := finishRun_changes hr hf h13 hal hn hdue rfl hy0
    refine ⟨hm.trans hm0, (hs.trans hs0), ?_, fun c hcr => ?_⟩
    · rw [ctx_congr _ hc, ctx_modCtx_same, ctx_congr s hc0]
    · rw [ctx_congr _ hc, ctx_modCtx_ne _ _ _ _ hcr, ctx_congr s hc0]
end

/-!
## The gate: arrival, deadline and take (R79, R80)
-/

namespace Sys2Proof.Machine

/-- The pennant of a gated STREAM, and the columns that the gate takes from it (R79). -/
abbrev gateP (e : QEnt) : Nat := bits (wd e.words 6) 21 10
abbrev gateM (s : State) (e : QEnt) : Nat := Nat.min (pennant s (gateP e)) 256

/-! ### The arrival at the gate, its deadline, the fall of the level -/

/-- With nothing due before, what an AC brings is alone in the order of what is due. -/
theorem dueEval_first {s : State} (h : NothingDue s) (p k : Nat) : dueEval p k s = { s with syn := { s.syn with evals := [(k, p)] } } := by
  rw [dueEval, dueAtEnd, show s.syn.evals = [] from h]; rfl

theorem streamRow_congr {s t : State} (ha : t.mxe.active = s.mxe.active) (hs : t.mxe.stripActive = s.mxe.stripActive)
    (ws : List Nat) : streamRow t ws = streamRow s ws := by simp only [streamRow, ha, hs]

/-- The sets behind the swaps do not depend on the time. -/
theorem streamRow_behindSwaps {s t : State} (hr : t.runs = s.runs) (hm : t.mxe = s.mxe) (ws : List Nat) :
    streamRow (behindSwaps t) ws = streamRow (behindSwaps s) ws := by
  apply streamRow_congr <;> simp only [behindSwaps, hr] <;> split <;> simp [applySwap, modMxe, hm]

theorem readyAc_congr {s t : State} (h : t.headAt = s.headAt) (q : QName) (e : QEnt) : readyAc t q e = readyAc s q e := by
  rw [readyAc, h]; rfl

theorem arrayLevelFall {s : State} (hd : NothingDue s) (hup : s.mxe.lvlUp = false) (hl : 0 < s.mxe.lvl) :
    exec .arrayLevelFall s = .next (modMxe (fun m => { m with lvl := m.lvl - 1, lvlAc := m.lvlAc + 8 })
      (pass (2 * (s.mxe.lvlAc + 8)) s)) := by
  show execArrayLevelFall s = _
  simp [execArrayLevelFall, hup, show s.mxe.lvl ≠ 0 by omega, advance_pass hd]

theorem gateArrival {s : State} {e : QEnt} {n : Nat} (hd : NothingDue s) (he : gatedHead s = some e) (hg : s.mxe.gate = none)
    (ht : s.pwr.tripped = false) (hok : streamOk true e = true) (hrow : streamRow (behindSwaps s) e.words = some n)
    (hs : settledAc s (readyAc s .mxe e) = true) :
    let u := pass (2 * readyAc s .mxe e) s
    let p := gateP e
    exec .gateArrival s = .next (dueEval p (ac u)
      (modMxe (fun m => { m with gate := some ⟨readyAc s .mxe e, false, false, p, gateOpens e.words⟩ }) u)) := by
  extract_lets u p
  show execGateArrival s = _
  have hrow' : streamRow (behindSwaps u) e.words = some n := (streamRow_behindSwaps (by simp [u]) (by simp [u]) _).trans hrow
  have hready : readyAc u .mxe e = readyAc s .mxe e := readyAc_congr (by simp [u]) _ _
  simp [execGateArrival, he, hg, ht, startAt_due hs, advance_pass hd, hok, hrow', hready, u, p]

/-! ### The release of the gate -/

theorem gateSample_gate (p : Nat) (s : State) : ∃ g, gateSample p s = { s with mxe := { s.mxe with gate := g } } := by
  unfold gateSample
  split
  · split
    · exact ⟨_, rfl⟩
    · exact ⟨s.mxe.gate, rfl⟩
  · exact ⟨s.mxe.gate, rfl⟩

/-- An evaluation of a pennant that nothing waits on and that no update of the AC reaches is a sample of the gate. -/
theorem evalTops_unused {s : State} {p : Nat} (hw : ∀ w ∈ s.syn.waits, w.pennant ≠ p) (hu : ∀ x ∈ s.syn.upds, x.p ≠ p) (k : Nat) :
    evalTops p k s = gateSample p { s with syn := openEval p k s.syn } := by
  have hsat : saturations p s.syn.upds = [] := by
    have : s.syn.upds.filter (fun u => decide (u.p = p)) = [] := List.filter_eq_nil_iff.2 fun x hx => by simp [hu x hx]
    rw [saturations, this]
  have hnil : (if s.syn.updAc = k then saturations p s.syn.upds else []) = [] := by split <;> simp [hsat]
  unfold evalTops
  obtain ⟨g, hg⟩ := gateSample_gate p { s with syn := openEval p k s.syn }
  rw [hnil, List.foldl_nil]
  dsimp only
  rw [hg]
  exact releaseThresholds_other _ _ _ _ fun w hw' => hw w (List.mem_filter.1 hw').1

/-- The gate takes its columns from the pennant, shows them and releases the context of the STREAM (R79, R80). -/
def gateTakes (e : QEnt) (a : Nat) (s : State) : State :=
  let p := gateP e
  let n := pennant s p
  let M := Nat.min n 256
  let s := setPennant p (n - M) (evalTops p a s)
  let s := releaseTakes p a s.syn.waits s
  let s := modCtx s e.ctx (fun x =>
    { landAreg a 5 (bits (wd e.words 6) 25 22) (BitVec.ofNat 64 M) x with
      point := if x.point = .gated then .releasing a else x.point })
  let s := modMxe (fun m =>
    { m with gate := none, lastM := M, lastByDeadline := decide (n < 256), releases := (m.releases + 1) % 2 ^ 32 }) s
  let s := trace { kind := 5, ctx := some e.ctx, opcode := 0x13, tag := e.tag, time := s.ec, argB := p } s
  if s.dispatched = some e.ctx then forgetTxb e.ctx s else s

/-- What the gate shows and takes (R79, R80): all but that stays, up to the transposing buffers. -/
structure GateTook (e : QEnt) (a : Nat) (s t : State) : Prop where
  mem : t.mem = s.mem
  queue : queue t .mxe = queue s .mxe
  ctx : ctx t e.ctx = { landAreg a 5 (bits (wd e.words 6) 25 22)
      (BitVec.ofNat 64 (gateM s e)) (ctx s e.ctx) with
    point := if (ctx s e.ctx).point = .gated then .releasing a else (ctx s e.ctx).point }
  ctxs : ∀ c : Ctx, c ≠ e.ctx → Machine.ctx t c = Machine.ctx s c
  taken : pennant t (gateP e) =
    pennant s (gateP e) - gateM s e
  pennants : ∀ x, x ≠ gateP e → pennant t x = pennant s x
  gate : t.mxe.gate = none
  lastM : t.mxe.lastM = gateM s e
  lastByDeadline : t.mxe.lastByDeadline = decide (pennant s (gateP e) < 256)
  releases : t.mxe.releases = (s.mxe.releases + 1) % 2 ^ 32
  ftq : t.mxe.ftq = s.mxe.ftq
  noStream : NoStream s → NoStream t

theorem queue_forgetTxb_ne (c : Ctx) (s : State) {q : QName} (hq : q ≠ .txb) : queue (forgetTxb c s) q = queue s q := by
  rw [queue_congr (setQueue s .txb ((queue s .txb).map (fun e => if e.ctx = c then { e with stale := true } else e)))
    (t := forgetTxb c s) rfl, queue_setQueue_ne _ _ _ _ hq]

/-- The transposing buffers of a context are not the gate's business. -/
theorem GateTook.forgetTxb {e : QEnt} {a : Nat} {s t : State} (h : GateTook e a s t) (c : Ctx) : GateTook e a s (forgetTxb c t) where
  mem := h.mem
  queue := (queue_forgetTxb_ne c t (by decide)).trans h.queue
  ctx := h.ctx
  ctxs := h.ctxs
  taken := h.taken
  pennants := h.pennants
  gate := h.gate
  lastM := h.lastM
  lastByDeadline := h.lastByDeadline
  releases := h.releases
  ftq := h.ftq
  noStream hs r hr := by
    obtain ⟨q, hq, rfl⟩ := List.mem_map.1 hr
    have := h.noStream hs q hq
    split <;> exact this

theorem gateTakes_took {s : State} {e : QEnt} (a : Nat) (hw : ∀ w ∈ s.syn.waits, w.pennant ≠ gateP e)
    (hu : ∀ x ∈ s.syn.upds, x.p ≠ gateP e) : GateTook e a s (gateTakes e a s) := by
  obtain ⟨g, hg⟩ := gateSample_gate (gateP e) { s with syn := openEval (gateP e) a s.syn }
  unfold gateTakes
  extract_lets p n M s1 s2 s3 s4 s5
  have h1 : s1 = setPennant p (n - M) { s with syn := openEval p a s.syn, mxe := { s.mxe with gate := g } } := by
    simp only [s1]; rw [evalTops_unused hw hu, hg]
  have h2 : s2 = s1 := releaseTakes_other _ _ _ _ fun w hw' => by
    rw [h1] at hw'; exact hw w (List.mem_filter.1 hw').1
  have hq : s5.queues = s.queues := by simp [s5, s4, s3, h2, h1]
  have hc : s5.ctxs = (modCtx s e.ctx (fun x => { landAreg a 5 (bits (wd e.words 6) 25 22) (BitVec.ofNat 64 M) x with
      point := if x.point = .gated then .releasing a else x.point })).ctxs := by
    simp only [s5, s4, s3, h2, h1, modCtx, modMxe, trace, setPennant]
  have hy : s5.syn.count = SMap.set 0 s.syn.count p (n - M) := by
    simp only [s5, s4, s3, h2, h1, modCtx, modMxe, trace, setPennant, openEval]
  have hx : s5.mxe = { s.mxe with
      gate := none, lastM := M, lastByDeadline := decide (n < 256), releases := (s.mxe.releases + 1) % 2 ^ 32 } := by
    simp only [s5, s4, s3, h2, h1, modCtx, modMxe, trace, setPennant]
  have h5 : GateTook e a s s5 := by
    refine ⟨by simp [s5, s4, s3, h2, h1], queue_congr s hq _, ?_, fun c hce => ?_, ?_, fun x hxp => ?_, by rw [hx], by rw [hx], by rw [hx],
      by rw [hx], by rw [hx], fun hn => hn.congr (by simp [s5, s4, s3, h2, h1])⟩
    · rw [ctx_congr _ hc, ctx_modCtx_same]
    · rw [ctx_congr _ hc, ctx_modCtx_ne _ _ _ _ hce]
    · rw [pennant, hy]; exact SMap.get_set_same ..
    · rw [pennant, hy]; exact SMap.get_set_ne _ hxp
  split
  · exact h5.forgetTxb _
  · exact h5

end Sys2Proof.Machine

/-!
## The entry of a gated STREAM (R76, R79)
-/

namespace Sys2Proof.Machine

theorem bankBytes_congr {s t : State} (hg : t.grade = s.grade) : bankBytes t = bankBytes s := by rw [bankBytes, hg]; rfl

theorem regionOf_congr {s t : State} (hg : t.grade = s.grade) (hc : t.cm = s.cm) (g : Nat) : regionOf t g = regionOf s g := by
  unfold regionOf mxeBufBytes vxeBufBytes
  rw [bankBytes_congr hg, hc]

/-- As in `noteRead_ind`, the definition is taken as an unknown function before it is unfolded. -/
theorem mayUse_congr {s t : State} (hg : t.grade = s.grade) (hc : t.cm = s.cm) (c : Ctx) (g : Nat) : mayUse t c g = mayUse s c g := by
  generalize hf : mayUse = f
  delta mayUse at hf
  subst hf
  beta_reduce
  rw [regionOf_congr hg hc, hc]

/-- The access checks look at the map, the partitions, the banks' power and check bits. -/
theorem accessFault_congr {s t : State} (hg : t.grade = s.grade) (hc : t.cm = s.cm) (hb : t.banks = s.banks) (he : t.ecc = s.ecc)
    (owner : Nat) (c : Ctx) (ok : Region → Bool) (rd wr : List Nat) :
    accessFault t owner c ok rd wr = accessFault s owner c ok rd wr := by
  have h1 : mayUse t c = mayUse s c := funext (mayUse_congr hg hc c)
  have h2 : granUncorrectable t = granUncorrectable s := by funext g; unfold granUncorrectable eccMark; rw [he]
  have h3 : noSlotBank t owner = noSlotBank s owner := by funext gs; unfold noSlotBank slotsOf; rw [hg, hc]
  have h4 : bankOpen t = bankOpen s := by funext b; unfold bankOpen bank; rw [hb]
  have h5 : bankGranules t = bankGranules s := by funext gs; unfold bankGranules; rw [bankBytes_congr hg]
  have h6 : badGranule t c ok = badGranule s c ok := by
    funext gs; unfold badGranule; simp only [regionOf_congr hg hc, h1]
  unfold accessFault
  rw [h2, h3, h4, h5, h6, hg]

/-! ### The matrix engine of a STREAM that enters -/

theorem noteReads_mxe (gs : List Nat) (s : State) : (noteReads s gs).mxe = s.mxe := by
  unfold noteReads
  induction gs generalizing s with
  | nil => rfl
  | cons g gs ih => exact (ih _).trans (noteRead_ind s g (P := fun t => t.mxe = s.mxe) rfl fun _ _ => rfl)

theorem addTot_mxe (i n : Nat) (s : State) : (addTot i n s).mxe = s.mxe := by unfold addTot; split <;> rfl

theorem claims_mxe (acc : Bool) (c : Ctx) (a : Nat) (ns : List Nat) (s : State) :
    ∃ f, (claims acc c a ns s).mxe = { s.mxe with ftq := f } := by
  unfold claims
  induction ns generalizing s with
  | nil => exact ⟨s.mxe.ftq, rfl⟩
  | cons n ns ih =>
    obtain ⟨f, hf⟩ := ih (claim acc c a n s)
    exact ⟨f, hf⟩

theorem streamCounted_mxe {s : State} (h : NoStream s) (e : QEnt) (a M : Nat) : (streamCounted e a M s).mxe = s.mxe := by
  have hk := (noteReads_startKept (granules (streamOpnd e.words M).ranges) s).trans
    (addTot_startKept (macUnits s e.words M).1 (macUnits s e.words M).2 _)
  rw [streamCounted, landSums_noStream (h.congr hk.runs)]
  exact (addTot_mxe ..).trans (noteReads_mxe ..)

/-- A STREAM that enters claims its entries and leaves the rest of the engine to `arrayHeld`. -/
theorem streamHeld_mxe {s : State} (h : NoStream s) (e : QEnt) (a M : Nat) (accMain accStrip : Bool) :
    ∃ f, (streamHeld e a M accMain accStrip s).mxe = { s.mxe with ftq := f } := by
  unfold streamHeld
  obtain ⟨f, hf⟩ := claims_mxe accMain e.ctx a (entriesOf (bits (wd e.words 5) 14 12) M) (streamCounted e a M s)
  obtain ⟨f', hf'⟩ := claims_mxe accStrip e.ctx a (if adpEn e.words then entriesOf (adpBase e.words) M else [])
    (claims accMain e.ctx a (entriesOf (bits (wd e.words 5) 14 12) M) (streamCounted e a M s))
  exact ⟨f', by rw [hf', hf, streamCounted_mxe h]⟩

/-- A released STREAM enters the array, or retires having streamed nothing (R79). -/
def gateEnters (e : QEnt) (a M n : Nat) (s : State) : State :=
  if M = 0 then begin_ .mxe e a 0 0 [] s else enterStream e a M n false false s

/-- What the gate shows stays as the STREAM enters; the entry it opens is OPEN (R76, R79). -/
structure GateEntered (base M : Nat) (s t : State) : Prop where
  mem : t.mem = s.mem
  queue : queue t .mxe = (queue s .mxe).tail
  ctxs : t.ctxs = s.ctxs
  syn : t.syn = s.syn
  gate : t.mxe.gate = s.mxe.gate
  lastM : t.mxe.lastM = s.mxe.lastM
  lastByDeadline : t.mxe.lastByDeadline = s.mxe.lastByDeadline
  releases : t.mxe.releases = s.mxe.releases
  entry : (ftq t base).st = if M = 0 then (ftq s base).st else .open_

theorem base_mem_entriesOf {b M : Nat} (hb : b < 8) (hM : 0 < M) : b ∈ entriesOf b M := by
  refine List.mem_map.2 ⟨0, List.mem_range.2 ?_, by omega⟩
  unfold ceilDiv
  omega

theorem gateEnters_entered {s : State} (h : NoStream s) (e : QEnt) (a M n : Nat) :
    GateEntered (bits (wd e.words 5) 14 12) M s (gateEnters e a M n s) := by
  unfold gateEnters
  split
  · rename_i hM
    have hst : Started .mxe e a 0 0 [] s (begin_ .mxe e a 0 0 [] s) := launch_started ..
    obtain ⟨-, -, hmxe, -, -⟩ := begin_rest .mxe e a 0 0 [] s
    exact ⟨hst.mem, hst.head, hst.ctxs, hst.syn, by rw [hmxe], by rw [hmxe], by rw [hmxe], by rw [hmxe],
      by rw [if_pos hM, ftq_congr (s := s) (by rw [hmxe])]⟩
  · rename_i hM
    have hst := enterStream_started h e a M n false false
    have hmxe : (enterStream e a M n false false s).mxe =
        (arrayHeld a (streamHolds s e a M n) (levelAt s.mxe a) (streamHeld e a M false false s)).mxe := by
      rw [enterStream_eq, beginSpan_mxe]
    obtain ⟨f, hf⟩ := streamHeld_mxe h e a M false false
    have hx : (enterStream e a M n false false s).mxe = { s.mxe with
        ftq := f, entryFree := a + streamHolds s e a M n, lvl := levelAt s.mxe a, lvlAc := a, lvlUp := true } := by
      rw [hmxe, arrayHeld, modMxe]; simp only [hf]
    refine ⟨hst.mem, hst.head, hst.ctxs, hst.syn, by rw [hx], by rw [hx], by rw [hx], by rw [hx], ?_⟩
    rw [if_neg hM, ftq_congr (s := streamHeld e a M false false s) (by rw [hmxe]; rfl)]
    have hb : bits (wd e.words 5) 14 12 < 8 := Nat.mod_lt _ (by decide)
    exact ftq_claims_open _ _ _ _ _ _ (.inr (ftq_claims_open _ _ _ _ _ _ (.inl (base_mem_entriesOf hb (by omega)))))

theorem gateRelease {s : State} {e : QEnt} {g : Gate} {a n : Nat} (he : gatedHead s = some e) (hg : s.mxe.gate = some g)
    (hc : g.expired = true ∨ g.met = true ∨ 256 ≤ pennant s (gateP e))
    (ha : levelZeroAt s.mxe (Nat.max (ac s) s.mxe.entryFree) = some a) (hadp : adpEn e.words = false)
    (hfree : (ftq s (bits (wd e.words 5) 14 12)).st = .free) (hs : settledAc s a = true) (ht : s.pwr.tripped = false)
    (hrow : streamRow s e.words = some n) (hd : NothingDue s)
    (hacc : 0 < gateM s e → accessFault s ownMxe e.ctx (fun r => decide (r = .mxeBuf))
      (granules (streamOpnd e.words (gateM s e)).ranges) [] = none) :
    exec .gateRelease s = .next (gateEnters e a (gateM s e) n
      (gateTakes e a (pass (2 * a) s))) := by
  have hopens : gateOpens e.words = [bits (wd e.words 5) 14 12] := by simp [gateOpens, hadp]
  have hafter : afterConsumers s [bits (wd e.words 5) 14 12] a = a := by simp [afterConsumers, hfree]
  have hst : ftqStateAt s a (bits (wd e.words 5) 14 12) = .free := by simp [ftqStateAt, hfree]
  have hp : pennant (pass (2 * a) s) (gateP e) = pennant s (gateP e) := by simp [pennant]
  have hrow' : streamRow (pass (2 * a) s) e.words = some n := (streamRow_congr (by simp) (by simp) _).trans hrow
  have hfault : gateFault (pass (2 * a) s) a (gateM s e) e = none := by
    unfold gateFault
    split
    · rfl
    · rw [hadp, Bool.false_and, if_neg (by simp)]
      dsimp only
      rw [accessFault_congr (s := s) (by simp) (by simp) (by simp) (by simp), hacc (by omega)]
  have hcond : (g.expired || g.met || decide (256 ≤ pennant s (gateP e))) = true := by
    simpa [or_assoc] using hc
  show execGateRelease s = _
  unfold execGateRelease
  rw [he, hg]
  dsimp only
  rw [ht, hcond, ha, hopens]
  dsimp only
  rw [hafter, startAt_due hs, advance_pass hd]
  simp [hst, hp, hrow', hfault, hadp, gateEnters, gateTakes]

end Sys2Proof.Machine

/-!
## The level and the gate (R34, R79, R80)
-/

namespace Sys2Proof.Machine

theorem gateDeadlineExpiry {s : State} {e : QEnt} {g : Gate} (hd : NothingDue s) (he : gatedHead s = some e)
    (hg : s.mxe.gate = some g) (hx : g.expired = false) :
    let u := pass (2 * (g.reached + bits (wd e.words 4) 31 16 * 16)) s
    exec .gateDeadlineExpiry s = .next (dueEval g.pennant (ac u)
      (modMxe (fun m => { m with gate := m.gate.map (fun g => { g with expired := true }) }) u)) := by
  extract_lets u
  show execGateDeadlineExpiry s = _
  unfold execGateDeadlineExpiry
  rw [he, hg]
  simp [hx, advance_pass hd, u]

theorem NothingDue.congr {s t : State} (h : NothingDue s) (hy : t.syn = s.syn) : NothingDue t := by
  unfold NothingDue; rw [hy]; exact h

/-- What an AC that changes the matrix engine alone, and lets one pennant be evaluated at its end, leaves. -/
theorem dueEval_modMxe_pass {s : State} (hd : NothingDue s) (p k : Nat) (f : MxeSt → MxeSt) :
    let u := pass k s
    let t := dueEval p (ac u) (modMxe f u)
    t.ec = Nat.max s.ec k ∧ t.mxe = f s.mxe ∧ t.queues = s.queues ∧ t.ctxs = s.ctxs ∧ t.mem = s.mem ∧
      t.syn = { s.syn with evals := [(ac t, p)] } := by
  extract_lets u t
  have hu : u.syn = s.syn := by simp [u]
  have ht : t = { modMxe f u with syn := { s.syn with evals := [(ac u, p)] } } := by
    have hdu : NothingDue (modMxe f u) := hd.congr hu
    simp only [t]
    rw [dueEval_first hdu]
    simp [hu]
  rw [ht]
  refine ⟨pass_ec .., ?_, ?_, ?_, ?_, rfl⟩
  · simp [modMxe, u]
  all_goals simp [u]

end Sys2Proof.Machine

section
open Sys2Proof Sys2Proof.Machine Host

/-- Settles O21: the level and the gate change with their EC, and the release of the gate is its take, then the entry of the
STREAM. -/
theorem levelAndGate : Obligations.LevelAndGate := by
  refine ⟨fun s hd => ⟨fun hup hl => ?_, fun e n he hg ht hok hrow hs => ?_, fun e g he hg hx => ?_⟩,
    fun s e g a n he hg hc ha hadp hfree hs hn ht hrow hd hw hu hpt hacc => ?_⟩
  · refine ⟨_, arrayLevelFall hd hup hl, ?_, pass_ec .., ?_, ?_, ?_⟩
    · simp [modMxe]
    all_goals simp
  · obtain ⟨h1, h2, h3⟩ := dueEval_modMxe_pass hd (gateP e) (2 * readyAc s .mxe e)
      (fun m => { m with gate := some ⟨readyAc s .mxe e, false, false, gateP e, gateOpens e.words⟩ })
    exact ⟨_, gateArrival hd he hg ht hok hrow hs, h1, h2, h3⟩
  · obtain ⟨h1, h2, h3⟩ := dueEval_modMxe_pass hd g.pennant (2 * (g.reached + bits (wd e.words 4) 31 16 * 16))
      (fun m => { m with gate := m.gate.map (fun g => { g with expired := true }) })
    refine ⟨_, gateDeadlineExpiry hd he hg hx, ?_, h1, h3⟩
    rw [h2, hg]; rfl
  · have htook := gateTakes_took (s := pass (2 * a) s) (e := e) a (by simpa using hw) (by simpa using hu)
    have hin := gateEnters_entered (htook.noStream (hn.congr (by simp))) e a
      (gateM s e) n
    have hpn (x : Nat) : pennant (pass (2 * a) s) x = pennant s x := by simp [pennant]
    have hcx (c : Ctx) : ctx (pass (2 * a) s) c = ctx s c := ctx_congr s (by simp) c
    have htk := htook.taken
    have hctx := htook.ctx
    have hlast := htook.lastM
    have hby := htook.lastByDeadline
    have hM : gateM (pass (2 * a) s) e = gateM s e := by rw [gateM, hpn]
    rw [hM] at htk hctx hlast
    rw [hpn] at htk hby
    refine ⟨_, gateRelease he hg hc ha hadp hfree hs ht hrow hd hacc, ?_, fun x hx => ?_, ?_, fun c hc => ?_, ?_, ?_, ?_, ?_, ?_, ?_, ?_⟩
    · rw [pennant, hin.syn]; exact htk
    · rw [pennant, hin.syn]; exact (htook.pennants x hx).trans (hpn x)
    · rw [ctx_congr _ hin.ctxs, hctx, hcx, hpt]; rfl
    · rw [ctx_congr _ hin.ctxs, htook.ctxs c hc, hcx]
    · rw [hin.gate, htook.gate]
    · rw [hin.lastM, hlast]
    · rw [hin.lastByDeadline, hby]
    · rw [hin.releases, htook.releases]; simp
    · rw [hin.queue, htook.queue, queue_congr s (by simp)]
    · exact readByte_congr s (by rw [hin.mem, htook.mem]; simp)
    · rw [hin.entry, ftq_congr htook.ftq, ftq_congr (s := s) (by simp), hfree]
end

/-!
## The choice of a context (R224)
-/

namespace Sys2Proof.Machine

/-! ### The choice of a context (R224) -/

/-- The choice among contexts, one after the other, from the best so far on. -/
def betterOf (s : State) (b : Option Ctx) (c : Ctx) : Option Ctx :=
  match b with
  | none => some c
  | some a => if (ctx s a).prio < (ctx s c).prio then some c else some a

theorem bestReady_eq (s : State) (d : Option Ctx) :
    bestReady s d = ((roundRobin d).filter (fun c => ready s c && decide (d ≠ some c))).foldl (betterOf s) none := rfl

/-- From a context on, the choice is it or one of those that follow, of the highest priority of all. -/
theorem betterOf_some (s : State) (l : List Ctx) (a : Ctx) : ∃ c, l.foldl (betterOf s) (some a) = some c ∧
    (c = a ∨ c ∈ l) ∧ (ctx s a).prio ≤ (ctx s c).prio ∧ ∀ i ∈ l, (ctx s i).prio ≤ (ctx s c).prio := by
  induction l generalizing a with
  | nil => exact ⟨a, rfl, .inl rfl, le_rfl, by simp⟩
  | cons b l ih =>
    obtain ⟨a', ha', hor, hle, hble⟩ : ∃ a', betterOf s (some a) b = some a' ∧ (a' = a ∨ a' = b) ∧
        (ctx s a).prio ≤ (ctx s a').prio ∧ (ctx s b).prio ≤ (ctx s a').prio := by
      unfold betterOf
      dsimp only
      split
      · exact ⟨b, rfl, .inr rfl, by omega, le_rfl⟩
      · exact ⟨a, rfl, .inl rfl, le_rfl, by omega⟩
    obtain ⟨c, hc, hm, h1, h2⟩ := ih a'
    refine ⟨c, by rw [List.foldl_cons, ha', hc], ?_, hle.trans h1, ?_⟩
    · obtain rfl | hm := hm
      · exact hor.imp id (by rintro rfl; simp)
      · exact .inr (by simp [hm])
    · intro i hi
      obtain rfl | hi := List.mem_cons.1 hi
      · exact hble.trans h1
      · exact h2 i hi

/-- The choice is one of the contexts given, of the highest priority among them. -/
theorem betterOf_none {s : State} {l : List Ctx} {c : Ctx} (h : l.foldl (betterOf s) none = some c) :
    c ∈ l ∧ ∀ i ∈ l, (ctx s i).prio ≤ (ctx s c).prio := by
  cases l with
  | nil => simp at h
  | cons a l =>
    obtain ⟨c', hc', hm, h1, h2⟩ := betterOf_some s l a
    obtain rfl : c' = c := by
      have : (a :: l).foldl (betterOf s) none = l.foldl (betterOf s) (some a) := rfl
      rw [this, hc'] at h
      exact Option.some.inj h
    refine ⟨List.mem_cons.2 hm, fun i hi => ?_⟩
    obtain rfl | hi := List.mem_cons.1 hi
    · exact h1
    · exact h2 i hi

/-- Round-robin order passes every context. -/
theorem mem_roundRobin (d i : Ctx) : i ∈ roundRobin (some d) := by revert d i; decide

theorem bestReady_ready {s : State} {d : Option Ctx} {c : Ctx} (h : bestReady s d = some c) : ready s c = true := by
  rw [bestReady_eq] at h
  have := (List.mem_filter.1 (betterOf_none h).1).2
  simp only [Bool.and_eq_true] at this
  exact this.1

theorem bestReady_best {s : State} {d c : Ctx} (h : bestReady s (some d) = some c) :
    ready s c = true ∧ c ≠ d ∧ ∀ i : Ctx, i ≠ d → ready s i = true → (ctx s i).prio ≤ (ctx s c).prio := by
  have hr := bestReady_ready h
  rw [bestReady_eq] at h
  obtain ⟨hm, hbest⟩ := betterOf_none h
  have hm := (List.mem_filter.1 hm).2
  simp only [Bool.and_eq_true, decide_eq_true_eq, ne_eq, Option.some.injEq] at hm
  exact ⟨hr, fun hcd => hm.2 hcd.symm, fun i hi hri => hbest i
    (List.mem_filter.2 ⟨mem_roundRobin d i, by simpa [hri] using fun hdi : d = i => hi hdi.symm⟩)⟩

/-- What the choice of a context looks at. -/
structure SameChoice (s t : State) : Prop where
  ctxs : t.ctxs = s.ctxs
  cm : t.cm = s.cm
  rsl : t.rsl = s.rsl
  out : t.syn.out = s.syn.out

theorem SameChoice.outHeld {s t : State} (h : SameChoice s t) (c : Ctx) : outHeld t c = outHeld s c := by
  unfold Machine.outHeld; rw [h.out]

theorem SameChoice.ready {s t : State} (h : SameChoice s t) (c : Ctx) : ready t c = ready s c := by
  unfold Machine.ready; rw [h.cm, h.rsl, ctx_congr s h.ctxs, h.outHeld]

theorem SameChoice.bestReady {s t : State} (h : SameChoice s t) (d : Option Ctx) : bestReady t d = bestReady s d := by
  have hb : betterOf t = betterOf s := by funext b c; unfold betterOf; simp only [ctx_congr s h.ctxs]
  simp only [bestReady_eq, h.ready, hb]

theorem SameChoice.mustYield {s t : State} (h : SameChoice s t) (hq : t.quantumOver = s.quantumOver) (d : Ctx) :
    mustYield t d = mustYield s d := by
  unfold Machine.mustYield; rw [h.bestReady, hq]; simp only [ctx_congr s h.ctxs]

theorem sameChoice_pass (k : Nat) (s : State) : SameChoice s (pass k s) := ⟨by simp, by simp, by simp, by simp⟩

theorem SameChoice.forgetTxb {s t : State} (h : SameChoice s t) (c : Ctx) : SameChoice s (forgetTxb c t) :=
  ⟨h.ctxs, h.cm, h.rsl, h.out⟩

/-! ### The transposing buffers at an untimed point (R90) -/

@[simp] theorem forgetTxb_rest (c : Ctx) (s : State) :
    (forgetTxb c s).ec = s.ec ∧ (forgetTxb c s).ctxs = s.ctxs ∧ (forgetTxb c s).mem = s.mem ∧
    (forgetTxb c s).dispatched = s.dispatched ∧ (forgetTxb c s).lastDisp = s.lastDisp ∧
    (forgetTxb c s).quantumOver = s.quantumOver ∧ (forgetTxb c s).switching = s.switching ∧
    (forgetTxb c s).switches = s.switches ∧ (forgetTxb c s).lastSwitchAc = s.lastSwitchAc := by
  simp [forgetTxb]

theorem queue_forgetTxb_length (c : Ctx) (s : State) : (queue (forgetTxb c s) .txb).length = (queue s .txb).length := by
  rw [queue_congr (setQueue s .txb ((queue s .txb).map (fun e => if e.ctx = c then { e with stale := true } else e)))
    (t := forgetTxb c s) rfl, queue_setQueue_same, List.length_map]

theorem forgetTxb_effs (c : Ctx) (s : State) : (forgetTxb c s).runs.map Run.effs = s.runs.map Run.effs := by
  show (s.runs.map (fun r => if r.opcode = 0x18 ∧ r.ctx = c then { r with ent := { r.ent with stale := true } } else r)).map Run.effs = _
  rw [List.map_map]
  refine List.map_congr_left fun r _ => ?_
  simp only [Function.comp]
  split <;> rfl

end Sys2Proof.Machine

/-!
## The release of a point, the quantum, the dispatch (R26, R224, R225, R248)
-/

namespace Sys2Proof.Machine

/-! ### The release of an untimed point -/

/-- The machine in which a point that released in AC d goes on: its EC has come, and the dispatched context's transposing buffers
are gone (R90, R248). -/
def atRelease (c : Ctx) (e : Nat) (s : State) : State :=
  if s.dispatched = some c then forgetTxb c (pass e s) else pass e s

/-- What the time to the release leaves. -/
theorem atRelease_finds (c : Ctx) (e : Nat) (s : State) : SameChoice s (atRelease c e s) ∧
    (atRelease c e s).quantumOver = s.quantumOver ∧ (atRelease c e s).dispatched = s.dispatched ∧
    (atRelease c e s).switching = s.switching ∧ (∀ a, readByte (atRelease c e s) a = readByte s a) ∧
    (∀ q, q ≠ .txb → queue (atRelease c e s) q = queue s q) ∧
    (queue (atRelease c e s) .txb).length = (queue s .txb).length ∧
    (atRelease c e s).runs.map Run.effs = s.runs.map Run.effs ∧
    (s.dispatched ≠ some c → (atRelease c e s).queues = s.queues ∧ (atRelease c e s).runs = s.runs) := by
  have hq (q) : queue (pass e s) q = queue s q := queue_congr s (by simp) q
  have hc := sameChoice_pass e s
  unfold atRelease
  split
  · rename_i hd
    exact ⟨hc.forgetTxb c, by simp, by simp, by simp, readByte_congr s (by simp), fun q hne => (queue_forgetTxb_ne c _ hne).trans (hq q),
      (queue_forgetTxb_length c _).trans (by rw [hq]), (forgetTxb_effs c _).trans (by simp), fun h => absurd hd h⟩
  · exact ⟨hc, by simp, by simp, by simp, readByte_congr s (by simp), fun q _ => hq q, by rw [hq], by simp, fun _ => by simp⟩

theorem untimedPointRelease {s : State} {c : Ctx} {d : Nat} (hrun : (ctx s c).cstate = .running) (hst : (ctx s c).stopping = false)
    (hd : NothingDue s) (hp : (ctx s c).point = .releasing d) (ho : outHeld s c = false) :
    let e := Nat.max (2 * d + 2) (ctx s c).outLeft
    exec (.untimedPointRelease c) s = .next (releaseAt c (Nat.max e s.ec) (atRelease c e s)) := by
  extract_lets e
  have hec : Nat.max e (pass e s).ec = Nat.max e s.ec := by
    rw [pass_ec]; simp only [Nat.max_def]; split_ifs <;> omega
  have hdisp : (pass e s).dispatched = s.dispatched := by simp
  have hpt : ¬ ((ctx s c).point = .pennant ∨ (ctx s c).point = .hoist) := by simp [hp]
  have hrel : releasePoint c s = releaseAt c (Nat.max e s.ec) (atRelease c e s) := by
    unfold releasePoint
    dsimp only
    rw [hp, ho, atRelease, ← hec, ← hdisp, ← advance_pass hd]
    rfl
  show execUntimedPointRelease c s = _
  rw [execUntimedPointRelease, if_neg (by simp [hst, hrun]), if_neg hpt, hrel]

/-- A point that releases changes its context alone: its section begins, or it waits to be dispatched (R224). -/
theorem releaseAt_modCtx (c : Ctx) (e : Nat) (s : State) : ∃ f : CtxSt → CtxSt, releaseAt c e s = modCtx s c f ∧
    (s.dispatched = some c → s.switching = false → mustYield s c = false →
      f (ctx s c) = { ctx s c with point := .inSection, lastIssue := e, fresh := true, slipping := false }) ∧
    (s.dispatched ≠ some c ∨ mustYield s c = true → f (ctx s c) = { ctx s c with point := .released e }) := by
  unfold releaseAt
  split
  · rename_i h
    obtain ⟨h1, -, h3⟩ := h
    exact ⟨_, rfl, fun _ _ _ => rfl, fun h => by simp [h1, h3] at h⟩
  · rename_i h
    exact ⟨_, rfl, fun h1 h2 h3 => absurd ⟨h1, h2, h3⟩ h, fun _ => rfl⟩

/-! ### The quantum (R224) -/

theorem le_ceilDiv_mul (a : Nat) {b : Nat} (hb : 0 < b) : a ≤ ceilDiv a b * b := by
  have := Nat.div_add_mod (a + b - 1) b
  have := Nat.mod_lt (a + b - 1) hb
  unfold ceilDiv
  rw [Nat.mul_comm]
  omega

theorem ecTicks_pos (k : Nat) : 0 < ecTicks k := by unfold ecTicks; split <;> decide

theorem advanceWall_pass {s : State} (h : NothingDue s) {w : Nat} (hw : s.wall < w) :
    advanceWall w s = pass (s.ec + ceilDiv (w - s.wall) (ecTicks s.factor)) s := by
  rw [advanceWall, if_pos hw, advance_pass h]

/-- Wall time comes to where it is to come. -/
theorem advanceWall_reaches {s : State} (h : NothingDue s) (w : Nat) : w ≤ (advanceWall w s).wall := by
  by_cases hw : s.wall < w
  · rw [advanceWall_pass h hw]
    have hn := le_ceilDiv_mul (w - s.wall) (ecTicks_pos s.factor)
    have h0 : 0 < ceilDiv (w - s.wall) (ecTicks s.factor) := by
      by_contra h0
      rw [Nat.eq_zero_of_not_pos h0] at hn
      omega
    unfold pass
    rw [if_pos (by omega)]
    dsimp only
    rw [Nat.add_sub_cancel_left]
    omega
  · rw [advanceWall, if_neg hw]; omega

theorem advanceWall_time {s : State} (h : NothingDue s) (w : Nat) :
    ∃ e v x, advanceWall w s = { s with ec := e, wall := v, stretched := x } := by
  by_cases hw : s.wall < w
  · exact ⟨_, _, _, (advanceWall_pass h hw).trans (pass_frame s _)⟩
  · exact ⟨s.ec, s.wall, s.stretched, by rw [advanceWall, if_neg hw]⟩

/-! ### The switch (R225) -/

theorem dispatch_start {s : State} {i : Ctx} (hp : (ctx s i).point = .start) :
    dispatch i s = beginSection i s.ec (forgetTxb i { s with
      dispatched := some i, lastDisp := some i, dispatchedAt := s.wall, quantumOver := false }) := by
  unfold dispatch; rw [hp]

/-- What a dispatch leaves as it is, and the section that it begins. -/
theorem dispatch_begins {s : State} {i : Ctx} (hp : (ctx s i).point = .start) :
    (dispatch i s).dispatched = some i ∧ (dispatch i s).lastDisp = some i ∧ (dispatch i s).ec = s.ec ∧
    (dispatch i s).switches = s.switches ∧ (dispatch i s).lastSwitchAc = s.lastSwitchAc ∧ (dispatch i s).quantumOver = false ∧
    ctx (dispatch i s) i = { ctx s i with point := .inSection, lastIssue := s.ec, fresh := true, slipping := false } ∧
    (∀ k : Ctx, k ≠ i → ctx (dispatch i s) k = ctx s k) ∧ (∀ a, readByte (dispatch i s) a = readByte s a) := by
  rw [dispatch_start hp, beginSection]
  refine ⟨by simp, by simp, by simp, by simp, by simp, by simp, ?_, fun k hk => ?_, readByte_congr s (by simp)⟩
  · rw [ctx_modCtx_same, ctx_congr s (by simp)]
  · rw [ctx_modCtx_ne _ _ _ _ hk, ctx_congr s (by simp)]

end Sys2Proof.Machine

/-!
## The switch to another context (R225)
-/

namespace Sys2Proof.Machine

/-! ### A switch to a context that uses no MXE state and no partition (R225) -/

theorem leftEngines_congr {s t : State} (hq : t.queues = s.queues) (hr : t.runs = s.runs) (d : Ctx) :
    leftEngines t d = leftEngines s d := by
  unfold leftEngines queuedOf runsOf
  simp only [queue_congr s hq, hr]

theorem usesMxe_congr {s t : State} (h : t.ctxs = s.ctxs) (i : Ctx) : usesMxe t i = usesMxe s i := by
  unfold usesMxe; rw [ctx_congr s h]

/-- Step 6 is over: 64 AC have passed, and the switch is counted. -/
def switched (i : Ctx) (s : State) : State :=
  let s := pass (2 * (nextAc s + 64)) s
  let s := { s with
    switching := false, switchFrom := none, switchTo := none, switchAc := 0, switches := (s.switches + 1) % 2 ^ 32, lastSwitchAc := 64 }
  trace { kind := 7, ctx := s.lastDisp, time := s.ec, argA := i.val } s

theorem switched_sameChoice (i : Ctx) (s : State) : SameChoice s (switched i s) := ⟨by simp [switched], by simp [switched], by simp [switched], by simp [switched]⟩

theorem step5_plain {s : State} {i : Ctx} (h : usesMxe s i = false) : step5 i s = (0, s) := by rw [step5, if_pos (.inl h)]

theorem step3_plain {s : State} {i : Ctx} (h : usesMxe s i = false) : step3 i s = (0, s) := by rw [step3, if_pos h]

theorem finishSwitch_plain {s : State} {i : Ctx} (hm : usesMxe s i = false) (hd : NothingDue s) (hr : ready s i = true) :
    finishSwitch i 0 s = dispatch i (switched i s) := by
  have hr' : ready (switched i s) i = true := ((switched_sameChoice i s).ready i).trans hr
  unfold finishSwitch
  rw [step5_plain hm]
  dsimp only
  rw [advance_pass hd]
  exact if_pos hr'

/-- The machine as it leaves a context for another. -/
def leaving (i : Ctx) (s : State) : State := { s with switching := true, dispatched := none, switchFrom := none, switchTo := some i }

theorem leaving_sameChoice (i : Ctx) (s : State) : SameChoice s (leaving i s) := ⟨rfl, rfl, rfl, rfl⟩

theorem continueSwitch_plain {s : State} {d i : Ctx} (hf : s.switchFrom = some d) (ht : s.switchTo = some i)
    (hl : leftEngines s d = true) (hm : usesMxe s i = false) (hp : partSize s i = 0) :
    continueSwitch s = finishSwitch i 0 { s with dispatched := none, switchFrom := none, switchTo := some i } := by
  have h3 : step3 i { s with dispatched := none, switchFrom := none, switchTo := some i } =
      (0, { s with dispatched := none, switchFrom := none, switchTo := some i }) :=
    step3_plain ((usesMxe_congr (s := s) rfl i).trans hm)
  unfold continueSwitch
  rw [hf, ht]
  dsimp only
  rw [hl, if_neg (by decide), h3]
  exact if_pos (.inl hp)

theorem switchTo_plain {s : State} {d i : Ctx} (hd : NothingDue s) (hr : ready s i = true) (hm : usesMxe s i = false)
    (hp : partSize s i = 0) (hl : leftEngines s d = true) (hg : (ctx s d).point ≠ .gated) :
    switchTo_ d i s = dispatch i (switched i (leaving i s)) := by
  have hl' : leftEngines { s with switching := true, switchFrom := some d, switchTo := some i } d = true :=
    (leftEngines_congr (s := s) rfl rfl d).trans hl
  rw [switchTo_, giveWay, if_neg hg, continueSwitch_plain rfl rfl hl' hm hp]
  exact finishSwitch_plain (s := leaving i s) ((usesMxe_congr (s := s) rfl i).trans hm) hd
    (((leaving_sameChoice i s).ready i).trans hr)

theorem contextSwitch_leaves {s : State} {d i : Ctx} (hi : s.isolated = false) (hsw : s.switching = false) (hd : s.dispatched = some d)
    (hb : bestReady s (some d) = some i) (hl : leaves s d = true) :
    exec .contextSwitch s = .next (switchTo_ d i s) := by
  show execContextSwitch s = _
  simp [execContextSwitch, hi, hsw, hd, hb, hl]

theorem contextSwitch_first {s : State} {i : Ctx} (hi : s.isolated = false) (hsw : s.switching = false) (hd : s.dispatched = none)
    (hld : s.lastDisp = none) (hb : bestReady s none = some i) (hm : usesMxe s i = false) (hp : partSize s i = 0) :
    exec .contextSwitch s = .next (dispatch i s) := by
  show execContextSwitch s = _
  simp [execContextSwitch, hi, hsw, hd, hld, hb, hm, hp, lastOr, step5_plain hm]

end Sys2Proof.Machine

section
open Sys2Proof Sys2Proof.Machine Host

/-- Settles O22: a point that releases changes its context and what time to it leaves; the choice is a best of a list that
passes every context; a plain switch is 64 AC and a dispatch. -/
theorem contextsAreDispatched : Obligations.ContextsAreDispatched := by
  refine ⟨fun s c d hrun hst hsw hd hp ho => ?_, fun s d c h => bestReady_best h, fun s i hsw hi hd => ⟨fun d hdisp hq ho => ?_,
    fun hm hpart hp => ⟨fun d hdisp hb hl hleft hg => ?_, fun hdisp hld hb => ?_⟩⟩⟩
  · extract_lets e
    obtain ⟨hch, hqo, hds, hss, hb, hq, hlen, heffs, hsame⟩ := atRelease_finds c (Nat.max (2 * d + 2) (ctx s c).outLeft) s
    have hx := untimedPointRelease hrun hst hd hp ho
    extract_lets at hx
    have hmy := hch.mustYield hqo c
    generalize atRelease c (Nat.max (2 * d + 2) (ctx s c).outLeft) s = u at hch hqo hds hss hb hq hlen heffs hsame hx hmy
    have hcu (k) : ctx u k = ctx s k := ctx_congr s hch.ctxs k
    obtain ⟨f, hf, hsec, hrel⟩ := releaseAt_modCtx c e u
    rw [hds, hss, hmy, hcu] at hsec
    rw [hds, hmy, hcu] at hrel
    rw [hf] at hx
    refine ⟨_, hx, fun k hk => ?_, fun a => ?_, fun q hne => ?_, ?_, ?_, fun h => ?_, fun h1 h2 => ?_, fun h => ?_⟩
    · rw [ctx_modCtx_ne _ _ _ _ hk, hcu]
    · rw [readByte_congr u (by simp), hb]
    · rw [queue_modCtx, hq q hne]
    · rw [queue_modCtx, hlen]
    · simpa using heffs
    · simpa using hsame h
    · rw [ctx_modCtx_same, hcu, hsec h1 hsw h2]
    · rw [ctx_modCtx_same, hcu, hrel h]
  · have hx : exec .quantumExpiry s =
        .next { advanceWall (s.dispatchedAt + s.quantumUs * usTicks) s with quantumOver := true } := by
      show execQuantumExpiry s = _
      simp [execQuantumExpiry, hdisp, hq, ho]
    refine ⟨_, hx, rfl, advanceWall_reaches hd _, ?_⟩
    obtain ⟨e, w, x, h⟩ := advanceWall_time hd (s.dispatchedAt + s.quantumUs * usTicks)
    rw [h]
  · have hr := (bestReady_best hb).1
    have hpt : (ctx (switched i (leaving i s)) i).point = .start := by
      rw [ctx_congr s (by simp [switched, leaving])]; exact hp
    obtain ⟨h1, h2, h3, h4, h5, h6, h7, h8, h9⟩ := dispatch_begins hpt
    refine ⟨_, (contextSwitch_leaves hi hsw hdisp hb hl).trans (congrArg _ (switchTo_plain hd hr hm hpart hleft hg)),
      h1, h2, ?_, ?_, ?_, h6, ?_, fun k hk => ?_, fun a => ?_⟩
    · rw [h3]
      simp only [switched, trace_rest, pass_ec, leaving, nextAc]
      simp only [Nat.max_def]
      split_ifs <;> omega
    · rw [h4]; simp [switched, leaving]
    · rw [h5]; simp [switched]
    · rw [h7, h3, ctx_congr s (by simp [switched, leaving])]
    · rw [h8 k hk, ctx_congr s (by simp [switched, leaving])]
    · rw [h9, readByte_congr s (by simp [switched, leaving])]
  · obtain ⟨h1, -, -, h4, -, -, h7, h8⟩ := dispatch_begins hp
    exact ⟨_, contextSwitch_first hi hsw hdisp hld hb hm hpart, h1, h4, h7, h8⟩
end

/-!
## The issue of SYN.HOIST (R28, R259)
-/

namespace Sys2Proof.Machine

/-! ### The issue of SYN.HOIST (R28, R259) -/

/-- The fields of word 1 of a SYN.HOIST. -/
theorem hoistWord_fields {w h mode pr : Nat} {act : Bool} (hh : h < 256) (hm : mode ≤ 2) (hp : pr < 16)
    (hw : w = h + mode * 2 ^ 8 + b2n act * 2 ^ 10 + pr * 2 ^ 11) :
    bits w 7 0 = h ∧ bits w 9 8 = mode ∧ bit w 10 = act ∧ bits w 14 11 = pr ∧ bits w 31 15 = 0 := by
  have hact : bit w 10 = decide (b2n act = 1) := by
    unfold bit
    congr 1
    have : b2n act ≤ 1 := by cases act <;> decide
    exact propext ⟨fun _ => by omega, fun _ => by omega⟩
  have hb : b2n act ≤ 1 := by cases act <;> decide
  refine ⟨?_, ?_, hact.trans (by cases act <;> rfl), ?_, ?_⟩ <;> unfold bits <;> omega

/-- The words of a SYN.HOIST take no offset. -/
theorem cmdOf_hoist_words {sl : Slot} (h : opcodeOf sl = 0x2A) (s : State) (x : CtxSt) : (cmdOf s x sl).words = slotWords sl := by
  simp only [cmdOf, h, withOffsets]

theorem hoistOk_of {s : State} {x : CtxSt} {sl : Slot} {h mode pr : Nat} {act : Bool} (hop : opcodeOf sl = 0x2A)
    (hr : slotRsv sl = 0) (hh : h < 256) (hm : mode ≤ 2) (hp : pr < 16) (hact : act = false → pr = 0)
    (hw : sl.w1.toNat = h + mode * 2 ^ 8 + b2n act * 2 ^ 10 + pr * 2 ^ 11)
    (h2 : sl.w2 = 0) (h3 : sl.w3 = 0) (h4 : sl.w4 = 0) (h5 : sl.w5 = 0) (h6 : sl.w6 = 0) (h7 : sl.w7 = 0) :
    hoistOk (cmdOf s x sl) = true := by
  obtain ⟨-, hmode, hbit, hpred, hrest⟩ := hoistWord_fields hh hm hp hw
  have hrsv : (cmdOf s x sl).rsv = 0 := hr
  have hw1 : (cmdOf s x sl).w 1 = sl.w1.toNat := by rw [Cmd.w, cmdOf_hoist_words hop]; rfl
  have hz : zeroFrom (cmdOf s x sl) 2 = true := by
    rw [zeroFrom, cmdOf_hoist_words hop]
    simp [slotWords, slice, h2, h3, h4, h5, h6, h7]
  rw [hoistOk, hrsv, hw1, hz, hmode, hbit, hpred, hrest]
  cases act
  · simp [hact rfl]; omega
  · simp; omega

/-- A SYN.HOIST goes to the hoist unit, where it is due at the end of its AC. -/
def hoistSent (n : HEnt) (s : State) : State :=
  dueAtEnd n.ac (4352 + n.ctx.val) { s with syn := { s.syn with ents := s.syn.ents ++ [n] } }

theorem hoistSent_rest (n : HEnt) (s : State) : (hoistSent n s).ctxs = s.ctxs ∧ (hoistSent n s).mem = s.mem ∧
    (hoistSent n s).queues = s.queues ∧ (hoistSent n s).runs = s.runs ∧ (hoistSent n s).syn = { s.syn with
      ents := s.syn.ents ++ [n], evals := insertEval (n.ac, 4352 + n.ctx.val) s.syn.evals } := ⟨rfl, rfl, rfl, rfl, rfl⟩

theorem issueHoist_ok {s : State} {c : Ctx} {m : Cmd} (h : hoistOk m = true) :
    issueHoist c m s = hoistSent
      { ctx := c, ac := m.arrives, hoist := bits (m.w 1) 7 0
        mode := if bits (m.w 1) 9 8 = 0 ∧ (ctx s c).rejoin = true then 2 else bits (m.w 1) 9 8
        act := bit (m.w 1) 10, pred := bits (m.w 1) 14 11, tag := m.tag }
      (modCtx (passed c m s) c (fun x => { x with point := .hoist, rejoin := false })) := by
  rw [issueHoist, if_neg (by simp [h])]
  rfl

/-- The frame of a scalar command, with the entry on its way. -/
theorem hoistSent_issued {s v : State} {c : Ctx} {sl : Slot} {n : HEnt} (hn : n.ctx = c) (hf : ScalarFrame s c sl v) :
    ctx (hoistSent n v) c = ctx v c ∧
      (∀ d : Ctx, d ≠ c → ctx (hoistSent n v) d = ctx (issueState s c sl) d) ∧
      (∀ a, readByte (hoistSent n v) a = readByte s a) ∧ (hoistSent n v).queues = s.queues ∧ (hoistSent n v).runs = s.runs ∧
      (hoistSent n v).syn = { (issueState s c sl).syn with
        ents := (issueState s c sl).syn.ents ++ [n]
        evals := insertEval (n.ac, 4352 + c.val) (issueState s c sl).syn.evals } := by
  obtain ⟨h1, h2, h3, h4, h5⟩ := hoistSent_rest n v
  have hsyn : v.syn = (issueState s c sl).syn := by rw [hf.rest]
  have hqueues : v.queues = s.queues := by rw [hf.rest]; simp [issueState]
  have hruns : v.runs = s.runs := by rw [hf.rest]; simp [issueState]
  refine ⟨ctx_congr v h1 c, fun d hd => (ctx_congr v h1 d).trans (hf.others d hd),
    fun a => (readByte_congr v h2 a).trans (hf.bytes a), h3.trans hqueues, h4.trans hruns, ?_⟩
  rw [h5, hsyn, hn]

end Sys2Proof.Machine

/-!
## The epochs of a hoist (R257, R258)
-/

namespace Sys2Proof.Machine

/-! ### The epochs of a hoist (R257, R258) -/

/-- A hoist in whose epoch participant q is recorded. -/
def withEntry (q : Nat) (x : Hoist) : Hoist := { x with marksN := x.marksN ||| 2 ^ q, entered := x.entered ||| 2 ^ q }

/-- A hoist whose epoch has closed at a root without children. -/
def closedHoist (x : Hoist) : Hoist :=
  { x with marksN := x.marksN1, marksN1 := 0, waiters := [], parity := !x.parity, closed := (x.closed + 1) % 2 ^ 16 }

theorem hoist_congr {s t : State} (h : t.syn.hoists = s.syn.hoists) (k : Nat) : hoist t k = hoist s k := by unfold hoist; rw [h]

theorem hoist_markEntry (h q : Nat) (s : State) : hoist (markEntry h q false s) h = withEntry q (hoist s h) := hoist_modHoist_same ..

theorem entryOf_free {s : State} {h q : Nat} (hen : (hoist s h).enable = true) (hm : bit (hoist s h).mask q = true)
    (hst : (hoist s h).st = .open_) (hq : bit (hoist s h).marksN q = false) : entryOf s h q = .marked false := by
  simp [entryOf, hen, hm, hst, hq]

/-- An epoch that lacks a participant stays open. -/
theorem epochComplete_lacks {x : Hoist} (h : popcount 9 x.marksN + x.childN.length ≠ parties x) : epochComplete x = false := by
  simp [epochComplete, h]

theorem checkHoist_open {s : State} {h : Nat} (hx : epochComplete (hoist s h) = false) (t : Nat) : checkHoist h t s = s := if_pos hx

/-- An epoch that is complete at a root without children, and the one after it is not. -/
structure ClosesAtRoot (x : Hoist) : Prop where
  st : x.st = .open_
  root : x.root = true
  noChild : x.childCount = 0
  childN : x.childN = []
  childN1 : x.childN1 = []
  full : popcount 9 x.marksN = popcount 9 x.mask
  next : popcount 9 x.marksN1 < popcount 9 x.mask
  waiters : ∀ w ∈ x.waiters, w.next = false

namespace ClosesAtRoot
variable {x : Hoist}

theorem parties (h : ClosesAtRoot x) : Machine.parties x = popcount 9 x.mask := by simp [Machine.parties, h.noChild]

theorem complete (h : ClosesAtRoot x) : epochComplete x = true := by
  have := h.next
  simp only [epochComplete, h.parties, h.st, h.full, h.childN]
  simp
  omega

theorem closed_open (h : ClosesAtRoot x) : epochComplete (closedHoist x) = false := by
  have hp : Machine.parties (closedHoist x) = popcount 9 x.mask := h.parties
  refine epochComplete_lacks ?_
  rw [hp]
  show popcount 9 x.marksN1 + x.childN.length ≠ _
  have := h.next
  rw [h.childN, List.length_nil]
  omega

end ClosesAtRoot

/-! ### The contexts that an epoch releases -/

theorem ctx_releaseHWait_ne {h t : Nat} {s : State} {w : HWait} {d : Ctx} (hd : w.ctx ≠ d) : ctx (releaseHWait h t s w) d = ctx s d := by
  rw [releaseHWait, ctx_trace, ctx_modCtx_ne _ _ _ _ hd.symm]

theorem ctx_releaseHWait (h t : Nat) (s : State) (w : HWait) : ctx (releaseHWait h t s w) w.ctx =
    { (if w.act then setPred (ctx s w.ctx) w.pred true else ctx s w.ctx) with point := .releasing t } := by
  rw [releaseHWait, ctx_trace, ctx_modCtx_same]

theorem ctx_releaseHWaits_ne (h t : Nat) (l : List HWait) (s : State) (d : Ctx) (hd : ∀ w ∈ l, w.ctx ≠ d) :
    ctx (l.foldl (releaseHWait h t) s) d = ctx s d := by
  induction l generalizing s with
  | nil => rfl
  | cons w l ih =>
    rw [List.foldl_cons, ih _ fun v hv => hd v (by simp [hv]), ctx_releaseHWait_ne (hd w (by simp))]

/-- A waiter that no predicate names is released, however often it waits. -/
theorem ctx_releaseHWaits (h t : Nat) (l : List HWait) (s : State) (hact : ∀ w ∈ l, w.act = false) :
    ∀ w ∈ l, ctx (l.foldl (releaseHWait h t) s) w.ctx = { ctx s w.ctx with point := .releasing t } := by
  induction l generalizing s with
  | nil => simp
  | cons v l ih =>
    have hv : ctx (releaseHWait h t s v) v.ctx = { ctx s v.ctx with point := .releasing t } := by
      rw [ctx_releaseHWait, hact v (by simp)]; rfl
    have hany (d : Ctx) : { ctx (releaseHWait h t s v) d with point := .releasing t } = { ctx s d with point := .releasing t } := by
      by_cases hd : v.ctx = d
      · rw [← hd, hv]
      · rw [ctx_releaseHWait_ne hd]
    intro w hw
    rw [List.foldl_cons]
    by_cases hin : ∃ w' ∈ l, w'.ctx = w.ctx
    · obtain ⟨w', hw', he⟩ := hin
      rw [← he, ih _ (fun u hu => hact u (by simp [hu])) w' hw', hany]
    · obtain rfl : w = v := (List.mem_cons.1 hw).resolve_right fun hw => hin ⟨w, hw, rfl⟩
      rw [ctx_releaseHWaits_ne _ _ _ _ _ fun u hu he => hin ⟨u, hu, he⟩, hv]

/-! ### The close of an epoch -/

theorem closeEpoch_root {s : State} {h : Nat} (hc : ClosesAtRoot (hoist s h)) (t : Nat) :
    hoist (closeEpoch h t s) h = closedHoist (hoist s h) ∧
      (closeEpoch h t s).ctxs = ((hoist s h).waiters.foldl (releaseHWait h t) s).ctxs := by
  have hw : (hoist s h).waiters.filter (fun w => !w.next) = (hoist s h).waiters :=
    List.filter_eq_self.2 fun w hw => by simp [hc.waiters w hw]
  have hw' : (hoist s h).waiters.filter (fun w => w.next) = [] := List.filter_eq_nil_iff.2 fun w hw => by simp [hc.waiters w hw]
  unfold closeEpoch
  extract_lets x s1 s2 s3
  have h1 : s1.syn = s.syn := by simp only [s1]; rw [releaseHWaits_frame]
  have h2 : s2.syn = s1.syn ∧ s2.ctxs = s1.ctxs := by
    simp only [s2]
    split <;> exact ⟨rfl, rfl⟩
  have hwords : childWords s2 x = [] := by rw [childWords, hc.noChild]; rfl
  have h3 : s3 = s2 := by simp only [s3, hwords]; rfl
  have hh : hoist s3 h = x := by rw [h3, hoist_congr (s := s) (by rw [h2.1, h1])]
  refine ⟨?_, ?_⟩
  · rw [hoist_modHoist_same, hh]
    simp only [hw', closedHoist, x, hc.childN1, hc.childN, hc.st, List.map_nil]
  · show s3.ctxs = _
    rw [h3, h2.2]
    simp only [s1, x, hw]

theorem checkHoist_closes {s : State} {h : Nat} (hc : ClosesAtRoot (hoist s h)) (t : Nat) :
    hoist (checkHoist h t s) h = closedHoist (hoist s h) ∧
      (checkHoist h t s).ctxs = ((hoist s h).waiters.foldl (releaseHWait h t) s).ctxs := by
  have hcl := closeEpoch_root hc t
  have heq : checkHoist h t s = closeEpoch h t s := by
    rw [checkHoist, if_neg (by simp [hc.complete]), if_pos hc.root, closeNext]
    exact if_neg (by rw [hcl.1, hc.closed_open]; decide)
  rw [heq]
  exact hcl

end Sys2Proof.Machine

/-!
## A SYN.HOIST at the hoist unit (R257, R259)
-/

namespace Sys2Proof.Machine

/-! ### The entries that are on their way stay so -/

theorem hoistMsgs_ents (kind h : Nat) (parity : Bool) (value t : Nat) (ws : List Nat) (s : State) :
    (hoistMsgs kind h parity value t ws s).syn.ents = s.syn.ents := by
  unfold hoistMsgs
  induction ws generalizing s with
  | nil => rfl
  | cons w ws ih => exact ih (hoistMsg kind h parity value t w s)

theorem closeEpoch_ents (h t : Nat) (s : State) : (closeEpoch h t s).syn.ents = s.syn.ents := by
  unfold closeEpoch
  extract_lets x s1 s2 s3
  have h1 : s1.syn = s.syn := by simp only [s1]; rw [releaseHWaits_frame]
  have h2 : s2.syn = s1.syn := by
    simp only [s2]
    split <;> rfl
  have h3 : s3.syn.ents = s2.syn.ents := hoistMsgs_ents ..
  exact h3.trans (by rw [h2, h1])

theorem closeNext_ents (h t : Nat) (s : State) : (closeNext h t s).syn.ents = s.syn.ents := by
  unfold closeNext
  dsimp only
  split <;> exact closeEpoch_ents h t s

theorem checkHoist_ents (h t : Nat) (s : State) : (checkHoist h t s).syn.ents = s.syn.ents := by
  unfold checkHoist
  extract_lets x
  split
  · rfl
  · split
    · exact closeNext_ents ..
    · rfl

/-! ### A SYN.HOIST at the hoist unit (R257, R259) -/

/-- The machine from which a SYN.HOIST that was on its way alone enters its hoist. -/
def atUnit (n : HEnt) (s : State) : State :=
  { s with syn := { s.syn with evals := s.syn.evals.erase (n.ac, 4352 + n.ctx.val), ents := [] } }

theorem comeDue_hoist {s : State} {n : HEnt} (h : s.syn.ents = [n]) : comeDue (4352 + n.ctx.val) n.ac s =
    match n.mode with
    | 0 => hoistEnter true n (atUnit n s)
    | 1 => hoistEnter false n (atUnit n s)
    | _ => hoistWaitOnly n (atUnit n s) := by
  have hc : n.ctx.val < 8 := n.ctx.isLt
  rw [comeDue, if_neg (by omega)]
  dsimp only
  rw [if_neg (by omega), if_pos (show 4352 + n.ctx.val < dueSignal by unfold dueSignal; omega), Nat.add_sub_cancel_left]
  simp only [hoistArrives, h, List.find?_cons, decide_true, Bool.and_self, List.erase_cons_head]
  rfl

/-- The wait of an entry for the present epoch. -/
def hwaitFor (n : HEnt) (s : State) : HWait :=
  ⟨n.ctx, false, dueAt s (2 * n.ac) (hoist s n.hoist).timeoutUs, wallAt s (2 * n.ac), n.act, n.pred, n.tag⟩

/-- The entry is recorded, and its context waits or goes on. -/
def hoistGoes (wait : Bool) (n : HEnt) (s : State) : State :=
  let s := markEntry n.hoist n.ctx.val false s
  if wait then hoistWait n false s else hoistPass n s

theorem hoistEnter_free {s : State} {n : HEnt} (h : entryOf s n.hoist n.ctx.val = .marked false) (wait : Bool) :
    hoistEnter wait n s = checkHoist n.hoist n.ac (hoistGoes wait n s) := by rw [hoistEnter, h]; rfl

theorem hoistGoes_waits {s : State} {n : HEnt} (hg : n.gone = false) :
    hoist (hoistGoes true n s) n.hoist =
      { withEntry n.ctx.val (hoist s n.hoist) with waiters := (hoist s n.hoist).waiters ++ [hwaitFor n s] } ∧
      (hoistGoes true n s).ctxs = s.ctxs ∧ (hoistGoes true n s).syn.ents = s.syn.ents := by
  have hm := hoist_markEntry n.hoist n.ctx.val s
  have heq : hoistGoes true n s = modHoist n.hoist (fun x => { x with waiters := x.waiters ++
      [⟨n.ctx, false, dueAt s (2 * n.ac) (hoist (markEntry n.hoist n.ctx.val false s) n.hoist).timeoutUs, wallAt s (2 * n.ac),
        n.act, n.pred, n.tag⟩] }) (markEntry n.hoist n.ctx.val false s) := by
    simp only [hoistGoes, if_true, hoistWait, hg, Bool.false_eq_true, if_false]
    rfl
  rw [heq]
  refine ⟨?_, rfl, rfl⟩
  rw [hoist_modHoist_same, hm]
  rfl

/-- The context of a SYN.HOIST that its point releases in AC k. -/
def goesOn (n : HEnt) (x : CtxSt) : CtxSt := { (if n.act then setPred x n.pred true else x) with point := .releasing n.ac }

theorem hoistPass_goes {s : State} {n : HEnt} (hg : n.gone = false) : (hoistPass n s).syn = s.syn ∧
    ctx (hoistPass n s) n.ctx = goesOn n (ctx s n.ctx) ∧ ∀ d : Ctx, d ≠ n.ctx → ctx (hoistPass n s) d = ctx s d := by
  rw [hoistPass, if_neg (by simp [hg])]
  refine ⟨rfl, ?_, fun d hd => ?_⟩
  · rw [ctx_trace, ctx_modCtx_same]; rfl
  · rw [ctx_trace, ctx_modCtx_ne _ _ _ _ hd]

theorem hoistGoes_passes {s : State} {n : HEnt} (hg : n.gone = false) :
    hoist (hoistGoes false n s) n.hoist = withEntry n.ctx.val (hoist s n.hoist) ∧
      ctx (hoistGoes false n s) n.ctx = goesOn n (ctx s n.ctx) ∧
      (∀ d : Ctx, d ≠ n.ctx → ctx (hoistGoes false n s) d = ctx s d) ∧ (hoistGoes false n s).syn.ents = s.syn.ents := by
  obtain ⟨hy, hc, ho⟩ := hoistPass_goes (s := markEntry n.hoist n.ctx.val false s) hg
  have hcx (d : Ctx) : ctx (markEntry n.hoist n.ctx.val false s) d = ctx s d := ctx_congr s rfl d
  refine ⟨(hoist_congr (congrArg SynSt.hoists hy) _).trans (hoist_markEntry ..), hc.trans (by rw [hcx]),
    fun d hd => (ho d hd).trans (hcx d), (congrArg SynSt.ents hy).trans rfl⟩

end Sys2Proof.Machine

/-!
## Entries into hoists (R257 to R259)
-/

namespace Sys2Proof.Machine

/-! ### The outcomes of a SYN.HOIST whose entry is free -/

/-- A hoist in service, OPEN, that participant q has not entered in its present epoch. -/
structure FreeFor (q : Nat) (x : Hoist) : Prop where
  enable : x.enable = true
  mask : bit x.mask q = true
  st : x.st = .open_
  mark : bit x.marksN q = false

theorem FreeFor.entryOf {s : State} {h q : Nat} (hf : FreeFor q (hoist s h)) : entryOf s h q = .marked false :=
  entryOf_free hf.enable hf.mask hf.st hf.mark

/-- WAIT enters where its context has no entry; it waits for the next epoch where it has one there, and goes on where its epoch has
closed (R259). -/
theorem hoistWaitOnly_free {s : State} {n : HEnt} (hf : FreeFor n.ctx.val (hoist s n.hoist)) : hoistWaitOnly n s =
    if bit (hoist s n.hoist).entered n.ctx.val = false then hoistEnter true n s
    else if bit (hoist s n.hoist).marksN1 n.ctx.val then hoistWait n true s else hoistPass n s := by
  unfold hoistWaitOnly
  dsimp only
  rw [hf.mark, hf.st]
  simp

/-- How a SYN.HOIST comes about. -/
inductive HoistOutcome (n : HEnt) (x : Hoist) (s t : State) : Prop where
  | waits (hm : n.mode = 0 ∨ n.mode ≠ 1 ∧ bit x.entered n.ctx.val = false) (ht : t = checkHoist n.hoist n.ac (hoistGoes true n s))
  | passes (hm : n.mode = 1) (ht : t = checkHoist n.hoist n.ac (hoistGoes false n s))
  | waitsNext (hm : 1 < n.mode) (he : bit x.entered n.ctx.val = true) (h1 : bit x.marksN1 n.ctx.val = true) (ht : t = hoistWait n true s)
  | goes (hm : 1 < n.mode) (he : bit x.entered n.ctx.val = true) (h1 : bit x.marksN1 n.ctx.val = false) (ht : t = hoistPass n s)

theorem hoistWaitOnly_outcome {s : State} {n : HEnt} (hf : FreeFor n.ctx.val (hoist s n.hoist)) (hm : 1 < n.mode) :
    HoistOutcome n (hoist s n.hoist) s (hoistWaitOnly n s) := by
  rw [hoistWaitOnly_free hf]
  split
  · exact .waits (.inr ⟨by omega, ‹_›⟩) (hoistEnter_free hf.entryOf true)
  · rename_i he
    rw [Bool.not_eq_false] at he
    split
    · exact .waitsNext hm he ‹_› rfl
    · rename_i h1
      exact .goes hm he (by simpa using h1) rfl

theorem comeDue_outcome {s : State} {n : HEnt} (h : s.syn.ents = [n]) (hf : FreeFor n.ctx.val (hoist s n.hoist)) :
    HoistOutcome n (hoist s n.hoist) (atUnit n s) (comeDue (4352 + n.ctx.val) n.ac s) := by
  have hu : hoist (atUnit n s) n.hoist = hoist s n.hoist := hoist_congr rfl _
  have hfu : FreeFor n.ctx.val (hoist (atUnit n s) n.hoist) := hu ▸ hf
  rw [comeDue_hoist h]
  split
  · exact .waits (.inl ‹_›) (hoistEnter_free hfu.entryOf true)
  · exact .passes ‹_› (hoistEnter_free hfu.entryOf false)
  · rename_i h0 h1
    have := hoistWaitOnly_outcome hfu (by
      have h0 : n.mode ≠ 0 := h0
      have h1 : n.mode ≠ 1 := h1
      omega)
    rwa [hu] at this

theorem hoistWait_next {n : HEnt} (hg : n.gone = false) (next : Bool) (s : State) :
    (hoistWait n next s).ctxs = s.ctxs ∧ (hoistWait n next s).syn.ents = s.syn.ents := by
  rw [hoistWait]
  simp only [hg, Bool.false_eq_true, if_false]
  exact ⟨rfl, rfl⟩

/-- No entry is on its way any more. -/
theorem HoistOutcome.ents {n : HEnt} {x : Hoist} {s t : State} (h : HoistOutcome n x (atUnit n s) t) (hg : n.gone = false) :
    t.syn.ents = [] := by
  obtain ⟨-, rfl⟩ | ⟨-, rfl⟩ | ⟨-, -, -, rfl⟩ | ⟨-, -, -, rfl⟩ := h
  · obtain ⟨-, -, he⟩ := hoistGoes_waits (s := atUnit n s) hg
    rw [checkHoist_ents, he]; rfl
  · obtain ⟨-, -, -, he⟩ := hoistGoes_passes (s := atUnit n s) hg
    rw [checkHoist_ents, he]; rfl
  · rw [(hoistWait_next hg true _).2]; rfl
  · rw [(hoistPass_goes hg).1]; rfl

theorem readByte_comeDue (k n : Nat) (s : State) (a : Nat) : readByte (comeDue k n s) a = readByte s a :=
  readByte_congr s (by rw [comeDue_frame]) a

/-- An epoch that still lacks a participant records the entry, and its context waits or goes on (R257, R259). -/
theorem HoistOutcome.lacks {n : HEnt} {s t : State} (h : HoistOutcome n (hoist s n.hoist) (atUnit n s) t) (hg : n.gone = false)
    (hl : epochComplete (withEntry n.ctx.val (hoist s n.hoist)) = false) :
    (∀ d : Ctx, d ≠ n.ctx → ctx t d = ctx s d) ∧
    (n.mode = 1 → hoist t n.hoist = withEntry n.ctx.val (hoist s n.hoist) ∧ ctx t n.ctx = goesOn n (ctx s n.ctx)) ∧
    (n.mode = 0 ∨ n.mode = 2 ∧ bit (hoist s n.hoist).entered n.ctx.val = false → ctx t n.ctx = ctx s n.ctx ∧
      hoist t n.hoist = { withEntry n.ctx.val (hoist s n.hoist) with waiters := (hoist s n.hoist).waiters ++ [hwaitFor n s] }) ∧
    (n.mode = 2 → bit (hoist s n.hoist).entered n.ctx.val = true → bit (hoist s n.hoist).marksN1 n.ctx.val = false →
      ctx t n.ctx = goesOn n (ctx s n.ctx) ∧ hoist t n.hoist = hoist s n.hoist) := by
  have hu : hoist (atUnit n s) n.hoist = hoist s n.hoist := hoist_congr rfl _
  have hcu (d : Ctx) : ctx (atUnit n s) d = ctx s d := ctx_congr s rfl d
  obtain ⟨hm, rfl⟩ | ⟨hm, rfl⟩ | ⟨hm, he, h1, rfl⟩ | ⟨hm, he, h1, rfl⟩ := h
  · obtain ⟨hh, hc, -⟩ := hoistGoes_waits (s := atUnit n s) hg
    rw [hu] at hh
    have hc (d : Ctx) : ctx (hoistGoes true n (atUnit n s)) d = ctx s d := (ctx_congr _ hc d).trans (hcu d)
    rw [checkHoist_open (by rw [hh]; exact hl)]
    refine ⟨fun d _ => hc d, fun hm' => ?_, fun _ => ⟨hc _, hh⟩, fun hm' he' _ => ?_⟩
    · simp [hm'] at hm
    · simp [hm', he'] at hm
  · obtain ⟨hh, hc, ho, -⟩ := hoistGoes_passes (s := atUnit n s) hg
    rw [hu] at hh
    rw [checkHoist_open (by rw [hh]; exact hl)]
    refine ⟨fun d hd => (ho d hd).trans (hcu d), fun _ => ⟨hh, by rw [hc, hcu]⟩, fun hm' => by omega, fun hm' _ _ => by omega⟩
  · obtain ⟨hc, -⟩ := hoistWait_next hg true (atUnit n s)
    refine ⟨fun d _ => (ctx_congr _ hc d).trans (hcu d), fun hm' => by omega, fun hm' => ?_, fun _ _ h1' => by simp [h1] at h1'⟩
    simp [he] at hm'
    omega
  · obtain ⟨hy, hc, ho⟩ := hoistPass_goes (s := atUnit n s) hg
    refine ⟨fun d hd => (ho d hd).trans (hcu d), fun hm' => by omega, fun hm' => ?_,
      fun _ _ _ => ⟨by rw [hc, hcu], (hoist_congr (congrArg SynSt.hoists hy) _).trans hu⟩⟩
    simp [he] at hm'
    omega

theorem ClosesAtRoot.with_waiters {x : Hoist} (h : ClosesAtRoot x) {l : List HWait} (hl : ∀ w ∈ l, w.next = false) :
    ClosesAtRoot { x with waiters := l } := ⟨h.st, h.root, h.noChild, h.childN, h.childN1, h.full, h.next, hl⟩

/-- The entry that completes its epoch at a root without children closes it (R258). -/
theorem HoistOutcome.closes {n : HEnt} {s t : State} (h : HoistOutcome n (hoist s n.hoist) (atUnit n s) t) (hg : n.gone = false)
    (hc : ClosesAtRoot (withEntry n.ctx.val (hoist s n.hoist))) (hact : ∀ w ∈ (hoist s n.hoist).waiters, w.act = false)
    (hm : n.mode < 2) (hw : ∀ w ∈ (hoist s n.hoist).waiters, w.ctx ≠ n.ctx) :
    hoist t n.hoist = closedHoist (withEntry n.ctx.val (hoist s n.hoist)) ∧ ctx t n.ctx = goesOn n (ctx s n.ctx) ∧
    (∀ w ∈ (hoist s n.hoist).waiters, ctx t w.ctx = { ctx s w.ctx with point := .releasing n.ac }) ∧
    ∀ d : Ctx, d ≠ n.ctx → (∀ w ∈ (hoist s n.hoist).waiters, w.ctx ≠ d) → ctx t d = ctx s d := by
  have hu : hoist (atUnit n s) n.hoist = hoist s n.hoist := hoist_congr rfl _
  have hcu (d : Ctx) : ctx (atUnit n s) d = ctx s d := ctx_congr s rfl d
  obtain ⟨-, rfl⟩ | ⟨-, rfl⟩ | ⟨hm', -, -, -⟩ | ⟨hm', -, -, -⟩ := h
  · obtain ⟨hh, hcx, -⟩ := hoistGoes_waits (s := atUnit n s) hg
    rw [hu] at hh
    have hcx (d : Ctx) : ctx (hoistGoes true n (atUnit n s)) d = ctx s d := (ctx_congr _ hcx d).trans (hcu d)
    have hcl : ClosesAtRoot (hoist (hoistGoes true n (atUnit n s)) n.hoist) := by
      rw [hh]
      refine hc.with_waiters fun w hw' => ?_
      obtain hw' | hw' := List.mem_append.1 hw'
      · exact hc.waiters w hw'
      · rw [List.mem_singleton.1 hw']; rfl
    obtain ⟨h1, h2⟩ := checkHoist_closes hcl n.ac
    rw [hh] at h1 h2
    have hcx2 (d : Ctx) : ctx (checkHoist n.hoist n.ac (hoistGoes true n (atUnit n s))) d = ctx (releaseHWait n.hoist n.ac
        ((hoist s n.hoist).waiters.foldl (releaseHWait n.hoist n.ac) (hoistGoes true n (atUnit n s))) (hwaitFor n s)) d := by
      rw [ctx_congr _ h2, List.foldl_append]; rfl
    refine ⟨h1, ?_, fun w hw' => ?_, fun d hd hd' => ?_⟩
    · rw [hcx2]
      refine (ctx_releaseHWait ..).trans ?_
      show goesOn n (ctx _ n.ctx) = _
      rw [ctx_releaseHWaits_ne _ _ _ _ _ hw, hcx]
    · rw [hcx2, ctx_releaseHWait_ne (fun he => hw w hw' he.symm), ctx_releaseHWaits _ _ _ _ hact w hw', hcx]
    · rw [hcx2, ctx_releaseHWait_ne (fun he => hd he.symm), ctx_releaseHWaits_ne _ _ _ _ _ hd', hcx]
  · obtain ⟨hh, hon, ho, -⟩ := hoistGoes_passes (s := atUnit n s) hg
    rw [hu] at hh
    obtain ⟨h1, h2⟩ := checkHoist_closes (s := hoistGoes false n (atUnit n s)) (by rw [hh]; exact hc) n.ac
    rw [hh] at h1 h2
    refine ⟨h1, ?_, fun w hw' => ?_, fun d hd hd' => ?_⟩ <;> rw [ctx_congr _ h2]
    · exact (ctx_releaseHWaits_ne _ _ _ _ _ hw).trans (by rw [hon, hcu])
    · exact (ctx_releaseHWaits _ _ _ _ hact w hw').trans (by rw [ho _ (hw w hw'), hcu])
    · exact (ctx_releaseHWaits_ne _ _ _ _ _ hd').trans (by rw [ho d hd, hcu])
  · omega
  · omega

/-! ### The entry of host software -/

theorem hostEnter_free {s : State} {h : Nat} (hf : FreeFor 8 (hoist s h)) : hostEnter h s = checkHoist h (ac s) (markEntry h 8 false s) := by
  rw [hostEnter, hf.entryOf]

end Sys2Proof.Machine

section
open Sys2Proof Sys2Proof.Machine Host

/-- Settles O28: an entry that is free is recorded; an epoch that lacks a participant stays as recorded, and one that completes
at a root without children closes and releases its waiters. -/
theorem hoistEntries : Obligations.HoistEntries := by
  refine ⟨fun s c sl h mode pr act hdue hp hr hop hq hh hm hpr hact hw h2 h3 h4 h5 h6 h7 => ?_,
    fun s h q hh hq8 hen hmask hst hmark => ?_⟩
  · obtain ⟨hf1, hf2, hf3, hf4, -⟩ := hoistWord_fields hh hm hpr hw
    have hok : hoistOk (cmdOf s (ctx s c) sl) = true := hoistOk_of hop hr hh hm hpr hact hw h2 h3 h4 h5 h6 h7
    have hw1 : (cmdOf s (ctx s c) sl).w 1 = sl.w1.toNat := by rw [Cmd.w, cmdOf_hoist_words hop]; rfl
    obtain ⟨hc, hrest⟩ := hoistSent_issued (n := { ctx := c, ac := (cmdOf s (ctx s c) sl).arrives, hoist := h
                                                   mode := if mode = 0 ∧ (issueCtx s c sl).rejoin = true then 2 else mode
                                                   act := act, pred := pr, tag := (cmdOf s (ctx s c) sl).tag }) rfl
      (frame_passed (s := s) (c := c) (sl := sl) (fun x => { x with point := .hoist, rejoin := false }))
    refine ⟨_, Eq.trans (b := issueHoistRow mode sl s) ?_ ?_, hc.trans (by rw [ctx_modCtx_same, ctx_passed]), hrest⟩
    · obtain rfl | rfl | rfl : mode = 0 ∨ mode = 1 ∨ mode = 2 := by omega
      all_goals rfl
    · rw [issueHoistRow, hoistMode, if_pos hf2, issueRow, if_pos hop, doIssue_pass hdue hp,
        atPoint_go (by rw [ctx_atIssue]; exact hq), issueHoist_ok hok, hw1, hf1, hf2, hf3, hf4, ctx_atIssue]
  · extract_lets x y z lacks closes
    have hfree : FreeFor q (hoist s h) := ⟨hen, hmask, hst, hmark⟩
    have hopen : lacks → epochComplete (withEntry q (hoist s h)) = false := epochComplete_lacks (x := withEntry q (hoist s h))
    have hroot : closes → ClosesAtRoot (withEntry q (hoist s h)) := by
      rintro ⟨h1, h2, h3, h4, h5, h6, h7⟩
      exact ⟨hst, h2, h3, h4, h5, h1, h6, fun w hw => (h7 w hw).1⟩
    have hact : closes → ∀ w ∈ x.waiters, w.act = false := by
      rintro ⟨-, -, -, -, -, -, h7⟩ w hw
      exact (h7 w hw).2
    refine ⟨fun hq hrel => ?_, fun n hn hnq hnh hg => ?_⟩
    · subst hq
      have hx : exec (.hostArrive h) s = .next (checkHoist h (ac s) (markEntry h 8 false s)) := by
        show execHostArrive h s = _
        rw [execHostArrive, afterBoot_of _ _ hrel, Nat.mod_eq_of_lt hh, hostEnter_free hfree]
      have hmk := hoist_markEntry h 8 s
      have hcx (d : Ctx) : ctx (markEntry h 8 false s) d = ctx s d := ctx_congr s rfl d
      refine ⟨_, hx, by rw [checkHoist_frame]; rfl, by rw [checkHoist_frame]; rfl, fun hl => ?_, fun hc => ?_⟩
      · rw [checkHoist_open (by rw [hmk]; exact hopen hl)]
        exact ⟨hmk, rfl⟩
      · obtain ⟨h1, h2⟩ := checkHoist_closes (s := markEntry h 8 false s) (by rw [hmk]; exact hroot hc) (ac s)
        rw [hmk] at h1 h2
        refine ⟨h1, fun w hw => ?_, fun d hd => ?_⟩ <;> rw [ctx_congr _ h2]
        · exact (ctx_releaseHWaits _ _ _ _ (hact hc) w hw).trans (by rw [hcx])
        · exact (ctx_releaseHWaits_ne _ _ _ _ _ hd).trans (hcx d)
    · subst hnq hnh
      have ho := comeDue_outcome hn hfree
      exact ⟨ho.ents hg, readByte_comeDue _ _ s, fun hl => ho.lacks hg (hopen hl),
        fun hc hm hw => ho.closes hg (hroot hc) (hact hc) hm hw⟩
end

/-!
## Formats: the state after reset, scale bytes and tracker slots (R45, R59 to R62, R424)
-/

section
open Sys2Proof Sys2Proof.Machine Host

/-- Settles O5: every field the statement names is a literal of `State.atRelease`, and a sparse map that lists nothing reads its
default everywhere. -/
theorem resetState : Obligations.ResetState :=
  ⟨rfl, fun _ => ⟨rfl, rfl, rfl⟩, fun _ => rfl, rfl, fun _ => ⟨rfl, rfl⟩, fun _ => rfl, fun _ => rfl, rfl, rfl, rfl, fun _ => rfl,
    rfl, rfl⟩
end

namespace Sys2Proof.Machine

/-- A scale byte below 255 is a power of two, 255 is NaN (R45). -/
theorem decodeE8M0_of_le {X : Nat} (h : X ≤ 254) : decodeE8M0 X = .fin false 1 ((X : Int) - 127) := if_neg (by omega)

theorem decodeMx_of_le (f : Fmt) (kind : Bool) {X : Nat} (w : Nat) (h : X ≤ 254) :
    decodeMx f kind X w = (decodeElem f kind w).scale2 ((X : Int) - 127) := if_neg (by omega)

end Sys2Proof.Machine

section
open Sys2Proof Sys2Proof.Machine Host
/-- Settles O59: a scale byte other than 255 moves the exponent of a finite element, and nothing else (R45). -/
theorem scaleBytesDecode : Obligations.ScaleBytesDecode := by
  refine ⟨fun X h => decodeE8M0_of_le h, rfl, fun X h => ?_, fun f kind w _ => rfl, fun f kind X w _ h => ?_⟩
  · obtain h | rfl : X ≤ 254 ∨ X = 255 := by omega
    · rw [decodeE8M0_of_le h]; exact ⟨rfl, rfl, rfl⟩
    · exact ⟨rfl, rfl, rfl⟩
  · rw [decodeMx_of_le f kind w h]
    exact ⟨fun he => by rw [he]; rfl, fun n he => by rw [he]; rfl, fun n m e he => by rw [he]; rfl⟩
end

namespace Sys2Proof.Machine

/-- A bit as the number that its position holds. -/
theorem b2n_bit (w i : Nat) : b2n (bit w i) = w / 2 ^ i % 2 := by
  unfold b2n bit
  split <;> simp_all

/-! ### The fields of a tracker slot (R59) -/

/-- A mask taken apart at bit k: its low bits against the low bits of the number, its high bits against the high ones. -/
theorem and_split (v k a m : Nat) (ha : a < 2 ^ k) : v &&& (2 ^ k * m + a) = 2 ^ k * (v / 2 ^ k &&& m) + (v % 2 ^ k &&& a) := by
  have hlt : v % 2 ^ k &&& a < 2 ^ k := Nat.and_lt_two_pow _ ha
  rw [Nat.two_pow_add_eq_or_of_lt ha, Nat.two_pow_add_eq_or_of_lt hlt]
  refine Nat.eq_of_testBit_eq fun i => ?_
  by_cases h : k ≤ i
  · have hi : a.testBit i = false := Nat.testBit_lt_two_pow (ha.trans_le (Nat.pow_le_pow_right (by decide) h))
    simp [Nat.testBit_two_pow_mul, Nat.testBit_div_two_pow, h, hi]
  · simp [Nat.testBit_two_pow_mul, Nat.testBit_mod_two_pow, h, Nat.lt_of_not_le h]

/-- The bits of SCT_CFG that hold a field: [2:0], [8:4] and [20:12]. -/
theorem and_cfgMask (v : Nat) : v &&& 0x001FF1F7 = v % 2 ^ 3 + v / 2 ^ 4 % 2 ^ 5 * 2 ^ 4 + v / 2 ^ 12 % 2 ^ 9 * 2 ^ 12 := by
  have h1 := and_split v 12 0x1F7 0x1FF (by decide)
  have h2 := and_split (v % 2 ^ 12) 4 7 0x1F (by decide)
  have h3 (k w : Nat) : w &&& (2 ^ k - 1) = w % 2 ^ k := Nat.and_two_pow_sub_one_eq_mod w k
  have h4 := h3 9 (v / 2 ^ 12)
  have h5 := h3 5 (v % 2 ^ 12 / 2 ^ 4)
  have h6 := h3 3 (v % 2 ^ 12 % 2 ^ 4)
  norm_num at h1 h2 h4 h5 h6 ⊢
  omega

theorem sctCfgWord_sctSetCfg (v : Nat) (k : Sct) : sctCfgWord (sctSetCfg v k) = v &&& 0x001FF1F7 := by
  rw [and_cfgMask]
  simp only [sctCfgWord, sctSetCfg, b2n_bit, bits]
  omega

/-! ### The history of a tracker slot (R61, R62) -/

/-- A map filled at 1 to n, one entry after the other: its entries are as they were filled, and none stands at 0. -/
theorem get_iter_set_succ (f : Nat → Nat) (n i : Nat) :
    SMap.get 0 (iter (fun i m => SMap.set 0 m (i + 1) (f i)) n []) i = if 0 < i ∧ i ≤ n then f (i - 1) else 0 := by
  induction n with
  | zero => simp [iter]; omega
  | succ n ih =>
    rw [iter, SMap.get_set, ih]
    by_cases hi : i = n + 1
    · simp [hi]
    · rw [if_neg hi]
      exact if_congr (by omega) rfl rfl

/-- A computed scale leaves the history as it is. -/
@[simp] theorem takeScale_hist (k : Sct) (a : Nat) : (takeScale k a).hist = k.hist := by
  unfold takeScale installScale
  split <;> rfl

theorem sctHist_sctRoll (k : Sct) (i : Nat) : sctHist (sctRoll k) i = if 0 < i ∧ i ≤ 15 then sctHist k (i - 1) else 0 := by
  rw [← get_iter_set_succ]
  unfold sctRoll
  dsimp only
  split
  · rw [sctHist, takeScale_hist]
  · rfl

theorem sctRoll_scale {k : Sct} (h : k.policy ≠ 1) : (sctRoll k).scale = k.scale := by
  unfold sctRoll
  dsimp only
  rw [if_neg h]

theorem sctHist_sctFold {k : Sct} (h : k.policy ≠ 0) (amax : Nat) (nf : Bool) (i : Nat) :
    sctHist (sctFold amax nf k) i = if i = 0 then maxMag (sctHist k 0) amax else sctHist k i := by
  rw [sctFold, if_neg h]
  exact SMap.get_set _

end Sys2Proof.Machine

section
open Sys2Proof Sys2Proof.Machine Host
/-- Settles O19, operation by operation: what the slot's configuration word, scale and history entries are after it. -/
theorem trackerOperations : Obligations.TrackerOperations := by
  intro k v hv
  refine ⟨⟨sctCfgWord_sctSetCfg v k, rfl, rfl⟩, ⟨Nat.mod_eq_of_lt hv, rfl⟩, fun i => rfl, ⟨?_, fun i hi => ?_, sctRoll_scale⟩,
    fun amax nf h => if_pos h, fun amax nf h => ⟨?_, fun i hi => ?_⟩⟩
  · exact sctHist_sctRoll k 0
  · exact (sctHist_sctRoll k (i + 1)).trans (if_pos ⟨by omega, by omega⟩)
  · exact sctHist_sctFold h amax nf 0
  · rw [sctHist_sctFold h, if_neg (by omega)]
end

/-!
## Formats: magnitudes that a layout holds are rounded to themselves (R39, R50)
-/

namespace Sys2Proof.Machine

/-! ### One magnitude written with two exponents -/

/-- A power of two as a whole multiple of a lower one. -/
theorem two_zpow_eq_shift {e q : Int} (h : q ≤ e) : (2 : ℚ) ^ e = 2 ^ (e - q).toNat * 2 ^ q := by
  rw [← zpow_natCast, Int.toNat_of_nonneg (by omega), ← zpow_add₀ two_ne_zero, Int.sub_add_cancel]

/-- A magnitude is another one shifted, up or down, where their values agree. -/
theorem eq_shift_of_mul_zpow_eq {m n : Nat} {e q : Int} (h : (n : ℚ) * 2 ^ e = m * 2 ^ q) :
    (q ≤ e → m = n * 2 ^ (e - q).toNat) ∧ (e ≤ q → n = m * 2 ^ (q - e).toNat) := by
  have key {m n : Nat} {e q : Int} (h : (n : ℚ) * 2 ^ e = m * 2 ^ q) (hq : q ≤ e) : m = n * 2 ^ (e - q).toNat := by
    rw [two_zpow_eq_shift hq, ← mul_assoc] at h
    exact_mod_cast (mul_right_cancel₀ (zpow_ne_zero q two_ne_zero) h).symm
  exact ⟨key h, key h.symm⟩

/-- Where their values agree two magnitudes are zero together. -/
theorem eq_zero_iff_of_mul_zpow_eq {m n : Nat} {e q : Int} (h : (n : ℚ) * 2 ^ e = m * 2 ^ q) : n = 0 ↔ m = 0 := by
  have h2 (k : Int) : (2 : ℚ) ^ k ≠ 0 := zpow_ne_zero k two_ne_zero
  constructor <;> rintro rfl
  · simpa [h2] using h.symm
  · simpa [h2] using h

/-! ### Rounding a magnitude that needs none (R50) -/

/-- The binary exponent of a whole multiple of 2^e. -/
theorem floorLog2_one (n : Nat) (hn : n ≠ 0) (e : Int) : floorLog2 n 1 e = Nat.log2 n + e := by
  have h : ¬ n < 1 * 2 ^ n.log2 := by rw [one_mul]; exact Nat.not_lt.2 (Nat.log2_self_le hn)
  have h1 : (Nat.log2 n : Int) - Nat.log2 1 = Nat.log2 n := sub_zero _
  unfold floorLog2
  simp only [h1, Int.natCast_nonneg, if_true, Int.toNat_natCast, h, decide_false, Bool.false_eq_true, if_false]

/-- The binary exponent belongs to the value: it does not see how the magnitude is written. -/
theorem log2_add_of_mul_zpow_eq {m n : Nat} {e q : Int} (hn : n ≠ 0) (h : (n : ℚ) * 2 ^ e = m * 2 ^ q) :
    (Nat.log2 n : Int) + e = Nat.log2 m + q := by
  have hm : m ≠ 0 := fun h0 => hn ((eq_zero_iff_of_mul_zpow_eq h).2 h0)
  have hs {a b k : Nat} (hb : b ≠ 0) (h : a = b * 2 ^ k) : a.log2 = b.log2 + k := by
    obtain ⟨h1, h2⟩ := (Nat.log2_eq_iff hb).1 rfl
    rw [h, Nat.log2_eq_iff (by positivity), pow_add, show b.log2 + k + 1 = b.log2 + 1 + k by omega, pow_add]
    exact ⟨Nat.mul_le_mul_right _ h1, Nat.mul_lt_mul_of_pos_right h2 (by positivity)⟩
  obtain ⟨h1, h2⟩ := eq_shift_of_mul_zpow_eq h
  rcases le_total q e with hq | hq
  · rw [hs hn (h1 hq)]; omega
  · rw [hs hm (h2 hq)]; omega

/-- A whole number of units is not rounded. -/
theorem roundUnits_mul (rnd : Rnd) (m : Nat) {d : Nat} (hd : 0 < d) : roundUnits rnd (m * d) d = (m, false) := by
  cases rnd with
  | rne => simp [roundUnits, b2n, Nat.mul_div_cancel _ hd, hd.ne]
  | rtz => simp [roundUnits, b2n, Nat.mul_div_cancel _ hd]
  | sr r => simp [roundUnits, b2n, Nat.mul_div_cancel _ hd, Nat.mod_lt r]

/-- A magnitude that is a whole number m of units of 2^q, counted in such units, is m. -/
theorem roundUnits_inUnits {m n : Nat} {e q : Int} (h : (n : ℚ) * 2 ^ e = m * 2 ^ q) (rnd : Rnd) :
    roundUnits rnd (inUnits n 1 e q).1 (inUnits n 1 e q).2 = (m, false) := by
  obtain ⟨h1, h2⟩ := eq_shift_of_mul_zpow_eq h
  unfold inUnits
  split
  · rename_i hq
    simpa [← h1 hq] using roundUnits_mul rnd m one_pos
  · rename_i hq
    simpa [h2 (by omega)] using roundUnits_mul rnd m (d := 2 ^ (q - e).toNat) (by positivity)

/-- The least exponent of a layout's unit in the last place. -/
def Layout.qmin (L : Layout) : Int := 1 - (L.bias : Int) - L.mb

/-- The pairs of significand and exponent that the encodings of a layout stand for: those of a hidden one, and below them those
of the least exponent (R39). -/
def Layout.canonical (L : Layout) (m : Nat) (q : Int) : Prop :=
  m < 2 ^ (L.mb + 1) ∧ L.qmin ≤ q ∧ (2 ^ L.mb ≤ m ∨ q = L.qmin)

/-- A magnitude that a layout holds is rounded to its own encoding, exactly, however it is written. -/
theorem Layout.roundMag_canonical {L : Layout} {m n : Nat} {e q : Int} (hc : L.canonical m q) (h : (n : ℚ) * 2 ^ e = m * 2 ^ q)
    (rnd : Rnd) : L.roundMag rnd n 1 e = (m + (q - L.qmin).toNat * 2 ^ L.mb, false) := by
  obtain ⟨hlt, hq, hm⟩ := hc
  unfold Layout.roundMag
  by_cases hn : n = 0
  · have h0 : m = 0 := (eq_zero_iff_of_mul_zpow_eq h).1 hn
    have hq : q = L.qmin := hm.resolve_left (by rw [h0]; exact Nat.not_le.2 (by positivity))
    simp [hn, h0, hq]
  · have h0 : m ≠ 0 := fun h0 => hn ((eq_zero_iff_of_mul_zpow_eq h).2 h0)
    have hlog : m.log2 < L.mb + 1 := (Nat.log2_lt h0).2 hlt
    have hunit : Max.max (floorLog2 n 1 e - L.mb) L.qmin = q := by
      rw [floorLog2_one n hn, log2_add_of_mul_zpow_eq hn h]
      rcases hm with hm | rfl
      · have : L.mb ≤ m.log2 := (Nat.le_log2 h0).2 hm
        omega
      · omega
    rw [Layout.qmin] at hunit
    rw [if_neg hn]
    simp only [hunit, roundUnits_inUnits h, Layout.qmin]

/-! ### Encodings of a layout and what they stand for (R39, R40) -/

/-- The exponent field and the mantissa field of an encoding. -/
def Layout.expOf (L : Layout) (w : Nat) : Nat := bits w (L.eb + L.mb - 1) L.mb
def Layout.manOf (L : Layout) (w : Nat) : Nat := w % 2 ^ L.mb

/-- The significand and the exponent of a finite encoding. -/
def Layout.sigOf (L : Layout) (w : Nat) : Nat := if L.expOf w = 0 then L.manOf w else 2 ^ L.mb + L.manOf w
def Layout.ulpOf (L : Layout) (w : Nat) : Int :=
  if L.expOf w = 0 then L.qmin else (L.expOf w : Int) - L.bias - L.mb

variable {L : Layout} {w : Nat}

theorem Layout.expOf_lt (he : 0 < L.eb) (w : Nat) : L.expOf w < 2 ^ L.eb := by
  unfold Layout.expOf bits
  rw [show L.eb + L.mb - 1 + 1 - L.mb = L.eb by omega]
  exact Nat.mod_lt _ (by positivity)

/-- An encoding is its sign, its exponent and its mantissa. -/
theorem Layout.fields (he : 0 < L.eb) (hw : w < 2 ^ (1 + L.eb + L.mb)) :
    w = L.signed (bit w (L.eb + L.mb)) (L.expOf w * 2 ^ L.mb + L.manOf w) := by
  have hs : w / 2 ^ (L.eb + L.mb) % 2 = w / 2 ^ L.mb / 2 ^ L.eb := by
    rw [Nat.div_div_eq_div_mul, ← pow_add, add_comm L.mb]
    refine Nat.mod_eq_of_lt (Nat.div_lt_of_lt_mul ?_)
    rwa [← pow_succ, show L.eb + L.mb + 1 = 1 + L.eb + L.mb by omega]
  unfold Layout.signed Layout.expOf Layout.manOf bits
  rw [b2n_bit, hs, show L.eb + L.mb - 1 + 1 - L.mb = L.eb by omega, pow_add]
  calc w = 2 ^ L.mb * (2 ^ L.eb * (w / 2 ^ L.mb / 2 ^ L.eb) + w / 2 ^ L.mb % 2 ^ L.eb) + w % 2 ^ L.mb := by
        rw [Nat.div_add_mod, Nat.div_add_mod]
    _ = _ := by ring

end Sys2Proof.Machine

/-!
## Formats: decode and encode agree (R39 to R42, R50)
-/

namespace Sys2Proof.Machine

variable {L : Layout} {w : Nat}

/-- The magnitude of an encoding: it without its sign. -/
def Layout.magOf (L : Layout) (w : Nat) : Nat := L.expOf w * 2 ^ L.mb + L.manOf w

theorem Layout.manOf_lt (L : Layout) (w : Nat) : L.manOf w < 2 ^ L.mb := Nat.mod_lt _ (by positivity)

/-- What an encoding whose exponent field is not all ones stands for. -/
def Layout.finite (L : Layout) (w : Nat) : Val := .fin (bit w (L.eb + L.mb)) (L.sigOf w) (L.ulpOf w)

theorem Layout.decode_eq (L : Layout) (w : Nat) : L.decode w =
    if L.expOf w = 2 ^ L.eb - 1 then
      match L.special with
      | .ieee => if L.manOf w = 0 then .inf (bit w (L.eb + L.mb)) else .nan
      | .e4m3 => if L.manOf w = 2 ^ L.mb - 1 then .nan else L.finite w
      | .none => L.finite w
    else L.finite w := by
  have h : L.finite w = if L.expOf w = 0 then .fin (bit w (L.eb + L.mb)) (L.manOf w) L.qmin
      else .fin (bit w (L.eb + L.mb)) (2 ^ L.mb + L.manOf w) ((L.expOf w : Int) - L.bias - L.mb) := by
    unfold Layout.finite Layout.sigOf Layout.ulpOf
    split <;> rfl
  rw [h]
  rfl

/-- Below the all-ones exponent every magnitude is at most the largest finite one; of the all-ones exponent an E4M3 layout leaves
all but the last mantissa, and one without specials leaves all (R40). -/
theorem Layout.magOf_le_maxBits (he : 0 < L.eb) (w : Nat) (h : L.expOf w = 2 ^ L.eb - 1 →
    L.special ≠ .ieee ∧ (L.special = .e4m3 → L.manOf w ≠ 2 ^ L.mb - 1)) : L.magOf w ≤ L.maxBits := by
  have hman := L.manOf_lt w
  have hexp := L.expOf_lt he w
  obtain ⟨T, hT⟩ : ∃ T, 2 ^ L.eb = T + 1 := ⟨_, (Nat.sub_add_cancel Nat.one_le_two_pow).symm⟩
  unfold Layout.magOf Layout.maxBits
  rw [pow_add, hT, Nat.add_sub_cancel, add_mul]
  rw [hT, Nat.add_sub_cancel] at h
  rcases (by omega : L.expOf w = T ∨ L.expOf w + 1 ≤ T) with hx | hx
  · obtain ⟨h1, h2⟩ := h hx
    rw [hx]
    cases hs : L.special with
    | ieee => exact absurd hs h1
    | e4m3 => have := h2 hs; dsimp only; omega
    | none => dsimp only; omega
  · have hle := Nat.mul_le_mul_right (2 ^ L.mb) hx
    rw [add_mul] at hle
    cases L.special <;> dsimp only <;> omega

/-- A finite encoding is its fields' significand and exponent, and is no larger than the largest. -/
theorem Layout.decode_finite (he : 0 < L.eb) {n : Bool} {m : Nat} {e : Int} (h : L.decode w = .fin n m e) :
    L.finite w = .fin n m e ∧ L.magOf w ≤ L.maxBits := by
  rw [L.decode_eq] at h
  split at h
  · split at h
    · split at h <;> cases h
    · rename_i hs
      split at h
      · cases h
      · rename_i hm
        exact ⟨h, L.magOf_le_maxBits he w fun _ => ⟨by simp [hs], fun _ => hm⟩⟩
    · rename_i hs
      exact ⟨h, L.magOf_le_maxBits he w fun _ => by simp [hs]⟩
  · rename_i hx
    exact ⟨h, L.magOf_le_maxBits he w fun h => absurd h hx⟩

/-- An infinity is the all-ones exponent with no mantissa (R40). -/
theorem Layout.decode_inf {n : Bool} (h : L.decode w = .inf n) :
    L.special = .ieee ∧ n = bit w (L.eb + L.mb) ∧ L.magOf w = L.infBits := by
  rw [L.decode_eq] at h
  split at h
  · rename_i hx
    split at h
    · rename_i hs
      split at h
      · rename_i hm
        exact ⟨hs, (Val.inf.inj h).symm, by rw [Layout.magOf, hx, hm]; rfl⟩
      · cases h
    · split at h <;> cases h
    · cases h
  · cases h

/-- A finite encoding stands for a canonical pair, and its magnitude is that pair's. -/
theorem Layout.canonical_sigOf (L : Layout) (w : Nat) : L.canonical (L.sigOf w) (L.ulpOf w) ∧
    L.sigOf w + (L.ulpOf w - L.qmin).toNat * 2 ^ L.mb = L.magOf w := by
  have h1 := L.manOf_lt w
  have h2 : 2 ^ (L.mb + 1) = 2 * 2 ^ L.mb := by ring
  unfold Layout.canonical Layout.sigOf Layout.ulpOf Layout.magOf
  split
  · rename_i h
    refine ⟨⟨by omega, le_rfl, .inr rfl⟩, by simp [h]⟩
  · rename_i h
    unfold Layout.qmin
    refine ⟨⟨by omega, by omega, .inl (by omega)⟩, ?_⟩
    obtain ⟨k, hk⟩ := Nat.exists_eq_succ_of_ne_zero h
    rw [hk, show (((k + 1 : Nat) : Int) - L.bias - L.mb - (1 - L.bias - L.mb)).toNat = k by omega, Nat.succ_mul]
    omega

/-- A finite value that a layout holds encodes to the bits that hold it, however it is written, in every rounding mode and
without a flag (R50). -/
theorem Layout.encode_of_value (he : 0 < L.eb) (hw : w < 2 ^ (1 + L.eb + L.mb)) {n : Bool} {m m' : Nat} {e e' : Int}
    (h : L.decode w = .fin n m e) (hv : (m' : ℚ) * 2 ^ e' = m * 2 ^ e) (rnd : Rnd) (sat : Bool) :
    L.encode rnd sat (.fin n m' e') = (w, fNone) := by
  obtain ⟨hf, hmax⟩ := L.decode_finite he h
  obtain ⟨rfl, rfl, rfl⟩ := Val.fin.inj hf
  obtain ⟨hc, hmag⟩ := L.canonical_sigOf w
  unfold Layout.encode Layout.encodeRat
  simp only [L.roundMag_canonical hc hv, hmag]
  rw [if_neg (Nat.not_lt.2 hmax)]
  exact Prod.ext (L.fields he hw).symm (by simp [fIf, fNone])

theorem Layout.encode_inf_decode (he : 0 < L.eb) (hw : w < 2 ^ (1 + L.eb + L.mb)) {n : Bool} (h : L.decode w = .inf n)
    (rnd : Rnd) : L.encode rnd false (.inf n) = (w, fNone) := by
  obtain ⟨hs, rfl, hmag⟩ := L.decode_inf h
  unfold Layout.encode
  simp only [hs, ← hmag]
  exact Prod.ext (L.fields he hw).symm rfl

end Sys2Proof.Machine

section
open Sys2Proof Sys2Proof.Machine Host

/-- Settles O60: a finite encoding holds a canonical significand and exponent, which rounding leaves alone; the two specials
are read off their fields. -/
theorem numbersEncodeBack : Obligations.NumbersEncodeBack := by
  intro L w rnd sat hL hw
  have he : 0 < L.eb := by
    simp only [List.mem_cons, List.not_mem_nil, or_false] at hL
    obtain rfl | rfl | rfl | rfl | rfl | rfl | rfl | rfl := hL <;> decide
  refine ⟨fun n m e h => ?_, fun n h => ?_, fun h => ?_⟩ <;> rw [h]
  · exact Layout.encode_of_value he hw h rfl rnd sat
  · exact Layout.encode_inf_decode he hw h rnd
  · rfl
end

/-!
## Values: exact arithmetic is that of the rationals (R54, R120 to R122)
-/

namespace Sys2Proof.Machine

variable {a b c : Val}

theorem Val.exists_fin (h : a.isFin = true) : ∃ s m e, a = .fin s m e := by
  cases a with
  | nan => cases h
  | inf s => cases h
  | fin s m e => exact ⟨s, m, e, rfl⟩

@[simp] theorem Val.isFin_fin (s : Bool) (m : Nat) (e : Int) : (Val.fin s m e).isFin = true := rfl

@[simp] theorem valRat_fin_zero (s : Bool) (e : Int) : valRat (.fin s 0 e) = 0 := by simp [valRat]

/-- A value as a whole number of units of 2^q. -/
theorem valRat_eq_scaledInt (s : Bool) (m : Nat) {e q : Int} (h : q ≤ e) : valRat (.fin s m e) = scaledInt s m e q * 2 ^ q := by
  unfold scaledInt
  cases s <;> simp [valRat, two_zpow_eq_shift h] <;> ring

theorem valRat_ofInt (i q : Int) : valRat (.ofInt i q) = i * 2 ^ q := by
  have h : (if i < 0 then -1 else 1) * (i.natAbs : ℚ) = i := by
    rw [Nat.cast_natAbs]
    split
    · rename_i h; rw [abs_of_neg h]; push_cast; ring
    · rename_i h; rw [abs_of_nonneg (by omega), one_mul]
  simp only [valRat, Val.ofInt, decide_eq_true_eq, h]

/-! ### The operations -/

/-- What the sum of two finite values is: a zero, or their integers at the lower exponent added. -/
theorem Val.add_fin (s t : Bool) (m n : Nat) (e f : Int) : (Val.fin s m e).add (.fin t n f) =
    (if scaledInt s m e (Min.min e f) + scaledInt t n f (Min.min e f) = 0 then .fin (decide (m = 0) && decide (n = 0) && s && t) 0 0
     else .ofInt (scaledInt s m e (Min.min e f) + scaledInt t n f (Min.min e f)) (Min.min e f), fNone) := by
  simp only [Val.add]
  split <;> rfl

theorem Val.add_exact (ha : a.isFin = true) (hb : b.isFin = true) :
    (a.add b).1.isFin = true ∧ (a.add b).2 = fNone ∧ valRat (a.add b).1 = valRat a + valRat b := by
  obtain ⟨s, m, e, rfl⟩ := Val.exists_fin ha
  obtain ⟨t, n, f, rfl⟩ := Val.exists_fin hb
  rw [Val.add_fin, valRat_eq_scaledInt s m (min_le_left e f), valRat_eq_scaledInt t n (min_le_right e f), ← add_mul,
    ← Int.cast_add]
  split
  · rename_i h
    rw [h]
    simp
  · exact ⟨rfl, rfl, valRat_ofInt ..⟩

theorem Val.neg_exact (ha : a.isFin = true) : a.neg.isFin = true ∧ valRat a.neg = -valRat a := by
  obtain ⟨s, m, e, rfl⟩ := Val.exists_fin ha
  cases s <;> simp [Val.neg, valRat]

theorem Val.sub_exact (ha : a.isFin = true) (hb : b.isFin = true) :
    (a.sub b).1.isFin = true ∧ (a.sub b).2 = fNone ∧ valRat (a.sub b).1 = valRat a - valRat b := by
  rw [sub_eq_add_neg, ← (Val.neg_exact hb).2]
  exact Val.add_exact ha (Val.neg_exact hb).1

theorem Val.mul_exact (ha : a.isFin = true) (hb : b.isFin = true) :
    (a.mul b).1.isFin = true ∧ (a.mul b).2 = fNone ∧ valRat (a.mul b).1 = valRat a * valRat b := by
  obtain ⟨s, m, e, rfl⟩ := Val.exists_fin ha
  obtain ⟨t, n, f, rfl⟩ := Val.exists_fin hb
  refine ⟨rfl, rfl, ?_⟩
  simp only [Val.mul, valRat, zpow_add₀ (two_ne_zero (α := ℚ)), Nat.cast_mul]
  cases s <;> cases t <;> simp <;> ring

theorem Val.fma_exact (ha : a.isFin = true) (hb : b.isFin = true) (hc : c.isFin = true) :
    (a.fma b c).1.isFin = true ∧ (a.fma b c).2 = fNone ∧ valRat (a.fma b c).1 = valRat a * valRat b + valRat c := by
  obtain ⟨hm, hmf, hmv⟩ := Val.mul_exact ha hb
  obtain ⟨hs, hsf, hsv⟩ := Val.add_exact hm hc
  refine ⟨hs, ?_, hsv.trans (by rw [hmv])⟩
  unfold Val.fma
  simp only [hmf, hsf]
  rfl

theorem Val.abs_exact (ha : a.isFin = true) : a.abs.isFin = true ∧ valRat a.abs = |valRat a| := by
  obtain ⟨s, m, e, rfl⟩ := Val.exists_fin ha
  have h : (0 : ℚ) ≤ m * 2 ^ e := by positivity
  cases s <;> simp [Val.abs, valRat, abs_of_nonneg h]

/-! ### The order -/

/-- The compare of two finite values has the sign of their difference. -/
theorem Val.cmp_exact (ha : a.isFin = true) (hb : b.isFin = true) :
    (a.cmp b = 0 ↔ valRat a = valRat b) ∧ (a.cmp b < 0 ↔ valRat a < valRat b) ∧ (a.cmp b ≤ 0 ↔ valRat a ≤ valRat b) := by
  obtain ⟨s, m, e, rfl⟩ := Val.exists_fin ha
  obtain ⟨t, n, f, rfl⟩ := Val.exists_fin hb
  have h2 : (0 : ℚ) < 2 ^ (Min.min e f) := by positivity
  rw [valRat_eq_scaledInt s m (min_le_left e f), valRat_eq_scaledInt t n (min_le_right e f), mul_left_inj' h2.ne',
    mul_lt_mul_iff_left₀ h2, mul_le_mul_iff_left₀ h2]
  simp [Val.cmp, sub_eq_zero, sub_neg]

theorem Val.isNan_of_isFin (ha : a.isFin = true) : a.isNan = false := by
  obtain ⟨s, m, e, rfl⟩ := Val.exists_fin ha
  rfl

theorem Val.eqv_iff (ha : a.isFin = true) (hb : b.isFin = true) : Val.eqv a b = true ↔ valRat a = valRat b := by
  simp [Val.eqv, Val.isNan_of_isFin ha, Val.isNan_of_isFin hb, (Val.cmp_exact ha hb).1]

theorem Val.lt_iff (ha : a.isFin = true) (hb : b.isFin = true) : Val.lt a b = true ↔ valRat a < valRat b := by
  simp [Val.lt, Val.isNan_of_isFin ha, Val.isNan_of_isFin hb, (Val.cmp_exact ha hb).2.1]

theorem Val.le_iff (ha : a.isFin = true) (hb : b.isFin = true) : Val.le a b = true ↔ valRat a ≤ valRat b := by
  simp [Val.le, Val.isNan_of_isFin ha, Val.isNan_of_isFin hb, (Val.cmp_exact ha hb).2.2]

/-- The smaller and the larger of two finite values are one of the two each. -/
theorem Val.min_exact (ha : a.isFin = true) (hb : b.isFin = true) :
    (a.min b).isFin = true ∧ valRat (a.min b) = Min.min (valRat a) (valRat b) := by
  obtain ⟨heq, hlt, -⟩ := Val.cmp_exact ha hb
  unfold Val.min
  simp only [Val.isNan_of_isFin ha, Val.isNan_of_isFin hb, Bool.or_self, Bool.false_eq_true, if_false, heq, hlt]
  split_ifs with h0 hs h1
  · exact ⟨ha, (min_eq_left h0.le).symm⟩
  · exact ⟨hb, (min_eq_right h0.ge).symm⟩
  · exact ⟨ha, (min_eq_left h1.le).symm⟩
  · exact ⟨hb, (min_eq_right (not_lt.1 h1)).symm⟩

theorem Val.max_exact (ha : a.isFin = true) (hb : b.isFin = true) :
    (a.max b).isFin = true ∧ valRat (a.max b) = Max.max (valRat a) (valRat b) := by
  obtain ⟨heq, hlt, -⟩ := Val.cmp_exact ha hb
  unfold Val.max
  simp only [Val.isNan_of_isFin ha, Val.isNan_of_isFin hb, Bool.or_self, Bool.false_eq_true, if_false, heq, hlt]
  split_ifs with h0 hs h1
  · exact ⟨hb, (max_eq_right h0.le).symm⟩
  · exact ⟨ha, (max_eq_left h0.ge).symm⟩
  · exact ⟨hb, (max_eq_right h1.le).symm⟩
  · exact ⟨ha, (max_eq_left (not_lt.1 h1)).symm⟩

end Sys2Proof.Machine

/-!
## Vector: what the element-wise operations, compares, moves and reductions compute (R120 to R127)
-/

namespace Sys2Proof.Machine

/-! ### The scalar operations (R120 to R122) -/

theorem arithVal_exact {a b c : Val} (ha : a.isFin = true) (hb : b.isFin = true) (hc : c.isFin = true) {v : Nat} (hv : v < 8) :
    (arithVal v a b c).1.isFin = true ∧ (arithVal v a b c).2 = fNone := by
  interval_cases v
  · exact ⟨(Val.add_exact ha hb).1, (Val.add_exact ha hb).2.1⟩
  · exact ⟨(Val.sub_exact ha hb).1, (Val.sub_exact ha hb).2.1⟩
  · exact ⟨(Val.mul_exact ha hb).1, (Val.mul_exact ha hb).2.1⟩
  · exact ⟨(Val.fma_exact ha hb hc).1, (Val.fma_exact ha hb hc).2.1⟩
  · exact ⟨(Val.min_exact ha hb).1, rfl⟩
  · exact ⟨(Val.max_exact ha hb).1, rfl⟩
  · exact ⟨(Val.abs_exact ha).1, rfl⟩
  · exact ⟨(Val.neg_exact ha).1, rfl⟩

/-- A comparison with NaN is false but for the one that asks for inequality (R122). -/
theorem cmpHolds_nan (a : Val) {v : Nat} (hv : v ∈ [0x08, 0x09, 0x0A, 0x0B]) :
    cmpHolds v .nan a = decide (v = 0x09) ∧ cmpHolds v a .nan = decide (v = 0x09) := by
  simp only [List.mem_cons, List.not_mem_nil, or_false] at hv
  obtain rfl | rfl | rfl | rfl := hv <;> simp [cmpHolds, Val.eqv, Val.lt, Val.le, Val.isNan]

/-! ### Elements of a command -/

theorem mem_elems {ws : List Nat} {r j : Nat} : (r, j) ∈ elems ws ↔ r < rowsOf ws ∧ j < vlenOf ws := by
  simp [elems]

theorem mem_actives {s : State} {e : QEnt} {r j : Nat} :
    (r, j) ∈ actives s e ↔ (r < rowsOf e.words ∧ j < vlenOf e.words) ∧ active s e (vlenOf e.words) r j = true := by
  simp [actives, mem_elems]

theorem mem_activeIn {s : State} {e : QEnt} {n r j : Nat} : j ∈ activeIn s e n r ↔ j < n ∧ active s e n r j = true := by
  simp [activeIn]

/-- The old value of the destination element, which FMA adds (R120). -/
def dVal (s : State) (ws : List Nat) (r j : Nat) : Val :=
  decodeElem (dFmt ws) (dKind ws) (readElem s (dRow ws r) (dFmt ws).width j)

/-- The element that an arithmetic operation gives element (r, j), and its flags (R53, R121). -/
def arithElem (s : State) (ws : List Nat) (r j : Nat) : Nat × List W8 :=
  dElem ws r j (encodeArith (dFmt ws) (arithVal (vopOf ws) (aVal s ws r j) (bVal s ws r j) (dVal s ws r j)).1).1
def arithFlags (s : State) (ws : List Nat) (r j : Nat) : Flags :=
  let x := arithVal (vopOf ws) (aVal s ws r j) (bVal s ws r j) (dVal s ws r j)
  x.2 ||| (encodeArith (dFmt ws) x.1).2

/-- An arithmetic operation works on the active elements: each is rounded once into its place, with its flags. -/
theorem vEw_arith {e : QEnt} (hv : vopOf e.words < 8) (s : State) (id : Nat) :
    (vEw s e id).dst = (actives s e).map (fun p => arithElem s e.words p.1 p.2) ∧
    (vEw s e id).fl = (actives s e).map (fun p => (idxOf e.words p, arithFlags s e.words p.1 p.2)) := by
  have h0C : vopOf e.words ≠ 0x0C := by omega
  simp only [vEw, ewVal, h0C, if_false, show vopOf e.words ≤ 7 by omega, if_true]
  exact ⟨rfl, rfl⟩

theorem mem_vEw_arith {e : QEnt} (hv : vopOf e.words < 8) (s : State) (id : Nat) {r j : Nat} (hr : r < rowsOf e.words)
    (hj : j < vlenOf e.words) (ha : active s e (vlenOf e.words) r j = true) : arithElem s e.words r j ∈ (vEw s e id).dst ∧
      (idxOf e.words (r, j), arithFlags s e.words r j) ∈ (vEw s e id).fl := by
  have hmem : (r, j) ∈ actives s e := mem_actives.2 ⟨⟨hr, hj⟩, ha⟩
  rw [(vEw_arith hv s id).1, (vEw_arith hv s id).2]
  exact ⟨List.mem_map.2 ⟨_, hmem, rfl⟩, List.mem_map.2 ⟨_, hmem, rfl⟩⟩

/-- Only the places of active elements are written (R121). -/
theorem vEw_arith_active {e : QEnt} (hv : vopOf e.words < 8) (s : State) (id : Nat) {y : Nat × List W8}
    (hy : y ∈ (vEw s e id).dst) : ∃ p ∈ actives s e, y.1 = (dElem e.words p.1 p.2 0).1 := by
  rw [(vEw_arith hv s id).1] at hy
  obtain ⟨p, hp, rfl⟩ := List.mem_map.1 hy
  exact ⟨p, hp, rfl⟩

/-- SELECT works on every element: the mask says which source it copies (R120). -/
theorem mem_vEw_select {e : QEnt} (hv : vopOf e.words = 0x0C) (s : State) (id : Nat) {r j : Nat} (hr : r < rowsOf e.words)
    (hj : j < vlenOf e.words) : dElem e.words r j (encodeArith (dFmt e.words)
      (if active s e (vlenOf e.words) r j then aVal s e.words r j else bVal s e.words r j)).1 ∈ (vEw s e id).dst := by
  have hdst : (vEw s e id).dst = (elems e.words).map (fun p => dElem e.words p.1 p.2 (encodeArith (dFmt e.words)
      (if active s e (vlenOf e.words) p.1 p.2 then aVal s e.words p.1 p.2 else bVal s e.words p.1 p.2)).1) := by
    simp [vEw, ewVal, hv]
  rw [hdst]
  exact List.mem_map.2 ⟨(r, j), mem_elems.2 ⟨hr, hj⟩, rfl⟩

/-! ### Compares (R122) -/

theorem b2n_lt_two (b : Bool) : b2n b < 2 := by cases b <;> decide

/-- The bits of a number that is built from its lowest bit on. -/
theorem bit_foldr (l : List Bool) (i : Nat) : bit (l.foldr (fun b n => b2n b + 2 * n) 0) i = l.getD i false := by
  induction l generalizing i with
  | nil => simp [bit]
  | cons b l ih =>
    have hb := b2n_lt_two b
    cases i with
    | zero => cases b <;> simp [bit, b2n]
    | succ i =>
      rw [List.foldr_cons, List.getD_cons_succ, ← ih i, bit, bit, pow_succ', ← Nat.div_div_eq_div_mul,
        show (b2n b + 2 * l.foldr (fun b n => b2n b + 2 * n) 0) / 2 = l.foldr (fun b n => b2n b + 2 * n) 0 by omega]

theorem bit_byteOf (l : List Bool) {i : Nat} (hi : i < 8) : bit (byteOf l).toNat i = l.getD i false := by
  rw [← bit_foldr, byteOf, BitVec.toNat_ofNat]
  unfold bit
  interval_cases i <;> simp <;> omega

/-- The bits that a compare writes into byte k of row r of its plane. -/
def cmpByte (s : State) (e : QEnt) (r k : Nat) : W8 :=
  byteOf ((List.range 8).map (fun i => decide (8 * k + i < vlenOf e.words) && active s e (vlenOf e.words) r (8 * k + i)
    && cmpHolds (vopOf e.words) (aVal s e.words r (8 * k + i)) (bVal s e.words r (8 * k + i))))

theorem bit_cmpByte (s : State) (e : QEnt) (r : Nat) {j : Nat} (hj : j < vlenOf e.words) :
    bit (cmpByte s e r (j / 8)).toNat (j % 8) =
      (active s e (vlenOf e.words) r j && cmpHolds (vopOf e.words) (aVal s e.words r j) (bVal s e.words r j)) := by
  have h8 : j % 8 < 8 := Nat.mod_lt _ (by decide)
  rw [cmpByte, bit_byteOf _ h8, List.getD_eq_getElem _ _ (by simpa using h8)]
  simp [Nat.div_add_mod, hj]

theorem mem_vCmp_dst (s : State) (e : QEnt) {r j : Nat} (hr : r < rowsOf e.words) (hj : j < vlenOf e.words) :
    (planeRow (wd e.words 3) (vlenOf e.words) r + j / 8, [cmpByte s e r (j / 8)]) ∈ (vCmp s e).dst := by
  refine List.mem_flatMap.2 ⟨r, List.mem_range.2 hr, List.mem_map.2 ⟨j / 8, List.mem_range.2 ?_, rfl⟩⟩
  unfold ceilDiv
  omega

/-! ### Moves (R123) -/

/-- REVERSE gives an active element the bits of its mirror image (R123). -/
theorem mem_vMove_dst_reverse {e : QEnt} (hv : vopOf e.words = 0x31) (s : State) {r j : Nat} (hr : r < rowsOf e.words)
    (hj : j < vlenOf e.words) (ha : active s e (vlenOf e.words) r j = true) :
    dElem e.words r j (aBits s e.words r (vlenOf e.words - 1 - j)) ∈ (vMove s e).dst := by
  have hrow : (moveRow s e r).1 =
      (activeIn s e (vlenOf e.words) r).map (fun j => moveA s e.words r (vlenOf e.words - 1 - j) j) := by
    simp [moveRow, hv]
  refine List.mem_flatMap.2 ⟨moveRow s e r, List.mem_map.2 ⟨r, List.mem_range.2 hr, rfl⟩, List.mem_append_left _ ?_⟩
  rw [hrow]
  exact List.mem_map.2 ⟨_, List.mem_map.2 ⟨j, mem_activeIn.2 ⟨hj, ha⟩, rfl⟩, rfl⟩

/-! ### Maximum and minimum (R127) -/

/-- A choice between finite values: it is one of the two. -/
def Chooses (f : Val → Val → Val) : Prop := ∀ a b : Val, a.isFin = true → b.isFin = true → f a b = a ∨ f a b = b

/-- A choice taken along a list is one of its values, and stands to each of them as it stands to the two it chooses from. -/
theorem foldl_choice {f : Val → Val → Val} {R : ℚ → ℚ → Prop} (hf : Chooses f)
    (hR : ∀ a b : Val, a.isFin = true → b.isFin = true → R (valRat a) (valRat (f a b)) ∧ R (valRat b) (valRat (f a b)))
    (refl : ∀ x, R x x) (trans : ∀ x y z, R x y → R y z → R x z) (l : List (Nat × Val)) (m : Val) (hm : m.isFin = true)
    (hl : ∀ p ∈ l, p.2.isFin = true) :
    let r := l.foldl (fun m p => f m p.2) m
    (r = m ∨ ∃ p ∈ l, r = p.2) ∧ R (valRat m) (valRat r) ∧ ∀ p ∈ l, R (valRat p.2) (valRat r) := by
  induction l generalizing m with
  | nil => exact ⟨.inl rfl, refl _, by simp⟩
  | cons p l ih =>
    have hp := hl p (by simp)
    have hfin : (f m p.2).isFin = true := by
      rcases hf m p.2 hm hp with h | h <;> rw [h] <;> assumption
    obtain ⟨hr, hle, hall⟩ := ih (f m p.2) hfin fun q hq => hl q (by simp [hq])
    obtain ⟨h1, h2⟩ := hR m p.2 hm hp
    refine ⟨?_, trans _ _ _ h1 hle, fun q hq => ?_⟩
    · rcases hr with hr | ⟨q, hq, hr⟩
      · exact (hf m p.2 hm hp).imp (fun h => hr.trans h) fun h => ⟨p, by simp, hr.trans h⟩
      · exact .inr ⟨q, by simp [hq], hr⟩
    · rcases List.mem_cons.1 hq with rfl | hq
      · exact trans _ _ _ h2 hle
      · exact hall q hq

theorem chooses_max : Chooses Val.max := by
  intro a b ha hb
  unfold Val.max
  simp only [Val.isNan_of_isFin ha, Val.isNan_of_isFin hb, Bool.or_self, Bool.false_eq_true, if_false]
  split_ifs <;> simp

theorem chooses_min : Chooses Val.min := by
  intro a b ha hb
  unfold Val.min
  simp only [Val.isNan_of_isFin ha, Val.isNan_of_isFin hb, Bool.or_self, Bool.false_eq_true, if_false]
  split_ifs <;> simp

/-- A reduction to a maximum starts below, one to a minimum above every finite value (R127). -/
theorem Val.max_negInf {v : Val} (h : v.isFin = true) : Val.max (.inf true) v = v := by
  obtain ⟨s, m, e, rfl⟩ := Val.exists_fin h; rfl

theorem Val.min_posInf {v : Val} (h : v.isFin = true) : Val.min (.inf false) v = v := by
  obtain ⟨s, m, e, rfl⟩ := Val.exists_fin h; rfl

/-- A choice along a list that is not empty, from a start that every finite value replaces. -/
theorem foldl_choice_of_start {f : Val → Val → Val} {R : ℚ → ℚ → Prop} (hf : Chooses f)
    (hR : ∀ a b : Val, a.isFin = true → b.isFin = true → R (valRat a) (valRat (f a b)) ∧ R (valRat b) (valRat (f a b)))
    (refl : ∀ x, R x x) (trans : ∀ x y z, R x y → R y z → R x z) {start : Val}
    (hs : ∀ v : Val, v.isFin = true → f start v = v) {l : List (Nat × Val)} (hne : l ≠ []) (hl : ∀ p ∈ l, p.2.isFin = true) :
    let r := l.foldl (fun m p => f m p.2) start
    (∃ p ∈ l, valRat r = valRat p.2) ∧ ∀ p ∈ l, R (valRat p.2) (valRat r) := by
  obtain ⟨p, l, rfl⟩ := List.exists_cons_of_ne_nil hne
  have hp := hl p (by simp)
  obtain ⟨hr, hle, hall⟩ := foldl_choice hf hR refl trans l p.2 hp fun q hq => hl q (by simp [hq])
  simp only [List.foldl_cons, hs _ hp]
  refine ⟨?_, fun q hq => ?_⟩
  · rcases hr with hr | ⟨q, hq, hr⟩
    · exact ⟨p, by simp, by rw [hr]⟩
    · exact ⟨q, by simp [hq], by rw [hr]⟩
  · rcases List.mem_cons.1 hq with rfl | hq
    · exact hle
    · exact hall q hq

theorem reduce_max (id : Nat) {l : List (Nat × Val)} (hne : l ≠ []) (hl : ∀ p ∈ l, p.2.isFin = true) :
    (∃ p ∈ l, valRat (reduce 1 id l).1 = valRat p.2) ∧ ∀ p ∈ l, valRat p.2 ≤ valRat (reduce 1 id l).1 :=
  foldl_choice_of_start (R := (· ≤ ·)) chooses_max
    (fun a b ha hb => by rw [(Val.max_exact ha hb).2]; exact ⟨le_max_left _ _, le_max_right _ _⟩)
    le_refl (fun _ _ _ => le_trans) (fun _ => Val.max_negInf) hne hl

theorem reduce_min (id : Nat) {l : List (Nat × Val)} (hne : l ≠ []) (hl : ∀ p ∈ l, p.2.isFin = true) :
    (∃ p ∈ l, valRat (reduce 2 id l).1 = valRat p.2) ∧ ∀ p ∈ l, valRat (reduce 2 id l).1 ≤ valRat p.2 :=
  foldl_choice_of_start (R := (· ≥ ·)) chooses_min
    (fun a b ha hb => by rw [(Val.min_exact ha hb).2]; exact ⟨min_le_left _ _, min_le_right _ _⟩)
    le_refl (fun _ _ _ h h' => le_trans h' h) (fun _ => Val.min_posInf) hne hl

/-! ### The family of an operation -/

theorem vOut_ew {e : QEnt} (hv : vopOf e.words < 8 ∨ vopOf e.words = 0x0C) (s : State) (a id : Nat) :
    vOut s e a id = vEw s e id := by
  rw [vOut, show vFam (vopOf e.words) = .ew from if_pos (by omega)]

theorem vOut_cmp {e : QEnt} (hv : vopOf e.words ∈ [0x08, 0x09, 0x0A, 0x0B]) (s : State) (a id : Nat) :
    vOut s e a id = vCmp s e := by
  simp only [List.mem_cons, List.not_mem_nil, or_false] at hv
  obtain h | h | h | h := hv <;> simp [vOut, h, vFam]

theorem vOut_reverse {e : QEnt} (hv : vopOf e.words = 0x31) (s : State) (a id : Nat) : vOut s e a id = vMove s e := by
  simp [vOut, hv, vFam]

end Sys2Proof.Machine

section
open Sys2Proof Sys2Proof.Machine Host

/-- Settles O17: the scalar operations are those of the rationals, and each family's destination list holds the element that the
statement names. -/
theorem vectorCommandsCompute : Obligations.VectorCommandsCompute := by
  refine ⟨fun a b c ha hb hc => ?_, fun a v hv => cmpHolds_nan a hv, fun s e at_ id r j => ?_, fun id l hne hl => ?_⟩
  · exact ⟨fun v hv => arithVal_exact ha hb hc hv, (Val.add_exact ha hb).2.2, (Val.sub_exact ha hb).2.2, (Val.mul_exact ha hb).2.2,
      (Val.fma_exact ha hb hc).2.2, (Val.min_exact ha hb).2, (Val.max_exact ha hb).2, (Val.abs_exact ha).2, (Val.neg_exact ha).2,
      Val.eqv_iff ha hb, by simp [cmpHolds, ← Val.eqv_iff ha hb], Val.lt_iff ha hb, Val.le_iff ha hb⟩
  · intro ws n o x y d hr hj
    refine ⟨fun hv ha => ?_, fun hv z hz => ?_, fun hv => ?_, fun hv => ?_, fun hv ha => ?_⟩
    · rw [show o = vEw s e id from vOut_ew (.inl hv) ..]
      exact mem_vEw_arith hv s id hr hj ha
    · rw [show o = vEw s e id from vOut_ew (.inl hv) ..] at hz
      exact vEw_arith_active hv s id hz
    · rw [show o = vEw s e id from vOut_ew (.inr hv) ..]
      exact mem_vEw_select hv s id hr hj
    · rw [show o = vCmp s e from vOut_cmp hv ..]
      exact ⟨_, mem_vCmp_dst s e hr hj, bit_cmpByte s e r hj⟩
    · rw [show o = vMove s e from vOut_reverse hv ..]
      exact mem_vMove_dst_reverse hv s hr hj ha
  · obtain ⟨h1, h2⟩ := reduce_max id hne hl
    obtain ⟨h3, h4⟩ := reduce_min id hne hl
    exact ⟨h1, h2, h3, h4⟩
end

/-!
## Cmem: row repair, scrubbing, and the pinions' fences (R52, R153, R155, R191 to R193, R444)
-/

namespace Sys2Proof.Machine

/-- Time that passes while nothing is due changes the time alone. -/
theorem advance_shape {s : State} (h : NothingDue s) (e : Nat) :
    ∃ k w x, advance e s = { s with ec := k, wall := w, stretched := x } ∧ k = Nat.max s.ec e := by
  rw [advance_pass h, pass_frame, pass_ec]
  exact ⟨_, _, _, rfl, rfl⟩

/-! ### Scrubbing (R191) -/

/-- Changes of stored bits reach the check marks alone. -/
theorem upsets_shape (ups : List Upset) (s : State) : ∃ x, ups.foldl upset s = { s with ecc := x } := by
  induction ups generalizing s with
  | nil => exact ⟨s.ecc, rfl⟩
  | cons u ups ih =>
    have h : ∃ x, upset s u = { s with ecc := x } := by
      unfold upset
      split
      · exact ⟨s.ecc, rfl⟩
      · exact ⟨_, rfl⟩
    obtain ⟨x, h⟩ := h
    rw [List.foldl_cons, h]
    exact ih { s with ecc := x }

/-- What the scrubber's reads of a bank leave: data, contexts, time, and every control register but the granules to be written
back. -/
structure ScrubKept (s t : State) : Prop where
  mem : t.mem = s.mem
  ctxs : t.ctxs = s.ctxs
  ec : t.ec = s.ec
  cm : t.cm = { s.cm with scrubWb := t.cm.scrubWb }

theorem ScrubKept.refl (s : State) : ScrubKept s s := ⟨rfl, rfl, rfl, rfl⟩

theorem ScrubKept.trans {s t u : State} (h : ScrubKept s t) (h' : ScrubKept t u) : ScrubKept s u :=
  ⟨h'.mem.trans h.mem, h'.ctxs.trans h.ctxs, h'.ec.trans h.ec, h'.cm.trans (by rw [h.cm])⟩

theorem noteRead_scrubKept (g : Nat) (s : State) : ScrubKept s (noteRead s g) :=
  noteRead_ind s g (P := ScrubKept s) (.refl s) fun _ _ => ⟨rfl, rfl, rfl, rfl⟩

theorem advise_scrubKept (code : Nat) (cause : Cause) (d : List Nat) (s : State) : ScrubKept s (advise code cause d s) :=
  ⟨by simp, by simp, by simp, by simp⟩

theorem modCm_scrubKept (f : CmemCtl → List (Nat × Nat)) (s : State) :
    ScrubKept s (modCm (fun m => { m with scrubWb := f m }) s) := ⟨rfl, rfl, rfl, rfl⟩

theorem scrubBank_scrubKept (g : Nat) (s : State) (b : Nat) : ScrubKept s (scrubBank g s b) := by
  unfold scrubBank
  split
  · exact .refl s
  · refine (noteRead_scrubKept (granAddr s.grade b g) s).trans ?_
    dsimp only
    split
    · exact advise_scrubKept ..
    · split
      · exact .refl _
      · exact modCm_scrubKept ..

theorem scrubBanks_scrubKept (g : Nat) (l : List Nat) (s : State) : ScrubKept s (l.foldl (scrubBank g) s) := by
  induction l generalizing s with
  | nil => exact .refl s
  | cons b l ih => exact (scrubBank_scrubKept g s b).trans (ih _)

/-- Clearing the marks of n words from w on: those read good, the others stay. -/
theorem get_clearEcc (e : SMap Nat) (w n k : Nat) :
    SMap.get 0 (clearEcc e w n) k = if w ≤ k ∧ k < w + n then 0 else SMap.get 0 e k := by
  induction n generalizing e w with
  | zero => rw [clearEcc, if_neg (by omega)]
  | succ n ih =>
    rw [clearEcc, ih, SMap.get_erase]
    by_cases hk : k = w
    · rw [if_neg (by omega), if_pos hk, if_pos (by omega)]
    · rw [if_neg hk]
      exact if_congr (by omega) rfl rfl

/-- The interval of the scrubber in service cycles: with the value 0 it is free (R191). -/
def scrubWait (s : State) : Nat := if s.cm.scrubInterval = 0 then Config.freeNat s.free else s.cm.scrubInterval

/-- The scrubber reads its granule of every bank, and goes on to the next. -/
def scrubReads (s : State) : State :=
  modCm (fun m => { m with
    scrubGran := (s.cm.scrubGran + 1) % 8192
    scrubPasses := if s.cm.scrubGran = 8191 then (m.scrubPasses + 1) % 2 ^ 19 else m.scrubPasses })
    ((List.range s.grade.banks).foldl (scrubBank s.cm.scrubGran) { s with scrubAt := s.ec })

/-- A tick of the scrubber: the changes of stored bits, and its reads when its interval is over, while it is on. -/
theorem execScrubTick_eq {s : State} (hrel : Released s) (ups : List Upset) : execScrubTick ups s =
    if (ups.foldl upset s).cm.scrubEn = false then .next (ups.foldl upset s)
    else .next (scrubReads (advance ((ups.foldl upset s).scrubAt + scrubWait (ups.foldl upset s) * svcEc)
      { ups.foldl upset s with free := (ups.foldl upset s).free + 1 })) := by
  unfold execScrubTick
  rw [afterBoot_of _ _ hrel]
  rfl

theorem scrubReads_changes (s : State) : (scrubReads s).mem = s.mem ∧ (scrubReads s).ctxs = s.ctxs ∧ (scrubReads s).ec = s.ec ∧
    (scrubReads s).cm.scrubGran = (s.cm.scrubGran + 1) % 8192 ∧ (scrubReads s).cm.scrubPasses =
      if s.cm.scrubGran = 8191 then (s.cm.scrubPasses + 1) % 2 ^ 19 else s.cm.scrubPasses := by
  have h := scrubBanks_scrubKept s.cm.scrubGran (List.range s.grade.banks) { s with scrubAt := s.ec }
  have hp := congrArg CmemCtl.scrubPasses h.cm
  exact ⟨h.mem, h.ctxs, h.ec, rfl, by simp only [scrubReads, modCm, hp]⟩

/-- A tick while the scrubber is on (R191). -/
theorem execScrubTick_on {s : State} (hrel : Released s) (hdue : NothingDue s) (hen : s.cm.scrubEn = true) (ups : List Upset) :
    ∃ t, execScrubTick ups s = .next t ∧ t.mem = s.mem ∧ t.ctxs = s.ctxs ∧
      (s.cm.scrubInterval ≠ 0 → t.ec = Nat.max s.ec (s.scrubAt + s.cm.scrubInterval * 16)) ∧
      t.cm.scrubGran = (s.cm.scrubGran + 1) % 8192 ∧
      t.cm.scrubPasses = if s.cm.scrubGran = 8191 then (s.cm.scrubPasses + 1) % 2 ^ 19 else s.cm.scrubPasses := by
  obtain ⟨x, hx⟩ := upsets_shape ups s
  have ht := execScrubTick_eq hrel ups
  obtain ⟨k, w, y, ha, hk⟩ := advance_shape (s := { s with ecc := x, free := s.free + 1 }) hdue
    (s.scrubAt + scrubWait { s with ecc := x } * svcEc)
  rw [hx, if_neg (by simp [hen]), ha] at ht
  obtain ⟨hm, hc, he, hg, hp⟩ := scrubReads_changes
    { s with ecc := x, free := s.free + 1, ec := k, wall := w, stretched := y }
  refine ⟨_, ht, hm, hc, fun h0 => he.trans (hk.trans ?_), hg, hp⟩
  rw [scrubWait, if_neg h0]; rfl

/-- While the scrubber is off a tick without changes of stored bits does nothing. -/
theorem execScrubTick_off {s : State} (hrel : Released s) (hen : s.cm.scrubEn = false) (ups : List Upset) :
    ∃ t, execScrubTick ups s = .next t ∧ t.mem = s.mem ∧ t.ctxs = s.ctxs ∧ (ups = [] → t = s) := by
  obtain ⟨x, hx⟩ := upsets_shape ups s
  have ht : execScrubTick ups s = .next (ups.foldl upset s) :=
    (execScrubTick_eq hrel ups).trans (if_pos (by rw [hx]; exact hen))
  exact ⟨_, ht, by rw [hx], by rw [hx], fun h => by rw [h]; rfl⟩

/-- A granule that is stored again has good check bits. -/
theorem eccMark_cleanGranule (g : Nat) (s : State) {k : Nat} (hk : k < 8) : eccMark (cleanGranule g s) (g / 8 + k) = 0 := by
  rw [eccMark, cleanGranule, get_clearEcc, if_pos ⟨by omega, by omega⟩]

/-! ### Repair (R192, R193) -/

theorem repair_frame (b row : Nat) (s : State) : (repair b row s).mem = s.mem ∧ (repair b row s).ctxs = s.ctxs := by
  unfold repair
  dsimp only
  split
  · exact ⟨rfl, rfl⟩
  · split <;> exact ⟨rfl, rfl⟩

/-- A repair during a copy stores its bank and row alone. -/
theorem repair_busy {s : State} (b row : Nat) (h : s.cm.repBusy = true) :
    repair b row s = { s with cm := { s.cm with repBank := b, repRow := row } } := if_pos h

theorem repair_begins {s : State} {b row : Nat} (h : s.cm.repBusy = false) (hb : b < s.grade.banks) (hs : (bank s b).spares < 8)
    (hr : (b, row) ∉ s.cm.repaired) : (repair b row s).cm = { s.cm with
      repBank := b, repRow := row, repCopy := (b, row), repBusy := true, repOk := false, repNoSpare := false } := by
  have hno : ¬ (s.grade.banks ≤ b ∨ 8 ≤ (bank s b).spares ∨ (b, row) ∈ s.cm.repaired) := by
    rintro (h | h | h)
    · omega
    · omega
    · exact hr h
  exact congrArg State.cm ((if_neg (by simp [modCm, h])).trans (if_neg hno))

theorem repair_noSpare {s : State} {b : Nat} (row : Nat) (h : s.cm.repBusy = false)
    (hno : s.grade.banks ≤ b ∨ 8 ≤ (bank s b).spares) :
    (repair b row s).cm = { s.cm with repBank := b, repRow := row, repNoSpare := true } :=
  congrArg State.cm ((if_neg (by simp [modCm, h])).trans (if_pos (hno.imp_right .inl)))

theorem spares_onSpare (b row : Nat) (s : State) : (bank (onSpare b row s) b).spares = (bank s b).spares + 1 :=
  congrArg Bank.spares (bank_modBank_same ..)

/-- The row stands on a spare from the next turn on, its data as they were. -/
theorem execRepairSwitch_busy {s : State} (hdue : NothingDue s) (h : s.cm.repBusy = true) :
    ∃ t, execRepairSwitch s = .next t ∧ t.mem = s.mem ∧ t.ecc = s.ecc ∧ t.ctxs = s.ctxs ∧ t.ec = (s.ec / 16 + 1) * 16 ∧
      t.cm = { s.cm with repBusy := false, repOk := true, repaired := s.cm.repaired ++ [s.cm.repCopy] } ∧
      (bank t s.cm.repCopy.1).spares = (bank s s.cm.repCopy.1).spares + 1 := by
  obtain ⟨k, w, x, ha, hk⟩ := advance_shape hdue ((s.ec / turnEc + 1) * turnEc)
  have ht : execRepairSwitch s = .next (modCm (fun m => { m with repBusy := false, repOk := true })
      (onSpare s.cm.repCopy.1 s.cm.repCopy.2 { s with ec := k, wall := w, stretched := x })) := by
    rw [← ha]
    exact if_neg (by simp [h])
  refine ⟨_, ht, rfl, rfl, rfl, hk.trans ?_, rfl, spares_onSpare _ s.cm.repCopy.2 { s with ec := k, wall := w, stretched := x }⟩
  exact Nat.max_eq_right (by unfold turnEc; omega)

/-! ### Fences (R153) -/

/-- A run of conditional writes at base + 0 to base + n − 1: where the condition holds the entry is as written. -/
theorem get_iter_set_if (c : Nat → Bool) (f : Nat → Bool) (base n k : Nat) (m : SMap Bool) :
    SMap.get false (iter (fun i m => if c (base + i) then SMap.set false m (base + i) (f i) else m) n m) k =
      if base ≤ k ∧ k < base + n ∧ c k then f (k - base) else SMap.get false m k := by
  induction n with
  | zero => rw [iter, if_neg (by omega)]
  | succ n ih =>
    rw [iter]
    generalize iter _ n m = m' at ih ⊢
    have hset : SMap.get false (if c (base + n) = true then SMap.set false m' (base + n) (f n) else m') k =
        if k = base + n ∧ c k = true then f n else SMap.get false m' k := by
      by_cases hc : c (base + n) = true
      · rw [if_pos hc, SMap.get_set]
        exact if_congr ⟨fun h => ⟨h, h ▸ hc⟩, And.left⟩ rfl rfl
      · rw [if_neg hc, if_neg]
        rintro ⟨rfl, h⟩
        exact hc h
    rw [hset, ih]
    by_cases hk : k = base + n ∧ c k = true
    · rw [if_pos hk, if_pos ⟨by omega, by omega, hk.2⟩, show k - base = n by omega]
    · rw [if_neg hk]
      exact if_congr ⟨fun ⟨h1, h2, h3⟩ => ⟨h1, by omega, h3⟩,
        fun ⟨h1, h2, h3⟩ => ⟨h1, Nat.lt_of_le_of_ne (by omega) fun h => hk ⟨h, h3⟩, h3⟩⟩ rfl rfl

/-- A write of a fence word reaches the requests of the grade's pinions of that word, each by its bit (R153, R165). -/
theorem get_fenceReq_fenceWrite (i v : Nat) (s : State) (k : Nat) : SMap.get false (fenceWrite i v s).pin.fenceReq k =
    if k / 32 = i ∧ k < s.grade.pinions then bit v (k % 32) else SMap.get false s.pin.fenceReq k := by
  have h := get_iter_set_if (fun n => decide (n < s.grade.pinions)) (bit v) (32 * i) 32 k s.pin.fenceReq
  simp only [decide_eq_true_eq] at h
  refine h.trans ?_
  by_cases hk : k / 32 = i
  · rw [show k - 32 * i = k % 32 by omega]
    exact if_congr (by omega) rfl rfl
  · rw [if_neg (by omega), if_neg (by tauto)]

/-! ### The seed (R52, R444) -/

theorem startDue_of_empty {s : State} (h : ∀ q, queue s q = []) (a : Nat) : startDue s a = false := by
  simp [startDue, headStart, h]

/-- With no engine command about a host write has its EC at once: an EC before it, and one after it (R440). -/
theorem inOwnEc_noEngineWork {s : State} (h : NoEngineWork s) (late : Nat) (f : State → State) :
    inOwnEc late f s = tick (f (tick s)) := by
  obtain ⟨hr, hq, -⟩ := h
  have hlive : liveRuns s = [] := by simp [liveRuns, hr]
  unfold inOwnEc
  simp only [settledForHost, hlive, startDue_of_empty hq, List.all_nil, Bool.not_false, Bool.and_self, if_true]

/-- With no command running a new seed comes alone, at the start of the next AC. -/
theorem reseed_idle {s : State} (hdue : NothingDue s) (hr : s.runs = []) (v : W32) :
    ∃ k w x, reseed v s = { s with ec := k, wall := w, stretched := x, seed := .written v, gens := [] } ∧
      k = Nat.max s.ec (2 * ac s + 2) := by
  obtain ⟨k, w, x, h, hk⟩ := advance_shape hdue (2 * ac s + 2)
  refine ⟨k, w, x, ?_, hk⟩
  unfold reseed
  simp only [h, hr]
  rfl

/-- A write of the seed with no command running or waiting (R444): an EC before it, the rest of its AC, and an EC after it. -/
theorem execSctSrSeed_idle {s : State} (hrel : Released s) (h : NoEngineWork s) (v : W32) :
    ∃ t, execSctSrSeed v s = .next t ∧ t.ec = 2 * ((s.ec + 1) / 2) + 3 ∧
      t = { s with ec := t.ec, wall := t.wall, stretched := t.stretched, seed := .written v, gens := [] } := by
  obtain ⟨hr, -, hdue⟩ := id h
  have hx : execSctSrSeed v s = .next (tick (reseed v (tick s))) :=
    (afterBoot_of s _ hrel).trans (congrArg Host.Outcome.next (inOwnEc_noEngineWork h 1 (reseed v)))
  obtain ⟨k, w, x, h1, hk⟩ := advance_shape hdue (s.ec + 1)
  obtain ⟨l, w, x, h2, hl⟩ := reseed_idle (s := { s with ec := k, wall := w, stretched := x }) hdue hr v
  obtain ⟨m, w, x, h3, hm⟩ := advance_shape
    (s := { s with ec := l, wall := w, stretched := x, seed := .written v, gens := [] }) hdue (l + 1)
  rw [show tick s = _ from h1, h2, show tick _ = _ from h3] at hx
  refine ⟨_, hx, ?_, rfl⟩
  change m = _
  rw [ac] at hl
  simp only [Nat.max_def] at hk hl hm
  split_ifs at hk hl hm <;> omega

/-! ### A pinion's fence and self-test (R153, R155) -/

/-- The fence of a pinion follows its request once its running command has ended. -/
theorem execPinFenceApply_idle {s : State} (hdue : NothingDue s) (p : Nat) :
    ∃ t, execPinFenceApply p s = .next t ∧ t.mem = s.mem ∧ t.ctxs = s.ctxs ∧ 2 * SMap.get 0 s.pin.free p ≤ t.ec ∧
      SMap.get false t.pin.fenced p = SMap.get false s.pin.fenceReq p ∧
      (∀ k, k ≠ p → SMap.get false t.pin.fenced k = SMap.get false s.pin.fenced k) := by
  obtain ⟨k, w, x, ha, hk⟩ := advance_shape hdue (2 * SMap.get 0 s.pin.free p)
  refine ⟨_, rfl, ?_⟩
  rw [ha]
  refine ⟨rfl, rfl, hk ▸ Nat.le_max_right .., ?_, fun j hj => ?_⟩ <;> dsimp only <;> rw [SMap.get_set]
  · exact if_pos rfl
  · exact if_neg hj

theorem execPinSelftest_released {s : State} (hrel : Released s) {p : Nat} (hp : p < 128) :
    ∃ t, execPinSelftest p s = .next t ∧ t.mem = s.mem ∧ t.ctxs = s.ctxs ∧ (s.grade = .lean → t = s) ∧
      (s.grade ≠ .lean → SMap.get false s.pin.fenced p = true → t.pin = { s.pin with testPinion := p, testBusy := true }) ∧
      (s.grade ≠ .lean → SMap.get false s.pin.fenced p = false → t.pin = { s.pin with testPinion := p, testBad := true }) := by
  unfold execPinSelftest
  rw [afterBoot_of _ _ hrel, Nat.mod_eq_of_lt hp]
  by_cases hg : s.grade = .lean
  · simp [hg]
  · cases hf : SMap.get false s.pin.fenced p <;> simp [hg]

end Sys2Proof.Machine

section
open Sys2Proof Sys2Proof.Machine Host

/-- Settles O48, row by row: each changes the registers that its own lemma names, and time where it waits. -/
theorem repairScrubAndPinions : Obligations.RepairScrubAndPinions := by
  refine ⟨fun s hrel hdue => ⟨fun b row hb hrow => ?_, execRepairSwitch_busy hdue, fun ups => ?_, fun b g rest hwb => ?_⟩,
    fun s p hp hrel hdue => ⟨fun v => ?_, execPinFenceApply_idle hdue p, execPinSelftest_released hrel hp, fun ok hb => ?_,
      fun hr hq v => execSctSrSeed_idle hrel ⟨hr, hq, hdue⟩ v⟩⟩
  · have hx : exec (.cmemRepair b row) s = .next (repair b row s) := by
      show execCmemRepair b row s = _
      rw [execCmemRepair, Nat.mod_eq_of_lt hb, Nat.mod_eq_of_lt hrow, afterBoot_of _ _ hrel]
    obtain ⟨hm, hc⟩ := repair_frame b row s
    exact ⟨_, hx, hm, hc, repair_busy b row, repair_begins, repair_noSpare row⟩
  · cases hen : s.cm.scrubEn with
    | true =>
      obtain ⟨t, ht, hm, hc, hec, hg, hp⟩ := execScrubTick_on hrel hdue hen ups
      exact ⟨t, ht, hm, hc, fun _ => ⟨hec, hg, hp⟩, nofun⟩
    | false =>
      obtain ⟨t, ht, hm, hc, hs⟩ := execScrubTick_off hrel hen ups
      exact ⟨t, ht, hm, hc, nofun, fun _ => hs⟩
  · have hx : exec .scrubWriteback s = .next (let u := modCm (fun m => { m with scrubWb := rest }) s
        if bankOpen s b then cleanGranule (granAddr s.grade b g) u else u) := by
      show execScrubWriteback s = _
      unfold execScrubWriteback
      rw [hwb]
      exact (apply_ite Host.Outcome.next ..).symm
    refine ⟨_, hx, ?_⟩
    cases ho : bankOpen s b with
    | true => exact ⟨rfl, rfl, rfl, fun _ k hk => eccMark_cleanGranule _ _ hk, nofun⟩
    | false => exact ⟨rfl, rfl, rfl, nofun, fun _ => rfl⟩
  · have hx : exec (.pinFence (p / 32) v) s = .next (fenceWrite (p / 32) v.toNat s) := afterBoot_of s _ hrel
    refine ⟨_, hx, rfl, rfl, rfl, ?_, fun k hk => ?_⟩ <;> rw [get_fenceReq_fenceWrite]
    · exact if_congr (by simp) rfl rfl
    · exact if_neg fun h => hk h.1
  · exact ⟨_, if_pos hb, rfl⟩
end

/-!
## Bytes: little-endian numbers, their slices, and packed elements (R8, R46)
-/

namespace Sys2Proof.Machine

/-! ### Little-endian numbers -/

@[simp] theorem length_leBytes (n x : Nat) : (leBytes n x).length = n := by
  induction n generalizing x with
  | zero => rfl
  | succ n ih => simp [leBytes, ih]

theorem ofLE_leBytes (n x : Nat) : ofLE (leBytes n x) = x % 2 ^ (8 * n) := by
  induction n generalizing x with
  | zero => simp [leBytes, ofLE, Nat.mod_one]
  | succ n ih =>
    rw [leBytes, ofLE, ih, BitVec.toNat_ofNat, Nat.mul_succ, pow_add, mul_comm (2 ^ (8 * n)), Nat.mod_mul]
    rfl

theorem ofLE_lt (bs : List W8) : ofLE bs < 2 ^ (8 * bs.length) := by
  induction bs with
  | nil => simp [ofLE]
  | cons b bs ih =>
    have hb := b.isLt
    rw [ofLE, List.length_cons, Nat.mul_succ, pow_add]
    omega

theorem drop_leBytes (k n x : Nat) : (leBytes (k + n) x).drop k = leBytes n (x / 2 ^ (8 * k)) := by
  induction k generalizing x with
  | zero => simp
  | succ k ih =>
    rw [Nat.succ_add, leBytes, List.drop_succ_cons, ih, Nat.div_div_eq_div_mul, Nat.mul_succ, pow_add, mul_comm 256]
    rfl

theorem take_leBytes (n m x : Nat) : (leBytes (n + m) x).take n = leBytes n x := by
  induction n generalizing x with
  | zero => rfl
  | succ n ih => rw [Nat.succ_add, leBytes, List.take_succ_cons, ih, leBytes]

/-- The bytes k to k + n − 1 of a number are those of what is left of it above them. -/
theorem slice_leBytes {k n N : Nat} (h : k + n ≤ N) (x : Nat) : slice k n (leBytes N x) = leBytes n (x / 2 ^ (8 * k)) := by
  obtain ⟨m, rfl⟩ := Nat.exists_eq_add_of_le h
  rw [slice, Nat.add_assoc, drop_leBytes, take_leBytes]

/-! ### Bytes of core memory -/

@[simp] theorem length_readBytes (s : State) (a n : Nat) : (readBytes s a n).length = n := by simp [readBytes]

theorem slice_readBytes {k n N : Nat} (h : k + n ≤ N) (s : State) (a : Nat) :
    slice k n (readBytes s a N) = readBytes s (a + k) n := by
  refine List.ext_getElem (by simp [slice]; omega) fun i h1 h2 => ?_
  simp [slice, readBytes, Nat.add_assoc]

/-- Lists cut or filled up keep what lies below both lengths. -/
theorem slice_padTo {α : Type} {d : α} {k n N : Nat} {l : List α} (h : k + n ≤ l.length) (hN : k + n ≤ N) :
    slice k n (padTo d N l) = slice k n l := by
  refine List.ext_getElem (by simp [slice, padTo]; omega) fun i h1 h2 => ?_
  have hi : i < n := by simp [slice] at h2; omega
  simp only [slice, padTo, List.getElem_take, List.getElem_drop]
  rw [List.getElem_append_left (by simp; omega), List.getElem_take]

theorem length_padTo {α : Type} (d : α) (N : Nat) (l : List α) : (padTo d N l).length = N := by
  simp [padTo]; omega

/-! ### Packed elements (R46) -/

/-- The number that elements of w bits make, element 0 lowest. -/
def packedNat (w : Nat) (l : List Nat) : Nat := l.foldr (fun x acc => x % 2 ^ w + acc * 2 ^ w) 0

theorem packBits_eq (w : Nat) (l : List Nat) : packBits w l = leBytes ((w * l.length + 7) / 8) (packedNat w l) := rfl

theorem packedNat_div (w : Nat) (l : List Nat) (c : Nat) : packedNat w l / 2 ^ (w * c) % 2 ^ w = l.getD c 0 % 2 ^ w := by
  have hw : 0 < 2 ^ w := by positivity
  induction l generalizing c with
  | nil => simp [packedNat]
  | cons x l ih =>
    have hx : packedNat w (x :: l) = x % 2 ^ w + packedNat w l * 2 ^ w := rfl
    cases c with
    | zero => simp [hx]
    | succ c =>
      rw [hx, Nat.mul_succ, Nat.add_comm (w * c), pow_add, ← Nat.div_div_eq_div_mul, Nat.add_mul_div_right _ _ hw,
        Nat.div_eq_of_lt (Nat.mod_lt _ hw), Nat.zero_add, ih, List.getD_cons_succ]

/-- An element of whole bytes stands at its place among packed ones. -/
theorem ofLE_slice_packBits {w c : Nat} {l : List Nat} (hc : c < l.length) :
    ofLE (slice (c * w) w (packBits (8 * w) l)) = l.getD c 0 % 2 ^ (8 * w) := by
  have hle : c * w + w ≤ l.length * w := by rw [← Nat.succ_mul]; exact Nat.mul_le_mul_right w hc
  have hN : (8 * w * l.length + 7) / 8 = l.length * w := by rw [Nat.mul_assoc, Nat.mul_comm w]; omega
  rw [packBits_eq, hN, slice_leBytes hle, ofLE_leBytes, Nat.mul_comm c, ← Nat.mul_assoc, packedNat_div]

/-- A whole-byte element of a line of core memory is the number at its address. -/
theorem elemAt_readBytes {w k n : Nat} (hk : k < n) (s : State) (a : Nat) :
    elemAt (readBytes s a (elemBytes (8 * w) n)) (8 * w) k = readLE s (a + k * w) w := by
  have hle : k * w + w ≤ n * w := by rw [← Nat.succ_mul]; exact Nat.mul_le_mul_right w hk
  have hN : elemBytes (8 * w) n = n * w := by rw [elemBytes, Nat.mul_assoc, Nat.mul_comm w]; omega
  have h0 : 8 * w * k = 8 * (k * w) := by ring
  rw [elemAt, hN, h0, Nat.mul_div_cancel_left _ (by decide), Nat.mul_mod_right, Nat.zero_add,
    show (8 * w + 7) / 8 = w by omega, slice_readBytes hle, pow_zero, Nat.div_one, readLE]
  exact Nat.mod_eq_of_lt ((ofLE_lt _).trans_eq (by rw [length_readBytes]))

end Sys2Proof.Machine

/-!
## Matrix: operands, and the sums of an output element (R66, R68, R69, R72, R87)
-/

namespace Sys2Proof.Machine

/-! ### Operands (R66, R72, R87) -/

theorem getD_map_range {α : Type} (f : Nat → α) (d : α) (n k : Nat) :
    ((List.range n).map f).getD k d = if k < n then f k else d := by
  by_cases hk : k < n
  · rw [if_pos hk, List.getD_eq_getElem _ _ (by simpa using hk)]; simp
  · rw [if_neg hk, List.getD_eq_default _ _ (by simpa using hk)]

/-- Line c from a transposing buffer: element k is the one at column c of row k of the window (R87). -/
theorem Opnd.getD_line_txb {o : Opnd} {w : Nat} (hw : o.fmt.width = 8 * w) (ht : o.txb = true) (s : State) (c k : Nat) :
    (o.line s c).getD k .zero = if k < o.klen then decodeElem o.fmt o.kind
      (ofLE ((List.range w).map (fun i => txbByte s o.sel (o.base + k * o.pitch + c * w + i)))) else .zero := by
  have hw8 : o.fmt.width / 8 = w := by omega
  unfold Opnd.line
  rw [if_pos ht]
  simp only [hw8]
  exact getD_map_range ..

/-- The scale bytes of line c, or the factors of every line (R43, R45). -/
def Opnd.aux (o : Opnd) (s : State) (c : Nat) : List Nat :=
  if o.fmt.isMx then readNats s (o.sbase + c * o.spitch) (o.klen / 32)
  else if o.fmt = .int8 then readWords s o.sbase o.klen else []

/-- Line c from core memory: element k under its scale byte or its factor (R66). -/
theorem Opnd.getD_line_mem {o : Opnd} {w : Nat} (hw : o.fmt.width = 8 * w) (ht : o.txb = false) (s : State) (c k : Nat) :
    let x := readLE s (o.base + c * o.pitch + k * w) w
    (o.line s c).getD k .zero = if k < o.klen then
        if o.fmt.isMx then decodeMx o.fmt o.kind ((o.aux s c).getD (k / 32) 0) x
        else if o.fmt = .int8 then ((decodeElem o.fmt o.kind x).mul (f32 ((o.aux s c).getD k 0))).1
        else decodeElem o.fmt o.kind x
      else .zero := by
  unfold Opnd.line
  rw [if_neg (by simp [ht])]
  refine (getD_map_range ..).trans ?_
  by_cases hk : k < o.klen
  · rw [if_pos hk, if_pos hk]
    have hx : elemAt (readBytes s (o.base + c * o.pitch) o.lineBytes) o.fmt.width k =
        readLE s (o.base + c * o.pitch + k * w) w := by
      rw [Opnd.lineBytes, hw, elemAt_readBytes hk]
    simp only [hx]
    rfl
  · rw [if_neg hk, if_neg hk]

theorem Opnd.getD_aux_mx {o : Opnd} (hmx : o.fmt.isMx = true) (s : State) (c : Nat) {i : Nat} (hi : i < o.klen / 32) :
    (o.aux s c).getD i 0 = (readByte s (o.sbase + c * o.spitch + i)).toNat := by
  rw [Opnd.aux, if_pos hmx, readNats, readBytes, List.map_map, getD_map_range, if_pos hi]
  rfl

theorem Opnd.getD_aux_int8 {o : Opnd} (hf : o.fmt = .int8) (s : State) (c : Nat) {k : Nat} (hk : k < o.klen) :
    (o.aux s c).getD k 0 = readLE s (o.sbase + 4 * k) 4 := by
  rw [Opnd.aux, if_neg (by simp [hf, Fmt.isMx]), if_pos hf, readWords, getD_map_range, if_pos hk]

/-! ### Words that rounding can give (R50, R56) -/

/-- A layout whose largest, infinite and canonical NaN encodings lie within its magnitude bits. -/
structure Layout.Proper (L : Layout) : Prop where
  exponent : 0 < L.eb
  max : L.maxBits < 2 ^ (L.eb + L.mb)
  inf : L.infBits < 2 ^ (L.eb + L.mb)
  nan : L.nanBits < 2 ^ (L.eb + L.mb)

theorem layFP32_proper : layFP32.Proper := ⟨by decide, by decide, by decide, by decide⟩

variable {L : Layout}

theorem Layout.signed_lt {mag : Nat} (h : mag < 2 ^ (L.eb + L.mb)) (n : Bool) : L.signed n mag < 2 ^ (1 + L.eb + L.mb) := by
  have hn := b2n_lt_two n
  have hp : 2 ^ (1 + L.eb + L.mb) = 2 * 2 ^ (L.eb + L.mb) := by rw [Nat.add_assoc, pow_add, pow_one]
  have hm : b2n n * 2 ^ (L.eb + L.mb) ≤ 1 * 2 ^ (L.eb + L.mb) := Nat.mul_le_mul_right _ (by omega)
  unfold Layout.signed
  omega

/-- What an exact magnitude is rounded to: a finite magnitude, or what stands for an overflow. -/
theorem Layout.encodeRat_cases (L : Layout) (rnd : Rnd) (sat neg : Bool) (num den : Nat) (e : Int) :
    (∃ mag, mag ≤ L.maxBits ∧ (L.encodeRat rnd sat neg num den e).1 = L.signed neg mag) ∨
      L.special = .ieee ∧ (L.encodeRat rnd sat neg num den e).1 = L.signed neg L.infBits ∨
      L.special = .e4m3 ∧ (L.encodeRat rnd sat neg num den e).1 = L.nanBits := by
  unfold Layout.encodeRat
  dsimp only
  split
  · split
    · exact .inl ⟨_, le_rfl, rfl⟩
    · split
      · rename_i h; exact .inr (.inl ⟨h, rfl⟩)
      · rename_i h; exact .inr (.inr ⟨h, rfl⟩)
      · exact .inl ⟨_, le_rfl, rfl⟩
  · rename_i h
    exact .inl ⟨_, Nat.le_of_not_lt h, rfl⟩

/-- An encoding fits its element. -/
theorem Layout.encode_lt (hL : L.Proper) (rnd : Rnd) (sat : Bool) (v : Val) :
    (L.encode rnd sat v).1 < 2 ^ (1 + L.eb + L.mb) := by
  have hnan : L.nanBits < 2 ^ (1 + L.eb + L.mb) := hL.nan.trans_le (Nat.pow_le_pow_right (by decide) (by omega))
  unfold Layout.encode
  cases v with
  | nan => exact hnan
  | inf s =>
    dsimp only
    split
    · split
      · exact L.signed_lt hL.max s
      · exact L.signed_lt hL.inf s
    · dsimp only
      split
      · exact L.signed_lt hL.max s
      · exact hnan
    · exact L.signed_lt hL.max s
  | fin s m e =>
    rcases L.encodeRat_cases rnd sat s m 1 e with ⟨mag, hle, h⟩ | ⟨-, h⟩ | ⟨-, h⟩ <;> dsimp only <;> rw [h]
    · exact L.signed_lt (hle.trans_lt hL.max) s
    · exact L.signed_lt hL.inf s
    · exact hnan

theorem Layout.fields_signed {mag : Nat} (h : mag < 2 ^ (L.eb + L.mb)) (he : 0 < L.eb) (n : Bool) :
    L.expOf (L.signed n mag) = mag / 2 ^ L.mb ∧ L.manOf (L.signed n mag) = mag % 2 ^ L.mb := by
  have hs : L.signed n mag = 2 ^ L.mb * (b2n n * 2 ^ L.eb) + mag := by unfold Layout.signed; rw [pow_add]; ring
  have hd : mag / 2 ^ L.mb < 2 ^ L.eb := Nat.div_lt_of_lt_mul (by rwa [Nat.mul_comm, ← pow_add])
  constructor
  · unfold Layout.expOf bits
    rw [hs, Nat.mul_add_div (by positivity), show L.eb + L.mb - 1 + 1 - L.mb = L.eb by omega, Nat.mul_add_mod_self_right,
      Nat.mod_eq_of_lt hd]
  · unfold Layout.manOf
    rw [hs, Nat.mul_add_mod]

/-- In a layout of the IEEE kind no magnitude up to infinity's is a NaN. -/
theorem Layout.decode_signed_ne_nan (hL : L.Proper) (hs : L.special = .ieee) {mag : Nat} (h : mag ≤ L.infBits) (n : Bool) :
    L.decode (L.signed n mag) ≠ .nan := by
  obtain ⟨hx, hm⟩ := L.fields_signed (h.trans_lt hL.inf) hL.exponent n
  rw [L.decode_eq, hs]
  dsimp only
  split
  · rename_i ht
    have hdm := Nat.div_add_mod mag (2 ^ L.mb)
    rw [← hx, ht, ← hm, Nat.mul_comm] at hdm
    have hinf : L.infBits = (2 ^ L.eb - 1) * 2 ^ L.mb := rfl
    rw [if_pos (by omega)]
    nofun
  · nofun

/-- A finite value rounds to no NaN in a layout of the IEEE kind. -/
theorem Layout.decode_encode_ne_nan (hL : L.Proper) (hs : L.special = .ieee) (rnd : Rnd) (sat : Bool) {v : Val}
    (hv : v.isFin = true) : L.decode (L.encode rnd sat v).1 ≠ .nan := by
  obtain ⟨s, m, e, rfl⟩ := Val.exists_fin hv
  have hmax : L.maxBits ≤ L.infBits := by
    unfold Layout.maxBits Layout.infBits
    rw [hs]
    exact Nat.sub_le _ _
  unfold Layout.encode
  dsimp only
  rcases L.encodeRat_cases rnd sat s m 1 e with ⟨mag, hle, h⟩ | ⟨-, h⟩ | ⟨h, -⟩
  · rw [h]; exact L.decode_signed_ne_nan hL hs (hle.trans hmax) s
  · rw [h]; exact L.decode_signed_ne_nan hL hs le_rfl s
  · rw [hs] at h; cases h

end Sys2Proof.Machine

/-!
## Matrix: the sum of an output element (R68, R69)
-/

namespace Sys2Proof.Machine

/-! ### Exact sums of products -/

theorem Val.isFin_zero : Val.zero.isFin = true := rfl

theorem valRat_zero : valRat .zero = 0 := valRat_fin_zero ..

/-- A group's sum is exact. -/
theorem groupSum_exact (ps : List (Val × Flags)) (h : ∀ p ∈ ps, p.1.isFin = true) :
    (groupSum ps).1.isFin = true ∧ valRat (groupSum ps).1 = (ps.map (fun p => valRat p.1)).sum := by
  have key (ps : List (Val × Flags)) (h : ∀ p ∈ ps, p.1.isFin = true) (a : Val × Flags) (ha : a.1.isFin = true) :
      let r := ps.foldl (fun a p => let r := a.1.add p.1; (r.1, a.2 ||| p.2 ||| r.2)) a
      r.1.isFin = true ∧ valRat r.1 = valRat a.1 + (ps.map (fun p => valRat p.1)).sum := by
    induction ps generalizing a with
    | nil => simp [ha]
    | cons p ps ih =>
      obtain ⟨hf, -, hv⟩ := Val.add_exact ha (h p (by simp))
      obtain ⟨h1, h2⟩ := ih (fun q hq => h q (by simp [hq])) ((a.1.add p.1).1, a.2 ||| p.2 ||| (a.1.add p.1).2) hf
      refine ⟨h1, h2.trans ?_⟩
      rw [hv, List.map_cons, List.sum_cons, add_assoc]
  obtain ⟨h1, h2⟩ := key ps h (.zero, fNone) Val.isFin_zero
  exact ⟨h1, h2.trans (by rw [valRat_zero, zero_add])⟩

/-- The products of the array row `i` of group g: none beyond either operand (R68). -/
def groupProducts (per : Nat) (x w : List Val) (g : Nat) : List (Val × Flags) :=
  (List.range per).filterMap (fun i => x[g * per + i]?.bind (fun u => w[g * per + i]?.map (fun v => u.mul v)))

/-- A group that lies beyond the operands has no products. -/
theorem groupProducts_beyond {per : Nat} {x w : List Val} (h : x.length ≤ per) (g : Nat) : groupProducts per x w (g + 1) = [] := by
  refine List.filterMap_eq_nil_iff.2 fun i _ => ?_
  have : per ≤ (g + 1) * per := by rw [Nat.succ_mul]; omega
  rw [List.getElem?_eq_none (by omega)]
  rfl

/-- Operands that fit one group have all their products in the first. -/
theorem groupProducts_first {per : Nat} {x w : List Val} (h : x.length ≤ per) (hw : w.length = x.length) :
    groupProducts per x w 0 = List.zipWith Val.mul x w := by
  unfold groupProducts
  simp only [Nat.zero_mul, Nat.zero_add]
  induction x generalizing per w with
  | nil => simp
  | cons u x ih =>
    obtain ⟨v, w, rfl⟩ := List.exists_cons_of_length_eq_add_one hw
    obtain ⟨p, rfl⟩ := Nat.exists_eq_add_of_le' (Nat.lt_of_lt_of_le (Nat.succ_pos _) h)
    have ih := ih (per := p) (w := w) (by simpa using h) (by simpa using hw)
    rw [List.range_succ_eq_map, List.filterMap_cons, List.filterMap_map]
    simpa using ih

/-! ### Adding a zero to an FP32 word (R69) -/

/-- An integer that comes of a magnitude goes back to it, with its sign. -/
theorem ofInt_scaledInt (s : Bool) {m : Nat} (hm : m ≠ 0) (e q : Int) :
    Val.ofInt (scaledInt s m e q) q = .fin s (m * 2 ^ (e - q).toNat) q := by
  have h : 0 < m * 2 ^ (e - q).toNat := by positivity
  unfold Val.ofInt scaledInt
  generalize m * 2 ^ (e - q).toNat = v at h ⊢
  cases s
  · simp
  · simp; omega

theorem scaledInt_zero (s : Bool) (e q : Int) : scaledInt s 0 e q = 0 := by cases s <;> simp [scaledInt]

theorem scaledInt_ne_zero (s : Bool) {m : Nat} (hm : m ≠ 0) (e q : Int) : scaledInt s m e q ≠ 0 := by
  have h : 0 < m * 2 ^ (e - q).toNat := by positivity
  unfold scaledInt
  cases s <;> simp <;> omega

/-- An FP32 word of a finite value is what its value encodes to. -/
theorem toF32_of_value {W : Nat} (hW : W < 2 ^ 32) {n : Bool} {m m' : Nat} {e e' : Int} (h : f32 W = .fin n m e)
    (hv : (m' : ℚ) * 2 ^ e' = m * 2 ^ e) : (toF32 (.fin n m' e')).1 = W :=
  congrArg Prod.fst (Layout.encode_of_value layFP32_proper.exponent hW h hv .rne false)

theorem toF32_f32 {W : Nat} (hW : W < 2 ^ 32) (hn : f32 W ≠ .nan) : (toF32 (f32 W)).1 = W := by
  cases h : f32 W with
  | nan => exact absurd h hn
  | inf s => exact congrArg Prod.fst (Layout.encode_inf_decode layFP32_proper.exponent hW h .rne)
  | fin s m e => exact toF32_of_value hW h rfl

/-- An FP32 word with a zero of positive sign added: itself, but −0 becomes +0. -/
theorem toF32_add_posZero {W : Nat} (hW : W < 2 ^ 32) (hn : f32 W ≠ .nan) (e : Int) :
    (toF32 ((f32 W).add (.fin false 0 e)).1).1 = if W = 0x80000000 then 0 else W := by
  have h8 : f32 0x80000000 = .fin true 0 (-149) := by decide
  cases h : f32 W with
  | nan => exact absurd h hn
  | inf s =>
    rw [if_neg (by rintro rfl; rw [h8] at h; cases h)]
    have hw := toF32_f32 hW hn
    rw [h] at hw
    exact hw
  | fin s m f =>
    rw [Val.add_fin, scaledInt_zero, Int.add_zero]
    by_cases hm : m = 0
    · subst hm
      have hs : (toF32 (.fin s 0 0)).1 = W := toF32_of_value hW h (by simp)
      rw [scaledInt_zero, if_pos rfl]
      cases s
      · rw [← hs]; decide
      · rw [← hs]; decide
    · rw [if_neg (scaledInt_ne_zero s hm _ _), ofInt_scaledInt s hm, if_neg]
      · refine toF32_of_value hW h ?_
        rw [two_zpow_eq_shift (min_le_left f e)]; push_cast; ring
      · rintro rfl
        rw [h8] at h
        exact hm (Val.fin.inj h).2.1.symm

theorem Val.add_comm : ∀ a b : Val, a.add b = b.add a
  | .nan, .nan | .nan, .inf _ | .nan, .fin .. | .inf _, .nan | .fin .., .nan | .inf _, .fin .. | .fin .., .inf _ => rfl
  | .inf s, .inf t => by cases s <;> cases t <;> rfl
  | .fin s m e, .fin t n f => by
    rw [Val.add_fin, Val.add_fin, Int.add_comm, Int.min_comm]
    cases s <;> cases t <;> simp [Bool.and_comm]

/-! ### An output element (R68, R69) -/

/-- Eight groups, each rounded and added in order. -/
theorem columnSum_eq (per : Nat) (x w : List Val) : (columnSum per x w).1 = BitVec.ofNat 32 (toF32
    ((List.range 8).foldl (fun a g => (addF32 a (roundF32 (groupSum (groupProducts per x w g)).1).1).1) .zero)).1 := by
  have hp (g : Nat) : groupProducts per x w g = (List.range per).filterMap (fun i =>
      match x[g * per + i]?, w[g * per + i]? with
      | some u, some v => some (u.mul v)
      | _, _ => none) := by
    refine congrArg (fun f => (List.range per).filterMap f) (funext fun i => ?_)
    cases x[g * per + i]? <;> cases w[g * per + i]? <;> rfl
  simp only [hp]
  unfold columnSum
  refine congrArg (fun v => BitVec.ofNat 32 (toF32 v).1) ?_
  exact (List.foldl_hom Prod.fst (fun _ _ => rfl)).symm

/-- The rounded sum of a group that has no products is +0. -/
theorem roundF32_emptyGroup : (roundF32 (groupSum []).1).1 = .fin false 0 (-149) := by decide

/-- A word that is not −0 passes through the groups that have no products. -/
theorem foldl_addF32_emptyGroups {W : Nat} (hW : W < 2 ^ 32) (hn : f32 W ≠ .nan) (hz : W ≠ 0x80000000) (l : List Nat)
    (ps : Nat → List (Val × Flags)) (hps : ∀ g ∈ l, ps g = []) :
    l.foldl (fun a g => (addF32 a (roundF32 (groupSum (ps g)).1).1).1) (f32 W) = f32 W := by
  induction l with
  | nil => rfl
  | cons g l ih =>
    have hstep : (addF32 (f32 W) (.fin false 0 (-149))).1 = f32 W :=
      congrArg f32 ((toF32_add_posZero hW hn (-149)).trans (if_neg hz))
    rw [List.foldl_cons, hps g (by simp), roundF32_emptyGroup, hstep]
    exact ih fun k hk => hps k (by simp [hk])

/-- The word of a finite value rounded once, with −0 made +0 (R69). -/
def sumWord (G : Val) : Nat := if (toF32 G).1 = 0x80000000 then 0 else (toF32 G).1

theorem toF32_lt (v : Val) : (toF32 v).1 < 2 ^ 32 := Layout.encode_lt layFP32_proper .rne false v

theorem f32_toF32_ne_nan {G : Val} (hG : G.isFin = true) : f32 (toF32 G).1 ≠ .nan :=
  Layout.decode_encode_ne_nan layFP32_proper rfl .rne false hG

/-- An output element whose products fit one group is their exact sum rounded once (R68, R69). -/
theorem columnSum_oneGroup {per : Nat} {x w : List Val} (h : x.length ≤ per)
    (hG : (groupSum (groupProducts per x w 0)).1.isFin = true) :
    (columnSum per x w).1 = BitVec.ofNat 32 (sumWord (groupSum (groupProducts per x w 0)).1) := by
  rw [columnSum_eq]
  generalize hg : (groupSum (groupProducts per x w 0)).1 = G at hG ⊢
  have hlt : sumWord G < 2 ^ 32 := by
    unfold sumWord
    split
    · decide
    · exact toF32_lt G
  have hnan : f32 (sumWord G) ≠ .nan := by
    unfold sumWord
    split
    · decide
    · exact f32_toF32_ne_nan hG
  have hz : sumWord G ≠ 0x80000000 := by
    unfold sumWord
    split
    · decide
    · assumption
  have hfirst : (addF32 .zero (roundF32 G).1).1 = f32 (sumWord G) := by
    have ha := toF32_add_posZero (toF32_lt G) (f32_toF32_ne_nan hG) 0
    rw [Val.add_comm] at ha
    exact congrArg f32 ha
  have hrest : ∀ g ∈ (List.range 7).map (· + 1), groupProducts per x w g = [] := by
    simp only [List.mem_map]
    rintro g ⟨k, -, rfl⟩
    exact groupProducts_beyond h k
  have h8 : List.range 8 = 0 :: (List.range 7).map (· + 1) := by decide
  rw [h8, List.foldl_cons, hg, hfirst, foldl_addF32_emptyGroups hlt hnan hz _ _ hrest, toF32_f32 hlt hnan]

/-- The products of finite elements are exact. -/
theorem zipWith_mul_exact {x w : List Val} (hx : ∀ v ∈ x, v.isFin = true) (hw : ∀ v ∈ w, v.isFin = true) :
    (∀ p ∈ List.zipWith Val.mul x w, p.1.isFin = true) ∧
      (List.zipWith Val.mul x w).map (fun p => valRat p.1) = List.zipWith (fun u v => valRat u * valRat v) x w := by
  induction x generalizing w with
  | nil => simp
  | cons u x ih =>
    cases w with
    | nil => simp
    | cons v w =>
      obtain ⟨h1, h2⟩ := ih (w := w) (fun a ha => hx a (by simp [ha])) fun a ha => hw a (by simp [ha])
      obtain ⟨hf, -, hv⟩ := Val.mul_exact (hx u (by simp)) (hw v (by simp))
      refine ⟨fun p hp => ?_, by simp [h2, hv]⟩
      rcases List.mem_cons.1 hp with rfl | hp
      · exact hf
      · exact h1 p hp

/-- An output element of finite operands that fit one group: the exact sum of their products, rounded once (R68, R69). -/
theorem columnSum_exact {per : Nat} {x w : List Val} (h : x.length ≤ per) (hw : w.length = x.length)
    (hfin : ∀ v ∈ x ++ w, v.isFin = true) :
    ∃ G : Val, G.isFin = true ∧ valRat G = (List.zipWith (fun u v => valRat u * valRat v) x w).sum ∧
      (columnSum per x w).1 = if (toF32 G).1 = 0x80000000 then 0#32 else BitVec.ofNat 32 (toF32 G).1 := by
  obtain ⟨hp, hm⟩ := zipWith_mul_exact (x := x) (w := w) (fun v hv => hfin v (by simp [hv])) fun v hv => hfin v (by simp [hv])
  have hg := groupProducts_first h hw
  obtain ⟨h1, h2⟩ := groupSum_exact _ hp
  refine ⟨_, h1, h2.trans (by rw [hm]), ?_⟩
  rw [columnSum_oneGroup h (by rw [hg]; exact h1), hg, sumWord, apply_ite (BitVec.ofNat 32)]

end Sys2Proof.Machine

/-!
## Matrix: the rows of a STREAM, and what FILL, STREAM and TXB.LOAD leave when they are done (R70, R74, R76, R86)
-/

namespace Sys2Proof.Machine

/-! ### Rows of a STREAM (R70, R76) -/

/-- At full level every AC is an advance (R34). -/
theorem advanceAc_full {L : Nat} (h : 7 ≤ L) (fuel base n : Nat) : advanceAc L fuel base n = base + n := by
  cases fuel with
  | zero => rfl
  | succ k => exact if_neg (by omega)

/-- A STREAM that finds the array at full level and that no slot bound lengthens shows row m 273 AC after its last beat. -/
theorem rowVisible_full {L occ M trow : Nat} (h : 7 ≤ L) (hocc : occ ≤ M * trow) (a m : Nat) :
    rowVisible a L trow occ M m = a + ((m + 1) * trow - 1) + 273 := by
  have hslot : rowSlot L trow occ M m = 0 := if_neg (by rw [streamOcc, if_pos h]; omega)
  rw [rowVisible, hslot, if_pos rfl, advanceAc_full h, show ∀ n, Nat.max n 0 = n from Nat.max_zero]
  omega

theorem mem_landList {start L trow occ i k : Nat} {rows : List (List W32)} (hk : k < 256) (h : 256 * i + k < rows.length) :
    (rowVisible start L trow occ rows.length (256 * i + k), k, rows.getD (256 * i + k) []) ∈ landList start L trow occ i rows := by
  refine List.mem_map.2 ⟨k, List.mem_range.2 ?_, rfl⟩
  exact Nat.lt_min.2 ⟨hk, by omega⟩

/-- The row of 256 output elements that a STREAM computes from row m of its operand (R68). -/
def streamOutRow (s : State) (o : Opnd) (m : Nat) : List W32 :=
  (outRow s.mxe.active (if o.fmt = .e2m1 then 64 else 32) 256 (o.line s m)).1

theorem getD_entriesOf {base M i : Nat} (h : 256 * i < M) :
    i < (entriesOf base M).length ∧ (entriesOf base M).getD i 0 = (base + i) % 8 := by
  have hi : i < ceilDiv M 256 := by unfold ceilDiv; omega
  exact ⟨by simpa [entriesOf] using hi, by rw [entriesOf, getD_map_range, if_pos hi]⟩

/-- Row m of a STREAM is among the rows that land in entry m ÷ 256 after its first, with the AC in which it is visible. -/
theorem mem_streamEffs (s : State) (e : QEnt) (a occ trow L : Nat) (acc accS : Bool) {M m : Nat} (hm : m < M) :
    ∃ rows, Eff.sums ((bits (wd e.words 5) 14 12 + m / 256) % 8) (ftq s ((bits (wd e.words 5) 14 12 + m / 256) % 8)).stamp acc rows
        ∈ streamEffs e a occ M trow L acc accS s ∧
      (rowVisible a L trow occ M m, m % 256, streamOutRow s (streamOpnd e.words M) m) ∈ rows := by
  let o := streamOpnd e.words M
  let rows : List (List W32) :=
    (((List.range M).map (o.line s)).map (outRow s.mxe.active (if o.fmt = .e2m1 then 64 else 32) 256)).map Prod.fst
  have hlen : rows.length = M := by simp [rows]
  have hrow : rows.getD m [] = streamOutRow s o m := by
    rw [List.getD_eq_getElem _ _ (by omega)]
    simp [rows, streamOutRow]
  have hdiv : 256 * (m / 256) + m % 256 = m := Nat.div_add_mod m 256
  obtain ⟨hi, hn⟩ := getD_entriesOf (base := bits (wd e.words 5) 14 12) (M := M) (i := m / 256) (by omega)
  refine ⟨landList a L trow occ (m / 256) rows, ?_, ?_⟩
  · refine List.mem_append_left _ (List.mem_append_left _ (List.mem_map.2 ⟨m / 256, List.mem_range.2 hi, ?_⟩))
    rw [hn]
  · have h := mem_landList (start := a) (L := L) (trow := trow) (occ := occ) (i := m / 256) (k := m % 256) (rows := rows)
      (Nat.mod_lt _ (by decide)) (by omega)
    rwa [hdiv, hlen, hrow] at h

/-! ### Rows that land (R68, R76) -/

theorem getD_padTo_nil {α : Type} {N : Nat} {l : List (List α)} (h : l.length ≤ N) (i : Nat) :
    (padTo [] N l).getD i [] = l.getD i [] := by
  unfold padTo
  rw [List.take_of_length_le h]
  by_cases hi : i < l.length
  · rw [List.getD_append _ _ _ _ hi]
  · rw [List.getD_append_right _ _ _ _ (by omega), List.getD_eq_default l _ (by omega)]
    simp only [List.getD_eq_getElem?_getD, List.getElem?_replicate]
    split <;> rfl

theorem tileElem_landRows_one (acc : Bool) (v m : Nat) (row : List W32) (d : List (List W32)) (i c : Nat) :
    tileElem (landRows acc [(v, m, row)] d).1 i c =
      if i = m then (landRow acc (d.getD m []) row).1.getD c 0#32 else tileElem d i c := by
  have hN : d.length ≤ Nat.max d.length (m + 1) := Nat.le_max_left ..
  have hm : m < (padTo [] (Nat.max d.length (m + 1)) d).length := by
    rw [length_padTo]; exact Nat.lt_of_lt_of_le (Nat.lt_succ_self m) (Nat.le_max_right ..)
  have hland : (landRows acc [(v, m, row)] d).1 =
      (padTo [] (Nat.max d.length (m + 1)) d).set m (landRow acc (d.getD m []) row).1 := by
    rw [← getD_padTo_nil hN m]; rfl
  have hset (R : List W32) : ((padTo [] (Nat.max d.length (m + 1)) d).set m R).getD i [] = if i = m then R else d.getD i [] := by
    rw [← getD_padTo_nil hN i]
    simp only [List.getD_eq_getElem?_getD, List.getElem?_set]
    by_cases hi : i = m
    · simp [hi, hm]
    · simp [hi, Ne.symm hi]
  rw [tileElem, hland, hset]
  split <;> rfl

/-- A landing row is added element by element, each with one rounding (R68). -/
theorem getD_landRow_add {old new : List W32} {c : Nat} (hc : c < new.length) : (landRow true old new).1.getD c 0#32 =
    BitVec.ofNat 32 (toF32 ((f32 (old.getD c 0#32).toNat).add (f32 (new.getD c 0#32).toNat)).1).1 :=
  (getD_map_range ..).trans (if_pos (Nat.lt_of_lt_of_le hc (Nat.le_max_right ..)))

theorem ftq_setFtq (n : Nat) (x : Ftq) (s : State) (k : Nat) : ftq (setFtq n x s) k = if k = n then x else ftq s k :=
  SMap.get_set _

/-- What one landing row does to its entry, and to no other (R76, R77). -/
theorem ftq_landIn_one (r : Run) (n stamp : Nat) (acc : Bool) (v m : Nat) (row : List W32) (s : State) (k : Nat) :
    ftq (landIn r n stamp acc [(v, m, row)] s).1 k = if k = n then
      { ftq s n with data := (landRows acc [(v, m, row)] (ftq s n).data).1, rows := Nat.max (ftq s n).rows (m + 1), tag := r.tag }
      else ftq s k := by
  unfold landIn
  rw [if_neg (List.cons_ne_nil _ _)]
  exact ftq_setFtq ..

theorem landIn_shape (r : Run) (n stamp : Nat) (acc : Bool) (rows : List (Nat × Nat × List W32)) (s : State) :
    ∃ x, (landIn r n stamp acc rows s).1 = { s with mxe := x } := by
  unfold landIn
  split
  · exact ⟨s.mxe, rfl⟩
  · exact ⟨_, rfl⟩

theorem applySums_shape (r : Run) (n stamp : Nat) (acc : Bool) (rows : List (Nat × Nat × List W32)) (s : State) :
    ∃ x, (applySums r n stamp acc rows s).1 = { s with mxe := x } := by
  obtain ⟨x, hx⟩ := landIn_shape r n stamp acc rows s
  unfold applySums
  generalize landIn r n stamp acc rows s = l at hx
  obtain ⟨t, f⟩ := l
  obtain rfl : t = _ := hx
  exact ⟨_, rfl⟩

/-- The last rows of a STREAM in an entry: it is HELD where that STREAM wrote it last (R76). -/
theorem ftq_applySums (r : Run) (n stamp : Nat) (acc : Bool) (rows : List (Nat × Nat × List W32)) (s : State) (k : Nat) :
    ftq (applySums r n stamp acc rows s).1 k =
      let t := (landIn r n stamp acc rows s).1
      if k = n then { ftq t n with st := if (ftq t n).st = .open_ ∧ (ftq t n).writer = r.startAc then .held else (ftq t n).st }
      else ftq t k := by
  unfold applySums
  generalize landIn r n stamp acc rows s = l
  exact ftq_setFtq ..

/-- The last row of the STREAM that wrote an entry last leaves it HELD (R76). -/
theorem ftq_applySums_one {r : Run} {n : Nat} {s : State} (ho : (ftq s n).st = .open_) (hw : (ftq s n).writer = r.startAc)
    (stamp : Nat) (acc : Bool) (v m : Nat) (row : List W32) (k : Nat) :
    ftq (applySums r n stamp acc [(v, m, row)] s).1 k = if k = n then { ftq s n with
      data := (landRows acc [(v, m, row)] (ftq s n).data).1, rows := Nat.max (ftq s n).rows (m + 1), tag := r.tag, st := .held }
      else ftq s k := by
  rw [ftq_applySums]
  dsimp only
  rw [ftq_landIn_one, ftq_landIn_one, if_pos rfl]
  by_cases hk : k = n
  · rw [if_pos hk, if_pos hk]
    simp [ho, hw]
  · rw [if_neg hk, if_neg hk, if_neg hk]

/-! ### The completion of a STREAM that meets no other -/

/-- What the notes of a completion leave: running commands, memory, arrivals and finished tiles. -/
structure TilesKept (s t : State) : Prop where
  runs : t.runs = s.runs
  mem : t.mem = s.mem
  xfer : t.xfer = s.xfer
  ftq : t.mxe.ftq = s.mxe.ftq

theorem TilesKept.trans {s t u : State} (h : TilesKept s t) (h' : TilesKept t u) : TilesKept s u :=
  ⟨h'.runs.trans h.runs, h'.mem.trans h.mem, h'.xfer.trans h.xfer, h'.ftq.trans h.ftq⟩

theorem streamDone_tilesKept (r : Run) (s : State) : TilesKept s (streamDone r s) := by
  unfold streamDone
  split <;> exact ⟨rfl, rfl, rfl, rfl⟩

theorem addSummary_tilesKept (c : Ctx) (f : Flags) (tag : Nat) (s : State) : TilesKept s (addSummary c f tag s) := by
  unfold addSummary
  split <;> exact ⟨rfl, rfl, rfl, rfl⟩

/-- A STREAM that is done makes its changes; what follows them reaches neither memory nor the finished tiles. -/
theorem finishRun_stream {s : State} {r : Run} {n stamp : Nat} {acc : Bool} {rows : List (Nat × Nat × List W32)}
    (hal : Alone s r) (hn : NoneCarried s) (hf : r.effs = [.sums n stamp acc rows]) (h13 : r.opcode = 0x13) :
    let u := (applySums r n stamp acc rows (atDone r s)).1
    (finishRun r s).runs = u.runs ∧ (finishRun r s).mem = u.mem ∧ ∀ k, ftq (finishRun r s) k = ftq u k := by
  intro u
  let F := fNone ||| (applySums r n stamp acc rows (atDone r s)).2
  have hset : settleRun r (noteActive r (advance (2 * r.doneAc) s)) =
      (noteActive r (advance (2 * r.doneAc) s), r, [.sums n stamp acc rows]) := by
    rw [settleRun_alone (hal.congr (by simp [noteActive]) (by simp [noteActive])), hf]
  have hruns : (noteActive r (advance (2 * r.doneAc) s)).runs = s.runs := by simp [noteActive]
  have hx : finishRun r s = trace
      { kind := 4, ctx := some r.ctx, opcode := r.opcode, tag := r.tag, time := 2 * r.doneAc, argA := F.toNat }
      (retireSpan r.seat (landCarried r.seat (streamDone r (addSummary r.ctx F r.tag u)))) := by
    have hlast (y : State) : noteLast r F y = y := by simp [noteLast, h13]
    rw [← hlast (addSummary r.ctx F r.tag u)]
    unfold finishRun
    simp only [hset, hruns, h13, if_true]
    rfl
  have hcar : NoneCarried u := (applySums_doneKept ..).carried (hn.congr (by simp [atDone, noteActive]))
  have hk := (addSummary_tilesKept r.ctx F r.tag u).trans (streamDone_tilesKept r _)
  rw [hx, landCarried_none (hcar.congr hk.xfer)]
  generalize streamDone r (addSummary r.ctx F r.tag u) = y at hk
  exact ⟨hk.runs, hk.mem, fun k => ftq_congr hk.ftq k⟩

/-! ### Bytes of a transposing buffer (R86) -/

theorem get_putTxb {d : W8} (m : SMap W8) (a : Nat) (bs : List W8) (k : Nat) :
    SMap.get d (putTxb m a bs) k = if a ≤ k ∧ k < a + bs.length then bs.getD (k - a) 0#8 else SMap.get d m k := by
  induction bs generalizing m a with
  | nil => rw [putTxb, if_neg (by simp)]
  | cons b bs ih =>
    rw [putTxb, ih, SMap.get_put]
    simp only [List.length_cons]
    by_cases hk : k = a
    · subst hk
      rw [if_neg (by omega), if_pos rfl, if_pos (by omega), Nat.sub_self]; rfl
    · rw [if_neg hk]
      by_cases h : a + 1 ≤ k ∧ k < a + 1 + bs.length
      · rw [if_pos h, if_pos (by omega), show k - a = (k - (a + 1)) + 1 by omega, List.getD_cons_succ]
      · rw [if_neg h, if_neg (by omega)]

/-- Row i of a TXB.LOAD goes to its place of the buffer (R86). -/
theorem mem_txbEffs {e : QEnt} (hst : e.stale = false) (id : Nat) (s : State) {i : Nat} (hi : i < txbRows e.words) :
    Eff.txb (txbSel e.words) (wd e.words 8 + i * bits (wd e.words 4) 18 0)
      (readBytes s (wd e.words 1 + i * bits (wd e.words 2) 23 0) (bits (wd e.words 5) 22 10)) ∈ txbEffs e id s := by
  refine List.mem_map.2 ⟨i, List.mem_range.2 hi, ?_⟩
  rw [if_neg (by simp [hst])]
  rfl

end Sys2Proof.Machine

/-!
## Matrix: what FTQ.CVT writes, and the statement about the matrix engine (R56, R66 to R78, R86, R87)
-/

namespace Sys2Proof.Machine

/-! ### Converted elements (R51, R56) -/

/-- An encoding into a format of codes 0 to 4 fits its element. -/
theorem encodePlain_lt {f : Fmt} (hmx : f.isMx = false) (h8 : f ≠ .int8) (rnd : Rnd) (sat : Bool) (v : Val) :
    (encodePlain f rnd sat v).1 < 2 ^ f.width := by
  have hp (L : Layout) (hL : L ∈ [layFP32, layBF16, layFP16, layE4M3, layE5M2]) : L.Proper := by
    simp only [List.mem_cons, List.not_mem_nil, or_false] at hL
    obtain rfl | rfl | rfl | rfl | rfl := hL <;> exact ⟨by decide, by decide, by decide, by decide⟩
  cases f with
  | fp32 => exact Layout.encode_lt (hp layFP32 (by simp)) rnd sat v
  | bf16 => exact Layout.encode_lt (hp layBF16 (by simp)) rnd sat v
  | fp16 => exact Layout.encode_lt (hp layFP16 (by simp)) rnd sat v
  | e4m3 => exact Layout.encode_lt (hp layE4M3 (by simp)) rnd sat v
  | e5m2 => exact Layout.encode_lt (hp layE5M2 (by simp)) rnd sat v
  | int8 => exact absurd rfl h8
  | mxfp8 => cases hmx
  | e3m2 => cases hmx
  | e2m3 => cases hmx
  | e2m1 => cases hmx
  | mxint8 => cases hmx

/-- With the rounding mode RNE no element draws. -/
theorem rndAll_rne (s : State) (xs : List CvtElem) (d : Draws) : (rndAll s 0 xs d).1 = xs.map (fun x => (x, Rnd.rne)) := by
  induction xs generalizing d with
  | nil => rfl
  | cons x xs ih =>
    unfold rndAll
    split <;> simp [ih, rndDraw]

/-- A word of a tile, times the scale, in the format of a control word (R56, R78). -/
def cvtWord (ctl : Nat) (scale : Val) (x : W32) : Nat :=
  (encodePlain (cvtFmt ctl) .rne (bit ctl 7) ((f32 x.toNat).mul scale).1).1

/-- The elements of a line to be converted, each with the generator it would draw from (R52). -/
def cvtElems (scale : Val) (l : List W32) : List CvtElem :=
  (List.range l.length).map (fun j => ⟨((f32 (l.getD j 0#32).toNat).mul scale).1, 256 + j, true⟩)

variable {ctl : Nat}

/-- A line converted with RNE into a format of codes 0 to 4: word by word. -/
theorem elems_cvtLine (hmx : (cvtFmt ctl).isMx = false) (h8 : cvtFmt ctl ≠ .int8) (hr : bits ctl 6 5 = 0) (s : State)
    (scale : Val) (mult : List Nat) (l : List W32) (d : Draws) :
    (cvtLine s ctl mult (cvtElems scale l) d).elems.map (fun p => p.1.getD 0) = l.map (cvtWord ctl scale) := by
  refine List.ext_getElem ?_ fun j h1 h2 => ?_
  · simp [cvtLine, hmx, hr, rndAll_rne, cvtElems]
  · have hj : j < l.length := by simpa using h2
    simp [cvtLine, hmx, h8, hr, rndAll_rne, cvtElems, hj, cvtWord]

/-- The lines of a tile are converted one by one. -/
theorem getElem?_cvtLines (hmx : (cvtFmt ctl).isMx = false) (h8 : cvtFmt ctl ≠ .int8) (hr : bits ctl 6 5 = 0) (s : State)
    (scale : Val) (mult : List Nat) {ls : List (List W32)} {j : Nat} {l : List W32} (hl : ls[j]? = some l) (d : Draws) :
    ∃ o, (cvtLines s ctl scale mult ls d).1[j]? = some o ∧ o.elems.map (fun p => p.1.getD 0) = l.map (cvtWord ctl scale) := by
  induction ls generalizing j d with
  | nil => cases hl
  | cons k ls ih =>
    cases j with
    | zero =>
      obtain rfl : k = l := Option.some.inj hl
      exact ⟨_, rfl, elems_cvtLine hmx h8 hr s scale mult k d⟩
    | succ j => exact ih hl _

/-! ### The stored lines (R78) -/

/-- Element c of stored line j: T as it is, or transposed. -/
def storedElem (ws : List Nat) (d : List (List W32)) (j c : Nat) : W32 :=
  if bit (wd ws 6) 3 == bit (wd ws 3) 8 then tileElem d j c else tileElem d c j

theorem getElem?_storedLines (ws : List Nat) (d : List (List W32)) {j : Nat} (hj : j < (cvtShape ws).1) :
    (storedLines d (bits (wd ws 6) 12 4) (bits (wd ws 6) 21 13) (bit (wd ws 6) 3) (bit (wd ws 3) 8))[j]? =
      some ((List.range (cvtShape ws).2).map (storedElem ws d j)) := by
  have hline : storedElem ws d j = fun c => if bit (wd ws 6) 3 == bit (wd ws 3) 8 then tileElem d j c else tileElem d c j := rfl
  unfold cvtShape at hj ⊢
  unfold storedLines
  rw [hline]
  by_cases h : (bit (wd ws 6) 3 == bit (wd ws 3) 8) = true
  · rw [if_pos h] at hj
    simp [h, hj]
  · rw [if_neg h] at hj
    simp [h, List.getElem?_range hj]

theorem length_storedLines (ws : List Nat) (d : List (List W32)) :
    (storedLines d (bits (wd ws 6) 12 4) (bits (wd ws 6) 21 13) (bit (wd ws 6) 3) (bit (wd ws 3) 8)).length = (cvtShape ws).1 := by
  unfold cvtShape storedLines
  split <;> simp [*]

/-! ### The bytes of a line (R78) -/

/-- The bytes of a stored line: its elements packed, and zeros up to whole granules. -/
def cvtLineBytes (ws : List Nat) (scale : Val) (d : List (List W32)) (j : Nat) : List W8 :=
  padTo 0#8 (cvtBytes ws) (packBits (cvtFmt (wd ws 3)).width
    (((List.range (cvtShape ws).2).map (storedElem ws d j)).map (cvtWord (wd ws 3) scale)))

theorem ofLE_slice_cvtLineBytes {ws : List Nat} (hmx : (cvtFmt (wd ws 3)).isMx = false) (h8 : cvtFmt (wd ws 3) ≠ .int8) {w : Nat}
    (hw : (cvtFmt (wd ws 3)).width = 8 * w) (scale : Val) (d : List (List W32)) (j : Nat) {c : Nat} (hc : c < (cvtShape ws).2) :
    ofLE (slice (c * w) w (cvtLineBytes ws scale d j)) = cvtWord (wd ws 3) scale (storedElem ws d j c) := by
  have hle : c * w + w ≤ (cvtShape ws).2 * w := by rw [← Nat.succ_mul]; exact Nat.mul_le_mul_right w hc
  have helem : elemBytes (8 * w) (cvtShape ws).2 = (cvtShape ws).2 * w := by
    rw [elemBytes, Nat.mul_assoc, Nat.mul_comm w]; omega
  have hbytes : (cvtShape ws).2 * w ≤ cvtBytes ws := by
    unfold cvtBytes ceilDiv
    rw [hw, helem]
    omega
  have hlen : c * w + w ≤ (packBits (8 * w)
      (((List.range (cvtShape ws).2).map (storedElem ws d j)).map (cvtWord (wd ws 3) scale))).length := by
    rw [packBits_eq, length_leBytes]
    simpa [← elemBytes.eq_1, helem] using hle
  rw [cvtLineBytes, hw, slice_padTo hlen (hle.trans hbytes), ofLE_slice_packBits (by simpa using hc), List.map_map, getD_map_range,
    if_pos hc, ← hw]
  exact Nat.mod_eq_of_lt (encodePlain_lt hmx h8 _ _ _)

/-- The scale of an FTQ.CVT whose tracker computes none just in time (R61, R62). -/
def cvtScale (ws : List Nat) (s : State) : Val :=
  if bit (wd ws 3) 10 then f32 (sctSlot s (bits (wd ws 3) 23 16)).scale else .one

/-- An FTQ.CVT into a format of codes 0 to 4 with RNE writes each stored line (R78). -/
theorem mem_cvtEffs {e : QEnt} {s : State} (hmx : (cvtFmt (wd e.words 3)).isMx = false) (h8 : cvtFmt (wd e.words 3) ≠ .int8)
    (hr : bits (wd e.words 3) 6 5 = 0) (hp : (sctSlot s (bits (wd e.words 3) 23 16)).policy ≠ 2) {j : Nat}
    (hj : j < (cvtShape e.words).1) :
    Eff.mem (wd e.words 1 + j * bits (wd e.words 4) 23 0)
      (cvtLineBytes e.words (cvtScale e.words s) (ftq s (bits (wd e.words 6) 2 0)).data j) ∈ cvtEffs e s := by
  have hjit : cvtJit e.words s = false := by simp [cvtJit, hp]
  obtain ⟨o, ho, hel⟩ := getElem?_cvtLines hmx h8 hr s (cvtScale e.words s) []
    (getElem?_storedLines e.words (ftq s (bits (wd e.words 6) 2 0)).data hj) []
  unfold cvtEffs
  simp only [hjit, h8, hmx, if_false, Bool.false_eq_true, List.append_assoc]
  refine List.mem_append_left _ (List.mem_flatMap.2 ⟨j, List.mem_range.2 ?_, ?_⟩)
  · rw [length_storedLines]; exact hj
  · rw [show (if bit (wd e.words 3) 10 = true then f32 (sctSlot s (bits (wd e.words 3) 23 16)).scale else Val.one) =
      cvtScale e.words s from rfl, ho]
    simp only [hel, cvtLineBytes, List.append_nil, List.mem_singleton]

/-! ### Completions of the matrix engine (R74, R76, R86) -/

/-- The command that runs alone completes next. -/
theorem exec_commandDone_single {s : State} {r : Run} (hr : s.runs = [r]) (ht : s.pwr.tripped = false)
    (hd : startDue s r.doneAc = false) : exec .commandDone s = .next (finishRun r s) := by
  have hl : nextDone (liveRuns s) = some r := by rw [liveRuns, ht, hr]; rfl
  show execCommandDone s = _
  simp [execCommandDone, hl, hd]

variable {s : State} {r : Run}

/-- A FILL that is done has its lines in the shadow set (R74). -/
theorem finishRun_fill (hr : s.runs = [r]) (hal : Alone s r) (hn : NoneCarried s) (hdue : NothingDue s)
    (hop : r.opcode = 0x10 ∨ r.opcode = 0x11) {strip : Bool} {fmt : Nat} {kind : Bool} {rank : Nat} {lines : List (List Val)}
    (hf : r.effs = [.fill strip fmt kind rank lines]) :
    (finishRun r s).runs = [] ∧ (finishRun r s).mem = s.mem ∧ (finishRun r s).ctxs = s.ctxs ∧
      (finishRun r s).mxe = (if strip then { s.mxe with stripShadow := ⟨lines, fmt, kind, rank⟩ }
        else { s.mxe with shadow := ⟨lines, fmt, kind, rank⟩ }) := by
  have h13 : r.opcode ≠ 0x13 := by omega
  obtain ⟨hm0, hc0, -, hx0, hy0⟩ := atDone_finds hdue r
  obtain ⟨hm, hc, -, hx⟩ := finishRun_changes hr hf h13 hal hn hdue rfl hy0
  refine ⟨(finishRun_completes hr hf h13 hal hn).1, hm.trans hm0, hc.trans hc0, hx.trans ?_⟩
  rw [← hx0]; rfl

/-- A TXB.LOAD that is done has its bytes in its buffer (R86). -/
theorem finishRun_txb (hr : s.runs = [r]) (hal : Alone s r) (hn : NoneCarried s) (hdue : NothingDue s) (hop : r.opcode = 0x18)
    {sel off : Nat} {bs : List W8} (hf : r.effs = [.txb sel off bs]) :
    (finishRun r s).runs = [] ∧ (finishRun r s).mem = s.mem ∧ (finishRun r s).ctxs = s.ctxs ∧ ∀ k,
      txbByte (finishRun r s) sel k = if off ≤ k ∧ k < off + bs.length then bs.getD (k - off) 0#8 else txbByte s sel k := by
  have h13 : r.opcode ≠ 0x13 := by omega
  obtain ⟨hm0, hc0, -, hx0, hy0⟩ := atDone_finds hdue r
  obtain ⟨hm, hc, -, hx⟩ := finishRun_changes hr hf h13 hal hn hdue rfl hy0
  refine ⟨(finishRun_completes hr hf h13 hal hn).1, hm.trans hm0, hc.trans hc0, fun k => ?_⟩
  have hmxe : (finishRun r s).mxe = { s.mxe with txb := putTxb s.mxe.txb (sel * 524288 + off) bs } := by rw [hx, ← hx0]; rfl
  rw [txbByte, hmxe, get_putTxb, show sel * 524288 + k - (sel * 524288 + off) = k - off by omega]
  exact if_congr (by omega) rfl rfl

/-- A STREAM whose last row lands leaves its entry HELD, with that row in it (R68, R76). -/
theorem finishRun_streamRow (hr : s.runs = [r]) (hal : Alone s r) (hn : NoneCarried s) (hdue : NothingDue s)
    (hop : r.opcode = 0x13) {n : Nat} {acc : Bool} {v m : Nat} {row : List W32}
    (hf : r.effs = [.sums n (ftq s n).stamp acc [(v, m, row)]]) (ho : (ftq s n).st = .open_) (hw : (ftq s n).writer = r.startAc) :
    (finishRun r s).runs = [] ∧ (finishRun r s).mem = s.mem ∧ ∀ k, ftq (finishRun r s) k = if k = n then { ftq s n with
      data := (landRows acc [(v, m, row)] (ftq s n).data).1, rows := Nat.max (ftq s n).rows (m + 1), tag := r.tag, st := .held }
      else ftq s k := by
  obtain ⟨hm0, -, -, hx0, -⟩ := atDone_finds hdue r
  have hftq (k : Nat) : ftq (atDone r s) k = ftq s k := ftq_congr (by rw [hx0]) k
  obtain ⟨hruns, hmem, hk⟩ := finishRun_stream hal hn hf hop
  have hd := applySums_doneKept r n (ftq s n).stamp acc [(v, m, row)] (atDone r s)
  obtain ⟨x, hx⟩ := applySums_shape r n (ftq s n).stamp acc [(v, m, row)] (atDone r s)
  refine ⟨hruns.trans (hd.runs.trans (by simp [atDone, hr])), hmem.trans (by rw [hx]; exact hm0), fun k => ?_⟩
  rw [hk, ftq_applySums_one (by rw [hftq]; exact ho) (by rw [hftq]; exact hw), hftq, hftq]

end Sys2Proof.Machine

section
open Sys2Proof Sys2Proof.Machine Host

/-- Settles O16, stage by stage: the operands, the sums, the rows of a STREAM, what a completion leaves, and the bytes of
TXB.LOAD and FTQ.CVT. -/
theorem matrixCommandsCompute : Obligations.MatrixCommandsCompute := by
  refine ⟨fun s o c k w hw => ⟨fun ht => Opnd.getD_line_txb hw ht s c k, fun ht => ?_⟩,
    fun per x w h hw hfin => columnSum_exact h hw hfin,
    fun s e a occ M trow L m acc accS hm =>
      ⟨mem_streamEffs s e a occ trow L acc accS hm, fun hL hocc => rowVisible_full hL hocc a m⟩,
    fun s r hr hal hn hdue ht hd => ?_, fun s e id i hst hi => mem_txbEffs hst id s hi, fun s e j c w => ?_⟩
  · intro x
    have hl := Opnd.getD_line_mem hw ht s c k
    refine ⟨fun hk => hl.trans (if_neg (by omega)), fun hk hmx hk32 => ?_, fun hk h8 => ?_, fun hk hmx h8 => ?_⟩ <;>
      refine (hl.trans (if_pos hk)).trans ?_
    · rw [if_pos hmx, Opnd.getD_aux_mx hmx s c hk32]
    · rw [if_neg (by simp [h8, Fmt.isMx]), if_pos h8, Opnd.getD_aux_int8 h8 s c hk]
    · rw [if_neg (by simp [hmx]), if_neg h8]
  · have hx := exec_commandDone_single hr ht hd
    refine ⟨fun strip fmt kind rank lines hop hf => ?_, fun n acc v m row hop hf _ ho hw => ?_, fun sel off bs hop hf =>
      ⟨_, hx, finishRun_txb hr hal hn hdue hop hf⟩⟩
    · obtain ⟨hruns, hm, hc, hmxe⟩ := finishRun_fill hr hal hn hdue hop hf
      refine ⟨_, hx, hruns, hm, hc, ?_⟩
      rw [hmxe]
      cases strip <;> exact ⟨rfl, rfl, rfl, rfl⟩
    · obtain ⟨hruns, hm, hk⟩ := finishRun_streamRow hr hal hn hdue hop hf ho hw
      have hn' := (hk n).trans (if_pos rfl)
      have hdata (i c : Nat) := congrArg (fun y : Ftq => tileElem y.data i c) hn'
      refine ⟨_, hx, hruns, hm, by rw [hn'], by rw [hn'], fun k h => (hk k).trans (if_neg h), fun i c hi => ?_, fun ha c => ?_,
        fun ha c hc => ?_⟩
      · exact (hdata i c).trans ((tileElem_landRows_one ..).trans (if_neg hi))
      · subst ha
        exact (hdata m c).trans ((tileElem_landRows_one ..).trans (if_pos rfl))
      · subst ha
        exact (hdata m c).trans (((tileElem_landRows_one ..).trans (if_pos rfl)).trans (getD_landRow_add hc))
  · intro ws ctl f hmx h8 hw hr hj hc hp d x
    exact ⟨_, mem_cvtEffs hmx h8 hr hp hj, length_padTo .., ofLE_slice_cvtLineBytes hmx h8 hw _ _ _ hc⟩
end

/-!
## Cmem: the stash's configuration, the slot maps and the power of a bank under host software (R92, R173, R185, R194)
-/

namespace Sys2Proof.Machine

/-! ### The stash's configuration (R92) -/

theorem stashOf_modStash_same (c : Nat) (f : Stash → Stash) (s : State) : stashOf (modStash c f s) c = f (stashOf s c) := by
  simp [stashOf, modStash]

theorem stashOf_modStash_ne {c k : Nat} (h : k ≠ c) (f : Stash → Stash) (s : State) : stashOf (modStash c f s) k = stashOf s k := by
  simp [stashOf, modStash, SMap.get_mod_ne _ _ h]

theorem stashOf_stashCfg (c : Ctx) (v : Nat) (s : State) : stashOf (stashCfg c v s) c = { stashOf s c with
    base := bits v 11 0, size := Nat.min (bits v 22 12) 1536, slots := [], layers := [], head := 0 } :=
  stashOf_modStash_same ..

/-! ### The commit of the slot maps (R173) -/

theorem mapCommit_refused {s : State} (h : commitReason s ≠ 0) :
    mapCommit s = { s with cm := { s.cm with mapRefused := true, mapReason := commitReason s } } := if_pos h

/-- An accepted commit changes the active maps at the next turn, and with nothing due the time alone besides. -/
theorem mapCommit_accepted {s : State} (hdue : NothingDue s) (h : commitReason s = 0) : ∃ w x, mapCommit s =
    { s with cm := { s.cm with active := s.cm.staged }, ec := (s.ec / 16 + 1) * 16, wall := w, stretched := x } := by
  obtain ⟨k, w, x, ha, hk⟩ := advance_shape hdue ((s.ec / turnEc + 1) * turnEc)
  have hk' : k = (s.ec / 16 + 1) * 16 := hk.trans (Nat.max_eq_right (by unfold turnEc; omega))
  refine ⟨w, x, ?_⟩
  rw [mapCommit]
  dsimp only
  rw [if_neg (not_not_intro h), toTurn, ha, hk', setMaps]

/-! ### The stages of a bank's power sequence (R185) -/

theorem bank_modBank_ne {b k : Nat} (h : k ≠ b) (f : Bank → Bank) (s : State) : bank (modBank s b f) k = bank s k := by
  simp [bank, modBank, SMap.get_mod_ne _ _ h]

theorem bank_beginStage_same (b : Nat) (p : PwrState) (goal : Nat) (isol : Bool) (s : State) :
    bank (beginStage b p goal isol s) b =
      { bank s b with pw := p, goal := goal, isolated := isol, stageEc := s.ec, stageWall := s.wall } := bank_modBank_same ..

/-- What a change of a bank's power leaves: data, contexts, and every other bank. -/
structure PowerKept (b : Nat) (s t : State) : Prop where
  mem : t.mem = s.mem
  ctxs : t.ctxs = s.ctxs
  others : ∀ k, k ≠ b → bank t k = bank s k

theorem PowerKept.refl (b : Nat) (s : State) : PowerKept b s s := ⟨rfl, rfl, fun _ _ => rfl⟩

theorem PowerKept.trans {b : Nat} {s t u : State} (h : PowerKept b s t) (h' : PowerKept b t u) : PowerKept b s u :=
  ⟨h'.mem.trans h.mem, h'.ctxs.trans h.ctxs, fun k hk => (h'.others k hk).trans (h.others k hk)⟩

theorem modBank_powerKept (b : Nat) (f : Bank → Bank) (s : State) : PowerKept b s (modBank s b f) :=
  ⟨rfl, rfl, fun _ hk => bank_modBank_ne hk ..⟩

/-- A request takes effect at once, or not at all. -/
theorem followReq_powerKept (b : Nat) (s : State) : PowerKept b s (followReq b s) := by
  unfold followReq
  dsimp only
  split
  any_goals exact .refl b s
  all_goals exact modBank_powerKept ..

/-- A bank that is where its request wants it stays there. -/
theorem followReq_settled {s : State} {b : Nat} (h : (bank s b).pw = .on ∧ (bank s b).req = 0 ∨
    (bank s b).pw = .retain ∧ (bank s b).req = 1 ∨ (bank s b).pw = .dark ∧ (bank s b).req = 2) : followReq b s = s := by
  unfold followReq
  obtain ⟨hp, hr⟩ | ⟨hp, hr⟩ | ⟨hp, hr⟩ := h <;> simp only [hp, hr]

/-- A bank that is ON begins its drain when it is asked to leave. -/
theorem followReq_drains {s : State} {b : Nat} (hp : (bank s b).pw = .on) (hr : (bank s b).req ≠ 0) :
    followReq b s = beginStage b .draining (bank s b).req false s := by
  unfold followReq
  simp only [hp]

theorem pwrReq_powerKept (b req : Nat) (s : State) : PowerKept b s (pwrReq b req s) := by
  unfold pwrReq
  split
  · exact .refl b s
  · exact (modBank_powerKept ..).trans (followReq_powerKept ..)

theorem bank_pwrReq_on {s : State} {b req : Nat} (hb : b < s.grade.banks) (hp : (bank s b).pw = .on) (hr : req = 1 ∨ req = 2) :
    bank (pwrReq b req s) b = { bank s b with
      pw := .draining, req := req, goal := req, isolated := false, stageEc := s.ec, stageWall := s.wall } := by
  have hreq : bank (modBank s b (fun k => { k with req := req })) b = { bank s b with req := req } := bank_modBank_same ..
  rw [pwrReq, if_neg (by omega), followReq_drains (by rw [hreq]; exact hp) (by rw [hreq]; show req ≠ 0; omega),
    bank_beginStage_same, hreq]
  rfl

theorem pass_wall_le (s : State) (e : Nat) : s.wall ≤ (pass e s).wall := by
  unfold pass
  split
  · exact Nat.le_add_right ..
  · exact le_rfl

/-- The port of a draining bank is isolated 8 service cycles after its drain has ended (R185). -/
theorem bankDrainEnd_idle {s : State} {b : Nat} (hdue : NothingDue s) (hd : draining s b = true) (ho : outstanding s b = 0) :
    ∃ t, execBankDrainEnd b s = .next t ∧ (bank t b).isolated = true ∧ (bank t b).pw = .draining ∧ t.ec = s.ec + 128 ∧
      t.ctxs = s.ctxs ∧ t.mem = s.mem := by
  obtain ⟨k, w, x, ha, hk⟩ := advance_shape hdue (s.ec + 8 * svcEc)
  refine ⟨_, if_pos (by simp [hd, ho]), ?_⟩
  rw [ha, bank_beginStage_same]
  exact ⟨rfl, rfl, hk.trans (Nat.max_eq_right (Nat.le_add_right ..)), rfl, rfl⟩

/-- A drain that is not over by its timeout is cut off there (R185). -/
theorem bankDrainTimeout_idle {s : State} {b : Nat} (hdue : NothingDue s) (hd : draining s b = true) :
    ∃ t, execBankDrainTimeout b s = .next t ∧ (bank t b).isolated = true ∧ (bank t b).pw = .draining ∧
      (bank s b).stageWall + Nat.max 1 s.cm.pwrTimeout * usTicks ≤ t.wall ∧ t.ctxs = s.ctxs ∧ t.mem = s.mem := by
  have hreach := advanceWall_reaches hdue ((bank s b).stageWall + Nat.max 1 s.cm.pwrTimeout * usTicks)
  obtain ⟨e, v, x, hw⟩ := advanceWall_time hdue ((bank s b).stageWall + Nat.max 1 s.cm.pwrTimeout * usTicks)
  rw [hw] at hreach
  have hle := pass_wall_le { s with ec := e, wall := v, stretched := x } (e + 8 * svcEc)
  refine ⟨_, if_pos hd, ?_⟩
  rw [hw, advance_pass (s := { s with ec := e, wall := v, stretched := x }) hdue, bank_beginStage_same]
  exact ⟨rfl, rfl, hreach.trans hle, by simp [beginStage], by simp [beginStage]⟩

/-! ### The end of a stage (R185) -/

theorem SMap.get_filter_key {α : Type} (d : α) (f : Nat → Bool) (m : SMap α) (k : Nat) :
    SMap.get d (m.filter fun p => f p.1) k = if f k = true then SMap.get d m k else d := by
  induction m with
  | nil => simp
  | cons p m ih =>
    rw [List.filter_cons]
    by_cases hk : p.1 = k
    · subst hk
      split <;> simp_all [SMap.get]
    · split <;> simp [SMap.get, hk, ih]

/-- A bank that loses its power is zero; the other bytes stay. -/
theorem readByte_clearBank (b : Nat) (s : State) (a : Nat) : readByte (clearBank b s) a =
    if a < bankBytes s ∧ bankOf s.grade a = b then emptyByte else readByte s a := by
  refine (SMap.get_filter_key emptyByte (fun a => !(decide (a < bankBytes s) && decide (bankOf s.grade a = b))) s.mem a).trans ?_
  by_cases h : a < bankBytes s ∧ bankOf s.grade a = b
  · simp [h]
  · rw [if_neg h, if_pos (by simpa [imp_iff_not_or] using h)]
    rfl

/-- A bank comes to where its power sequence ends: time passes to a wall time and for some EC more, and the bank stands there. -/
def endStage (b w e : Nat) (p : PwrState) (s : State) : State :=
  followReq b (beginStage b p 0 false (advance ((advanceWall w s).ec + e) (advanceWall w s)))

theorem bankTransitionDone_retain {s : State} {b : Nat} (hp : (bank s b).pw = .draining) (hi : (bank s b).isolated = true)
    (hg : (bank s b).goal = 1) : execBankTransitionDone b s =
      .next (endStage b ((bank s b).stageWall + 160 * usTicks / 1000) 0 .retain s) := by
  unfold execBankTransitionDone
  simp only [hp, hi, hg]
  rfl

theorem bankTransitionDone_dark {s : State} {b : Nat} (hp : (bank s b).pw = .draining) (hi : (bank s b).isolated = true)
    (hg : (bank s b).goal = 2) : execBankTransitionDone b s =
      .next (endStage b ((bank s b).stageWall + 1000 * usTicks / 1000) 0 .dark (clearBank b s)) := by
  unfold execBankTransitionDone
  simp only [hp, hi, hg]
  rfl

theorem bankTransitionDone_waking {s : State} {b : Nat} (hp : (bank s b).pw = .waking) : execBankTransitionDone b s =
    if (bank s b).goal = 2 then .next (endStage b ((bank s b).stageWall + 2000 * usTicks / 1000) 8192 .on (clearBank b s))
    else .next (endStage b ((bank s b).stageWall + 500 * usTicks / 1000) 0 .on s) := by
  unfold execBankTransitionDone
  simp only [hp]
  rfl

/-- A stage that ends where the bank is wanted ends the sequence there; data and contexts stay. -/
theorem endStage_settles {s : State} {b : Nat} {p : PwrState} (hdue : NothingDue s) (w e : Nat)
    (h : p = .on ∧ (bank s b).req = 0 ∨ p = .retain ∧ (bank s b).req = 1 ∨ p = .dark ∧ (bank s b).req = 2) :
    (bank (endStage b w e p s) b).pw = p ∧ (endStage b w e p s).ctxs = s.ctxs ∧ (endStage b w e p s).mem = s.mem := by
  obtain ⟨k, v, x, hw⟩ := advanceWall_time hdue w
  obtain ⟨k, v, x, ha, -⟩ := advance_shape (s := { s with ec := k, wall := v, stretched := x }) hdue (k + e)
  have hb := bank_beginStage_same b p 0 false { s with ec := k, wall := v, stretched := x }
  rw [endStage, hw, ha, followReq_settled (by rw [hb]; exact h), hb]
  exact ⟨rfl, rfl, rfl⟩

end Sys2Proof.Machine

section
open Sys2Proof Sys2Proof.Machine Host

/-- Settles O47, command by command: the requests change their bank alone, and each stage of its power sequence ends with time
passed and the bank where it was to come. -/
theorem coreMemoryFollowsTheHost : Obligations.CoreMemoryFollowsTheHost := by
  intro s b hrel hdue
  refine ⟨fun c v => ?_, ?_, fun req => ?_, fun hp hi => ?_, fun hp hi hr => ?_, fun hp hr => ?_⟩
  · have hc := stashOf_stashCfg c v.toNat s
    refine ⟨_, afterBoot_of _ _ hrel, rfl, rfl, congrArg Stash.base hc, congrArg Stash.size hc, congrArg Stash.slots hc,
      fun l => ?_, fun k hk => stashOf_modStash_ne hk ..⟩
    rw [layerOf, hc]
    rfl
  · by_cases hreason : commitReason s = 0
    · obtain ⟨w, x, h⟩ := mapCommit_accepted hdue hreason
      refine ⟨_, afterBoot_of _ _ hrel, ?_⟩
      rw [h]
      exact ⟨rfl, rfl, absurd hreason, fun _ => ⟨rfl, rfl⟩⟩
    · have h := mapCommit_refused hreason
      refine ⟨_, afterBoot_of _ _ hrel, ?_⟩
      rw [h]
      exact ⟨rfl, rfl, fun _ => rfl, fun h0 => absurd h0 hreason⟩
  · obtain ⟨hm, hc, ho⟩ := pwrReq_powerKept b req s
    exact ⟨_, afterBoot_of _ _ hrel, hc, hm, ho, fun h => if_pos h, bank_pwrReq_on⟩
  · have hd : draining s b = true := by simp [draining, hp, hi]
    exact ⟨bankDrainEnd_idle hdue hd, bankDrainTimeout_idle hdue hd⟩
  · refine ⟨fun hg => ?_, fun hg => ?_⟩
    · obtain ⟨hpw, hc, hm⟩ := endStage_settles (b := b) (p := .retain) hdue ((bank s b).stageWall + 160 * usTicks / 1000) 0
        (.inr (.inl ⟨rfl, hr.trans hg⟩))
      exact ⟨_, bankTransitionDone_retain hp hi hg, hpw, hm, hc⟩
    · obtain ⟨hpw, hc, hm⟩ := endStage_settles (s := clearBank b s) (b := b) (p := .dark) hdue
        ((bank s b).stageWall + 1000 * usTicks / 1000) 0 (.inr (.inr ⟨rfl, hr.trans hg⟩))
      exact ⟨_, bankTransitionDone_dark hp hi hg, hpw, hc, fun a => (readByte_congr _ hm a).trans (readByte_clearBank b s a)⟩
  · have hx := bankTransitionDone_waking hp
    by_cases hg : (bank s b).goal = 2
    · obtain ⟨hpw, hc, -⟩ := endStage_settles (s := clearBank b s) (b := b) (p := .on) hdue
        ((bank s b).stageWall + 2000 * usTicks / 1000) 8192 (.inl ⟨rfl, hr⟩)
      exact ⟨_, hx.trans (if_pos hg), hpw, hc, fun h1 => absurd (h1.symm.trans hg) (by decide)⟩
    · obtain ⟨hpw, hc, hm⟩ := endStage_settles (b := b) (p := .on) hdue ((bank s b).stageWall + 500 * usTicks / 1000) 0
        (.inl ⟨rfl, hr⟩)
      exact ⟨_, hx.trans (if_neg hg), hpw, hc, fun _ => hm⟩

end

/-!
## Transfers: the completion of STASH.CLAIM and of LNK.WRITE (R96, R98, R324)
-/

namespace Sys2Proof.Machine

/-! ### The update of a pennant (R244, R245) -/

/-- An addition that no other update of its AC meets, and that does not saturate. -/
theorem pennant_updatePennant_add {s : State} {p v : Nat} (hu : ∀ u ∈ s.syn.upds, u.p ≠ p) (hlt : pennant s p + v < 2 ^ 32)
    (cls : Nat) (cause : Cause) : pennant (updatePennant cls p 0 v cause s) p = pennant s p + v := by
  have hnone : (acUpds s).filter (fun u => decide (u.p = p)) = [] := List.filter_eq_nil_iff.2 fun u hmem => by
    unfold acUpds at hmem
    split at hmem
    · simpa using hu u hmem
    · cases hmem
  have hcount : updCount (pennant s p) 0 v = (pennant s p + v, none) := if_neg (Nat.not_le.2 hlt)
  unfold updatePennant
  rw [hnone, pennant_setPennant_same]
  exact congrArg Prod.fst hcount

theorem pennant_raise (cls p op v : Nat) (cause : Cause) (s : State) (x : Nat) :
    pennant (raise cls p op v cause s) x = pennant (updatePennant cls p op v cause s) x := by
  unfold raise
  dsimp only
  split <;> rfl

/-- The addition that ends a transfer (R183, R244). -/
theorem pennant_raise_add {s u : State} {p v : Nat} (hs : u.syn = s.syn) (hun : Untouched s p) (hlt : pennant s p + v < 2 ^ 32)
    (cls : Nat) (cause : Cause) : pennant (raise cls p 0 v cause u) p = pennant s p + v := by
  have hp : pennant u p = pennant s p := by unfold pennant; rw [hs]
  rw [pennant_raise, pennant_updatePennant_add (by rw [hs]; exact hun.noUpd) (by rw [hp]; exact hlt), hp]

/-! ### Transfers that end -/

/-- The end of a transfer reaches the transfers, and the blocks that its writer was sealing. -/
@[simp] theorem dropJob_rest (id : Nat) (s : State) : (dropJob id s).mem = s.mem ∧ (dropJob id s).ctxs = s.ctxs ∧
    (dropJob id s).syn = s.syn ∧ (dropJob id s).ec = s.ec ∧ (dropJob id s).stash = s.stash ∧
    (dropJob id s).xfer = { s.xfer with jobs := s.xfer.jobs.filter (fun j => decide (j.id ≠ id)) } := by
  unfold dropJob
  dsimp only
  split <;> simp [endWriter]

/-- The record of a command that retires reaches the trace alone. -/
@[simp] theorem traceDone_rest (j : Job) (s : State) : (traceDone j s).mem = s.mem ∧ (traceDone j s).ctxs = s.ctxs ∧
    (traceDone j s).syn = s.syn ∧ (traceDone j s).ec = s.ec ∧ (traceDone j s).xfer = s.xfer ∧ (traceDone j s).lnk = s.lnk := by
  unfold traceDone
  split <;> simp

theorem findJob_single {s : State} {j : Job} (h : s.xfer.jobs = [j]) : findJob s j.id = some j := by simp [findJob, h]

/-- A transfer whose bytes have all been accepted goes on by its kind alone. -/
theorem flushLate_none {s : State} {id : Nat} (h : ∀ w ∈ s.xfer.late, w.job ≠ id) : flushLate id s = s := by
  rw [flushLate, List.filter_eq_nil_iff.2 fun w hw => by simp [h w hw]]
  rfl

/-- A STASH.CLAIM has written its register; its pennant has still to rise (R96). -/
def claimShown (j : Job) (s : State) : State :=
  traceDone j (modCtx (dropJob j.id s) (ctxOf j.ctx) (landAreg (ac s) 4 (stAreg j.words)
    (BitVec.ofNat 64 (slotAddr (stashOf s j.ctx) (stLayer j.words)))))

/-- A STASH.CLAIM that has not faulted shows its slot and raises its pennant (R96, R98). -/
theorem completeStash_claim {j : Job} (hf : j.faulted = false) (hk : j.kind = .claim) (hop : wd j.words 0 % 256 = 0x35)
    (s : State) : completeStash j s = raise 4 j.pennant 0 1 j.blame (claimShown j s) := by
  have hac : ac (dropJob j.id s) = ac s := congrArg (· / 2) (by simp)
  have hst : stashOf (dropJob j.id s) j.ctx = stashOf s j.ctx := by unfold stashOf; simp
  simp [completeStash, claimShown, hf, hk, hop, hac, hst]

/-- An LNK.WRITE is complete at its scope; its pennant has still to rise (R324). -/
def lnkWriteShown (j : Job) (s : State) : State := traceDone j (modJob j.id (fun k => { k with landed := true }) s)

/-- No packet of a command waits to be sent again: none is given up. -/
theorem giveUpResends_none {j : Job} {s : State} (h : ∀ o ∈ (port s j.port).outW, o.job = j.id → o.due = false) :
    giveUpResends j s = s := by
  rw [giveUpResends, List.filter_eq_nil_iff.2 fun o ho => by simpa using h o ho]
  rfl

/-- A command with packets still to be answered is not forgotten (R332). -/
theorem forgetLnk_pending {id : Nat} {s : State} {j : Job} (hj : findJob s id = some j) (h : j.acks ≠ 0) : forgetLnk id s = s := by
  simp [forgetLnk, hj, h]

/-- An LNK.WRITE whose scope waits for no answer raises its pennant once its packets are sent, and stays until they are
answered (R276, R324, R332). -/
theorem completeLnkWrite_sent {s : State} {j : Job} (hj : s.xfer.jobs = [j]) (hf : j.faulted = false)
    (hland : j.landed = false) (hheld : j.withheld = false) (hsent : lnkSent j = true) (hwait : waitsAck s j = false)
    (hacks : j.acks ≠ 0) (hincr : j.incr ≠ 0) (hres : ∀ o ∈ (port s j.port).outW, o.job = j.id → o.due = false) :
    completeLnkWrite j s = raise 4 j.pennant 0 j.incr j.blame (lnkWriteShown j s) := by
  have hraise : raiseJob j (modJob j.id (fun k => { k with landed := true }) s) =
      raise 4 j.pennant 0 j.incr j.blame (lnkWriteShown j s) := by
    rw [raiseJob, if_neg (by simp [hheld, hf]), if_neg hincr]
    rfl
  have hgive : giveUpResends j (raise 4 j.pennant 0 j.incr j.blame (lnkWriteShown j s)) =
      raise 4 j.pennant 0 j.incr j.blame (lnkWriteShown j s) :=
    giveUpResends_none (by simpa [port, lnkWriteShown, modJob] using hres)
  have hfind : findJob (raise 4 j.pennant 0 j.incr j.blame (lnkWriteShown j s)) j.id = some { j with landed := true } := by
    simp [findJob, lnkWriteShown, modJob, hj]
  rw [completeLnkWrite, if_neg (by simp [hland, hf, hsent, hwait]), hraise, hgive, forgetLnk_pending hfind hacks]

/-- A transfer that has nothing still to be accepted completes by its kind (log 66). -/
theorem execAsyncCommandComplete_claim {s : State} {j : Job} (hj : s.xfer.jobs = [j]) (hlate : ∀ w ∈ s.xfer.late, w.job ≠ j.id)
    (hk : j.kind = .claim) : execAsyncCommandComplete j.id s = .next (completeStash j s) := by
  rw [execAsyncCommandComplete, flushLate_none hlate, findJob_single hj]
  simp only [hk]

theorem execAsyncCommandComplete_lnkWrite {s : State} {j : Job} (hj : s.xfer.jobs = [j])
    (hlate : ∀ w ∈ s.xfer.late, w.job ≠ j.id) (hk : j.kind = .lnkWrite) :
    execAsyncCommandComplete j.id s = .next (completeLnkWrite j s) := by
  rw [execAsyncCommandComplete, flushLate_none hlate, findJob_single hj]
  simp only [hk]

end Sys2Proof.Machine

section
open Sys2Proof Sys2Proof.Machine Host

/-- Settles O34: what a STASH.CLAIM or an LNK.WRITE shows at its completion leaves its pennant alone, which then rises by an
addition that meets no other. -/
theorem asyncCommandsComplete : Obligations.AsyncCommandsComplete := by
  intro s j hj hlate hun hf
  refine ⟨fun hk hop hlt => ?_, fun hk hsent hland hwait hacks hheld hincr hres hlt => ?_⟩
  · have hx := execAsyncCommandComplete_claim hj hlate hk
    rw [completeStash_claim hf hk hop] at hx
    have hctxs : (raise 4 j.pennant 0 1 j.blame (claimShown j s)).ctxs = (modCtx s (ctxOf j.ctx) (landAreg (ac s) 4
        (stAreg j.words) (BitVec.ofNat 64 (slotAddr (stashOf s j.ctx) (stLayer j.words))))).ctxs := by
      simp [claimShown, modCtx]
    have hac : ac (raise 4 j.pennant 0 1 j.blame (claimShown j s)) = ac s := congrArg (· / 2) (by simp [claimShown])
    refine ⟨_, hx, by simp [claimShown, hj], pennant_raise_add (by simp [claimShown]) hun hlt .., ?_, fun c hc => ?_,
      by simp [claimShown]⟩
    · rw [hac, ctx_congr _ hctxs, ctx_modCtx_same]
    · rw [ctx_congr _ hctxs, ctx_modCtx_ne _ _ _ _ hc]
  · have hx := execAsyncCommandComplete_lnkWrite hj hlate hk
    rw [completeLnkWrite_sent hj hf hland hheld hsent hwait hacks hincr hres] at hx
    exact ⟨_, hx, by simp [lnkWriteShown, modJob, hj], pennant_raise_add (by simp [lnkWriteShown]) hun hlt ..,
      by simp [lnkWriteShown], by simp [lnkWriteShown]⟩

end

/-!
## Transfers: how a command of the XDMA or LNK queue becomes one (R272, R299, R323)
-/

namespace Sys2Proof.Machine

/-! ### The start in its order -/

theorem exec_engineCommandStart_xdma {s : State} {e : QEnt} {rest : List QEnt} (hq : queue s .xdma = e :: rest) :
    exec (.engineCommandStart .xdma) s = .next (startXdma e s) := by
  show Host.Outcome.next (startHead .xdma s) = _
  rw [startHead, hq]

theorem exec_engineCommandStart_lnk {s : State} {e : QEnt} {rest : List QEnt} (hq : queue s .lnk = e :: rest) :
    exec (.engineCommandStart .lnk) s = .next (startLnk e s) := by
  show Host.Outcome.next (startHead .lnk s) = _
  rw [startHead, hq]

/-- A command of an asynchronous engine starts once nothing timed is due before it (R272). -/
theorem startInOrder_due {a : Nat} {s : State} (hset : settledAc s a = true) (hdue : startDue s a = false) (f : State → State) :
    startInOrder a f s = f (advance (2 * a) s) := by
  rw [startInOrder, hdue, if_neg (by decide), startAt_due hset]

/-! ### A command becomes a transfer -/

/-- The command that a transfer carries out: its number, kind, context, words and class, its pennant, increment and combine code. -/
def Job.cmd (j : Job) : Nat × JKind × Nat × List Nat × Nat × Nat × Nat × Nat :=
  (j.id, j.kind, j.ctx, j.words, j.prio, j.pennant, j.incr, j.comb)

/-- A head has become the only transfer, and has left its queue (R299, R323); the bytes of core memory and the running commands stay. -/
structure Begins (q : QName) (j : Job) (s t : State) : Prop where
  head : queue t q = (queue s q).tail
  other : ∀ p, p ≠ q → queue t p = queue s p
  runs : t.runs = s.runs
  mem : t.mem = s.mem
  jobs : ∃ k, t.xfer.jobs = [k] ∧ k.cmd = j.cmd

/-- What a transfer does as it goes on: queues, running commands and bytes stay, and it carries out the same command. -/
structure GoesOn (j : Job) (s t : State) : Prop where
  queues : t.queues = s.queues
  runs : t.runs = s.runs
  mem : t.mem = s.mem
  jobs : ∃ k, t.xfer.jobs = [k] ∧ k.cmd = j.cmd

theorem Begins.goesOn {q : QName} {j : Job} {s t u : State} (h : Begins q j s t) (h' : GoesOn j t u) : Begins q j s u where
  head := (queue_congr t h'.queues q).trans h.head
  other p hp := (queue_congr t h'.queues p).trans (h.other p hp)
  runs := h'.runs.trans h.runs
  mem := h'.mem.trans h.mem
  jobs := h'.jobs

/-- What a start of a transfer leaves but for its queue, the transfers and the trace. -/
@[simp] theorem beginJob_rest (q : QName) (e : QEnt) (f : Nat → Job) (s : State) :
    (beginJob q e f s).mem = s.mem ∧ (beginJob q e f s).ctxs = s.ctxs ∧ (beginJob q e f s).runs = s.runs ∧
    (beginJob q e f s).grade = s.grade ∧ (beginJob q e f s).cm = s.cm ∧ (beginJob q e f s).banks = s.banks ∧
    (beginJob q e f s).ecc = s.ecc ∧ (beginJob q e f s).xmu = s.xmu ∧ (beginJob q e f s).lnk = s.lnk ∧
    (beginJob q e f s).rsl = s.rsl ∧ (beginJob q e f s).stash = s.stash ∧
    (beginJob q e f s).xfer.jobs = s.xfer.jobs ++ [f s.xfer.nextJob] := by
  simp [beginJob, addJob, popQueue]

theorem beginJob_begins (q : QName) (e : QEnt) (f : Nat → Job) {s : State} (h : s.xfer.jobs = []) :
    Begins q (f s.xfer.nextJob) s (beginJob q e f s) where
  head := (queue_congr (popQueue q s) rfl q).trans (queue_popQueue_same q s)
  other p hp := (queue_congr (popQueue q s) rfl p).trans (queue_popQueue_ne hp s)
  runs := by simp
  mem := by simp
  jobs := ⟨_, by simp [h], rfl⟩

/-- A head that faults leaves its queue, and its context stops; bytes stay (R33, R198). -/
theorem startFault_stops {s : State} {q : QName} {e : QEnt} (hst : (ctx s e.ctx).stopping = false)
    (hrun : (ctx s e.ctx).cstate = .running) (code : Nat) (detail : List Nat) :
    queue (startFault q e code detail s) q = (queue s q).tail ∧ (startFault q e code detail s).mem = s.mem ∧
      (ctx (startFault q e code detail s) e.ctx).stopping = true ∧ (ctx (startFault q e code detail s) e.ctx).faultCode = code := by
  have hc : ctx (popQueue q s) e.ctx = ctx s e.ctx := ctx_congr _ (by simp [popQueue]) _
  have hf := ctx_faultCtx (popQueue q s) e.ctx code 3 e.tag detail (by rw [hc, hst]) (by rw [hc, hrun]; nofun)
  refine ⟨(queue_congr (popQueue q s) (by simp [startFault, streamFault]) q).trans (queue_popQueue_same q s),
    by simp [startFault, streamFault, popQueue], congrArg CtxSt.stopping hf, congrArg CtxSt.faultCode hf⟩

/-! ### What does not depend on the time -/

theorem badRange_congr {s t : State} (hg : t.grade = s.grade) (hc : t.cm = s.cm) (c : Ctx) (rs : List Range) :
    badRange t c rs = badRange s c rs := by
  unfold badRange
  rw [show mayUse t c = mayUse s c from funext (mayUse_congr hg hc c)]

theorem xdmaFault_congr {s t : State} (hg : t.grade = s.grade) (hc : t.cm = s.cm) (hx : t.xmu = s.xmu) (c : Ctx) (prio : Nat)
    (core ext : List Range) : xdmaFault t c prio core ext = xdmaFault s c prio core ext := by
  unfold xdmaFault
  rw [badRange_congr hg hc, hx]

/-- Whether a granule can leave core memory rests on its bank's power and on its check bits (R190). -/
theorem outFault_congr {s t : State} (hg : t.grade = s.grade) (hb : ∀ b, (bank t b).pw = (bank s b).pw) (he : t.ecc = s.ecc)
    (g : Nat) : outFault t g = outFault s g := by
  have hopen : ∀ b, bankOpen t b = bankOpen s b := fun b => by unfold bankOpen; rw [hb]
  have hue : granUncorrectable t g = granUncorrectable s g := by unfold granUncorrectable eccMark; rw [he]
  unfold outFault
  rw [bankBytes_congr hg, hg, hopen, hue]

end Sys2Proof.Machine

/-!
## Transfers: the requests that a read makes at its start (R294, R297, R299, R304, R306)
-/

namespace Sys2Proof.Machine

/-! ### Which transfer requests next -/

theorem candidate_some {s : State} {c : Option Nat} {prio : Nat} {k : Job} (h : candidate s c prio = some k) :
    k ∈ s.xfer.jobs ∧ canRequest s k = true := by
  have hp := List.find?_some h
  simp only [Bool.and_eq_true] at hp
  exact ⟨List.mem_of_find?_eq_some h, hp.1.2⟩

/-- The lower class that a channel owes accesses to is one of those that wait. -/
theorem owedTo_some {s : State} {c : Nat} {bulk bg : Option Job} {k : Job} (h : owedTo s c bulk bg = some k) :
    bulk = some k ∨ bg = some k := by
  unfold owedTo at h
  extract_lets x nb ng at h
  split at h
  · cases h
  · split at h
    · exact .inl h
    · exact .inr h

/-- The transfer that requests in the turn of another: one of a lower class that its channel owes accesses to, or itself (R306). -/
def requesterFor (s : State) (j : Job) : Option Job :=
  match nextChan s j with
  | none => some j
  | some c =>
    (owedTo s c (if j.prio = 0 then candidate s (some c) 1 else none) (candidate s (some c) 2)).orElse (fun _ => some j)

theorem requesterFor_some {s : State} {j k : Job} (hj : j ∈ s.xfer.jobs ∧ canRequest s j = true) (h : requesterFor s j = some k) :
    k ∈ s.xfer.jobs ∧ canRequest s k = true := by
  unfold requesterFor at h
  split at h
  · exact Option.some.inj h ▸ hj
  · rename_i c _
    cases ho : owedTo s c (if j.prio = 0 then candidate s (some c) 1 else none) (candidate s (some c) 2) with
    | none =>
      rw [ho] at h
      exact Option.some.inj h ▸ hj
    | some i =>
      rw [ho] at h
      obtain rfl : i = k := Option.some.inj h
      obtain hb | hg := owedTo_some ho
      · split at hb
        · exact candidate_some hb
        · cases hb
      · exact candidate_some hg

/-- The transfer that requests next is one that can. -/
theorem nextJob_some {s : State} {k : Job} (h : nextJob s = some k) : k ∈ s.xfer.jobs ∧ canRequest s k = true := by
  unfold nextJob at h
  dsimp only at h
  split at h
  · exact requesterFor_some (candidate_some ‹_›) h
  · exact requesterFor_some (candidate_some ‹_›) h
  · exact ⟨List.mem_of_find?_eq_some h, List.find?_some h⟩

/-- What every request of a transfer keeps, making requests keeps. -/
theorem pump_ind {P : State → Prop} (hstep : ∀ t k, P t → k ∈ t.xfer.jobs → canRequest t k = true → P (request k t)) (n : Nat)
    {s : State} (h : P s) : P (pump n s) := by
  induction n generalizing s with
  | zero => exact h
  | succ n ih =>
    unfold pump
    split
    · exact h
    · rename_i k hk
      obtain ⟨hmem, hcan⟩ := nextJob_some hk
      exact ih (hstep s k h hmem hcan)

/-- With nothing held and no served read, requests alone are made. -/
theorem pumpAll_eq {s : State} (hheld : NoHeldPacket s) (hserve : ∀ j ∈ s.xfer.jobs, j.kind ≠ .serve) :
    pumpAll s = pump 1024 s := by
  have hnone : ∀ n, startServes n s = s := fun n => by
    cases n with
    | zero => rfl
    | succ n =>
      have h : s.xfer.jobs.find? (canServe s) = none := List.find?_eq_none.2 fun j hj => by simp [canServe, hserve j hj]
      rw [startServes, h]
  obtain ⟨h0, h1, hfill⟩ := hheld
  have hdrain : ∀ p, (port s p).heldIn = [] → drainHeld p s = s := fun p hp => by
    unfold drainHeld
    rw [hp]
    exact hnone _
  rw [pumpAll, hfill, show flushFill _ s = s from rfl, hdrain 0 h0, hdrain 1 h1]

/-! ### A request (R297, R304, R310) -/

/-- Why a request faults: the first of a gather's row where its index cannot be read or names no good extent, any other where its
block is RETIRED. -/
def requestFault (s : State) (j : Job) (r : Req) : Option (Nat × List Nat) :=
  if j.kind = .gather ∧ j.col = 0 then
    if outFault s (idxGran j) = none then extFault s.xmu (rowBase s j) (rowLen s j) else outFault s (idxGran j)
  else if retired s.xmu r.rd.blk then some (cRETIRED, [r.rd.blk]) else none

/-- The reads of the index and of the block's entry that a request makes. -/
def requestReads (j : Job) (r : Req) (s : State) : State :=
  let u := readIdx j s
  if firstOf r.rd j && (dirEnt u.xmu r.rd.blk).upset then logDirUe r.rd.blk u else u

/-- The transfer after a request. -/
def Job.asks (s : State) (j : Job) (r : Req) (x : XmuSt) (k : Job) : Job :=
  { k with out := k.out ++ [r.rd], row := r.row, col := r.col, base := rowBase s j, chks := askChk x r.rd k.chks }

theorem request_none {j : Job} {s : State} (hr : nextReq (reachIdx j s) j = none) : request j s = reachIdx j s := by
  unfold request
  extract_lets u
  rw [hr]

theorem request_fault {j : Job} {s : State} {r : Req} {f : Nat × List Nat} (hr : nextReq (reachIdx j s) j = some r)
    (hf : requestFault (reachIdx j s) j r = some f) :
    request j s = settleJob j.id (jobFault f.1 f.2 j (readIdx j (reachIdx j s))) := by
  unfold requestFault at hf
  unfold request
  dsimp only
  rw [hr]
  dsimp only
  rw [hf]

theorem request_made {j : Job} {s : State} {r : Req} (hr : nextReq (reachIdx j s) j = some r)
    (hf : requestFault (reachIdx j s) j r = none) : request j s = modXmu (noteService (plChan r.rd.pl) j.prio) (modJob j.id
      (Job.asks (reachIdx j s) j r (requestReads j r (reachIdx j s)).xmu) (requestReads j r (reachIdx j s))) := by
  unfold requestFault at hf
  unfold request
  dsimp only
  rw [hr]
  dsimp only
  rw [hf]
  rfl

end Sys2Proof.Machine

/-!
## Transfers: an XDMA.READ whose extents are good asks for no RETIRED block (R288, R294, R296, R310)
-/

namespace Sys2Proof.Machine

/-! ### Blocks in service -/

/-- The count of a channel's accesses does not reach the directory. -/
theorem retired_noteService (c prio b : Nat) (x : XmuSt) : retired (noteService c prio x) b = retired x b := by
  have hst : ∀ d, (chan (noteService c prio x) d).st = (chan x d).st := fun d => by
    unfold noteService chan modChan
    dsimp only
    rw [SMap.get_mod]
    split
    · rename_i h
      subst h
      split <;> rfl
    · rfl
  have hdef : dirDefault (noteService c prio x) b = dirDefault x b := by
    unfold dirDefault mappedOut
    rw [hst]
    rfl
  unfold retired dirEnt
  rw [hdef]
  rfl

theorem installed_le (x : XmuSt) : installed x ≤ 2 ^ 19 := by
  unfold installed
  repeat' split
  all_goals decide

/-- Every block of a good extent is in service (R288); no address of it wraps. -/
theorem extFault_inService {x : XmuSt} {a n o : Nat} (h : extFault x a n = none) (ho : o < n) :
    retired x ((a + o) % 2 ^ 34 / 16384) = false := by
  unfold extFault at h
  split at h
  · cases h
  · rename_i hcap
    split at h
    · cases h
    · rename_i hnone
      have hle := installed_le x
      have hmod : (a + o) % 2 ^ 34 = a + o := Nat.mod_eq_of_lt (by omega)
      have hi := List.find?_eq_none.1 hnone ((a + o) / 16384 - a / 16384) (List.mem_range.2 (by omega))
      rw [Nat.add_sub_cancel' (Nat.div_le_div_right (by omega))] at hi
      rw [hmod]
      simpa using hi

/-! ### What a request leaves -/

/-- What the reads of a request leave: bytes, contexts, queues, running commands, transfers, and external memory. -/
structure RequestKept (s t : State) : Prop where
  mem : t.mem = s.mem
  ctxs : t.ctxs = s.ctxs
  queues : t.queues = s.queues
  runs : t.runs = s.runs
  xfer : t.xfer = s.xfer
  xmu : t.xmu = s.xmu

theorem RequestKept.refl (s : State) : RequestKept s s := ⟨rfl, rfl, rfl, rfl, rfl, rfl⟩

theorem noteRead_requestKept (g : Nat) (s : State) : RequestKept s (noteRead s g) :=
  noteRead_ind s g (P := RequestKept s) (.refl s) fun _ _ => ⟨rfl, rfl, rfl, rfl, rfl, rfl⟩

theorem readIdx_requestKept (j : Job) (s : State) : RequestKept s (readIdx j s) := by
  unfold readIdx
  split
  · exact noteRead_requestKept ..
  · exact .refl s

theorem requestReads_requestKept (j : Job) (r : Req) (s : State) : RequestKept s (requestReads j r s) := by
  obtain ⟨hm, hc, hq, hr, hx, hu⟩ := readIdx_requestKept j s
  unfold requestReads
  dsimp only
  split
  · exact ⟨by simp [logDirUe, hm], by simp [logDirUe, hc], by simp [logDirUe, hq], by simp [logDirUe, hr],
      by simp [logDirUe, hx], by simp [logDirUe, hu]⟩
  · exact ⟨hm, hc, hq, hr, hx, hu⟩

theorem blk_askChk {x : XmuSt} {rd : Rd} {l : List Chk} {c : Chk} (h : c ∈ askChk x rd l) : c.blk = rd.blk ∨ ∃ d ∈ l, c.blk = d.blk := by
  unfold askChk at h
  dsimp only at h
  split at h
  · obtain ⟨d, hd, rfl⟩ := List.mem_map.1 h
    exact .inr ⟨d, hd, by split <;> rfl⟩
  · obtain hc | hc := List.mem_append.1 h
    · exact .inr ⟨c, hc, rfl⟩
    · obtain rfl := List.mem_singleton.1 hc
      exact .inl rfl

/-! ### The requests of a read -/

/-- The next request of a read lies in its present row, or is for a block that it has asked for. -/
theorem nextReq_read {s : State} {j : Job} {r : Req} (hk : j.kind = .read) (hcol : j.col < rowLen s j)
    (h : nextReq s j = some r) : r.col < rowLen s j ∧
      (j.row < rowsOfJob j ∧ r.rd.blk = (rowExt s j j.row + j.col) % 2 ^ 34 / 16384 ∨ ∃ c ∈ j.chks, r.rd.blk = c.blk) := by
  have hbase : rowBase s j = rowExt s j j.row := if_neg (by simp [hk])
  unfold nextReq at h
  split at h
  · cases h
  · split at h
    · rename_i hrow
      extract_lets len base a whole narrow n rd at h
      have hn : n ≤ len - j.col := Nat.min_le_right ..
      have hblk : rd.blk = (rowExt s j j.row + j.col) % 2 ^ 34 / 16384 := by rw [← hbase]
      split at h
      · obtain rfl := Option.some.inj h
        exact ⟨Nat.zero_lt_of_lt hcol, .inl ⟨hrow, hblk⟩⟩
      · rename_i hne
        obtain rfl := Option.some.inj h
        have hlen : j.col < len := hcol
        exact ⟨show j.col + n < len by omega, .inl ⟨hrow, hblk⟩⟩
    · split at h
      · split at h
        · cases h
        · rename_i c hc
          split at h
          · cases h
          · obtain rfl := Option.some.inj h
            exact ⟨hcol, .inr ⟨c, List.mem_of_find?_eq_some hc, rfl⟩⟩
      · cases h

/-- An XDMA.READ as it makes its requests: contexts stay, and every block that it has asked for is in service. -/
structure ReadGoesOn (j : Job) (s t : State) : Prop where
  queues : t.queues = s.queues
  runs : t.runs = s.runs
  mem : t.mem = s.mem
  ctxs : t.ctxs = s.ctxs
  inService : ∀ b, retired t.xmu b = retired s.xmu b
  jobs : ∃ k, t.xfer.jobs = [k] ∧ k = { j with row := k.row, col := k.col, base := k.base, out := k.out, chks := k.chks } ∧
    k.col < rowLen s j ∧ ∀ c ∈ k.chks, retired s.xmu c.blk = false

theorem ReadGoesOn.goesOn {j : Job} {s t : State} (h : ReadGoesOn j s t) : GoesOn j s t where
  queues := h.queues
  runs := h.runs
  mem := h.mem
  jobs := by
    obtain ⟨k, hk, hfr, -⟩ := h.jobs
    exact ⟨k, hk, by rw [hfr]; rfl⟩

section
variable {j : Job} {s t : State} (hk : j.kind = .read)
  (hext : ∀ i, i < rowsOfJob j → extFault s.xmu (rowExt s j i) (rowLen s j) = none)
include hk hext

theorem ReadGoesOn.request {k : Job} (h : ReadGoesOn j s t) (hmem : k ∈ t.xfer.jobs) : ReadGoesOn j s (request k t) := by
  obtain ⟨k', hjobs, hfr, hcol, hchks⟩ := h.jobs
  obtain rfl : k = k' := by simpa [hjobs] using hmem
  have hkind : k.kind = .read := by rw [hfr]; exact hk
  have hwords : k.words = j.words := by rw [hfr]
  have hlen : rowLen t k = rowLen s j := by simp only [rowLen, hkind, hk, hwords]
  have hrows : rowsOfJob k = rowsOfJob j := by simp only [rowsOfJob, hkind, hk, hwords]
  have hrowext : ∀ i, rowExt t k i = rowExt s j i := fun i => by simp only [rowExt, hkind, hk, hwords]
  have hreach : reachIdx k t = t := if_neg (by simp [hkind])
  cases hr : nextReq t k with
  | none => rw [request_none (by rw [hreach, hr]), hreach]; exact h
  | some r =>
    obtain ⟨hrcol, hblk⟩ := nextReq_read hkind (by rw [hlen]; exact hcol) hr
    have hserve : retired s.xmu r.rd.blk = false := by
      obtain ⟨hrow, hblk⟩ | ⟨c, hc, hblk⟩ := hblk
      · rw [hblk, hrowext]
        exact extFault_inService (hext _ (hrows ▸ hrow)) hcol
      · rw [hblk]
        exact hchks c hc
    have hf : requestFault t k r = none := by simp [requestFault, hkind, h.inService, hserve]
    rw [request_made (by rw [hreach, hr]) (by rw [hreach, hf]), hreach]
    obtain ⟨hm, hc, hq, hru, hx, hu⟩ := requestReads_requestKept k r t
    exact {
      queues := hq.trans h.queues
      runs := hru.trans h.runs
      mem := hm.trans h.mem
      ctxs := hc.trans h.ctxs
      inService := fun b => (retired_noteService ..).trans (by rw [← h.inService b]; exact congrArg (retired · b) hu)
      jobs := by
        refine ⟨Job.asks t k r (requestReads k r t).xmu k, ?_, ?_, ?_, fun c hc => ?_⟩
        · simp [modXmu, modJob, hx, hjobs]
        · rw [hfr]; rfl
        · rw [← hlen]; exact hrcol
        · obtain h1 | ⟨d, hd, h1⟩ := blk_askChk hc
          · rw [h1]; exact hserve
          · rw [h1]; exact hchks d hd }

/-- An XDMA.READ goes on without a fault. -/
theorem ReadGoesOn.pump (h : ReadGoesOn j s t) (n : Nat) : ReadGoesOn j s (pump n t) :=
  pump_ind (P := ReadGoesOn j s) (fun _ _ hu hmem _ => hu.request hk hext hmem) n h

end

end Sys2Proof.Machine

/-!
## Transfers: a gather's index and the granules that shared-memory writes take from core memory (R190, R222, R297, R418)
-/

namespace Sys2Proof.Machine

/-! ### Reads out of core memory (R21) -/

/-- What a read out of core memory leaves: all but time and what comes due with it. -/
structure ReachKept (s t : State) : Prop where
  grade : t.grade = s.grade
  mem : t.mem = s.mem
  queues : t.queues = s.queues
  runs : t.runs = s.runs
  xfer : t.xfer = s.xfer
  xmu : t.xmu = s.xmu
  banks : t.banks = s.banks
  ecc : t.ecc = s.ecc

theorem ReachKept.refl (s : State) : ReachKept s s := ⟨rfl, rfl, rfl, rfl, rfl, rfl, rfl, rfl⟩

theorem ReachKept.trans {s t u : State} (h : ReachKept s t) (h' : ReachKept t u) : ReachKept s u :=
  ⟨h'.grade.trans h.grade, h'.mem.trans h.mem, h'.queues.trans h.queues, h'.runs.trans h.runs, h'.xfer.trans h.xfer,
    h'.xmu.trans h.xmu, h'.banks.trans h.banks, h'.ecc.trans h.ecc⟩

theorem advance_reachKept (e : Nat) (s : State) : ReachKept s (advance e s) :=
  ⟨by simp, by simp, by simp, by simp, by simp, by simp, by simp, by simp⟩

theorem takeSlots_reachKept (owner : Nat) (gs : List Nat) (s : State) : ReachKept s (takeSlots owner gs s) := by
  have key : ∀ p : Nat × State, ReachKept s p.2 → ReachKept s
      (gs.foldl (fun (p : Nat × State) g => let x := takeSlot owner p.2 g; (Nat.max p.1 x.1, x.2)) p).2 := by
    induction gs with
    | nil => exact fun _ h => h
    | cons g gs ih => exact fun p h => ih _ (h.trans (u := (takeSlot owner p.2 g).2) ⟨rfl, rfl, rfl, rfl, rfl, rfl, rfl, rfl⟩)
  exact (key (s.ec, s) (.refl s)).trans (advance_reachKept ..)

/-- With no timed command running no write is still to come. -/
theorem settleGran_noRuns {s : State} (h : s.runs = []) (t g : Nat) : settleGran t g s = s := by
  rw [settleGran, touchFuel, h]
  rfl

theorem reachRead_reachKept {s : State} (h : s.runs = []) (owner : Nat) (gs : List Nat) : ReachKept s (reachRead owner gs s) := by
  have hk := takeSlots_reachKept owner gs s
  have key : ∀ (gs : List Nat) (u : State), u.runs = [] →
      gs.foldl (fun s g => settleGran (if g < bankBytes s then s.ec else s.ec - 1) g s) u = u := by
    intro gs
    induction gs with
    | nil => exact fun _ _ => rfl
    | cons g gs ih => intro u hu; rw [List.foldl_cons, settleGran_noRuns hu, ih u hu]
  unfold reachRead
  dsimp only
  rw [key gs _ (hk.runs.trans h)]
  exact hk

theorem reachIdx_reachKept {s : State} (h : s.runs = []) (j : Job) : ReachKept s (reachIdx j s) := by
  unfold reachIdx
  split
  · exact reachRead_reachKept h ..
  · exact .refl s

/-- Whether a granule can leave core memory does not change with reads out of it. -/
theorem ReachKept.outFault {s t : State} (h : ReachKept s t) (g : Nat) : outFault t g = outFault s g :=
  outFault_congr h.grade (fun b => by unfold bank; rw [h.banks]) h.ecc g

/-! ### The requests of a gather (R297) -/

/-- A transfer after a fault with a code: it carries out the same command, and what is on its way stays so (R219, R295). -/
def Job.fails (code : Nat) (k : Job) : Job :=
  { k with
    faulted := true, withheld := true
    halted := k.halted || !(decide (code = cBLOCK_CRC) && k.kind.landsOn)
    status := if k.status ≠ 0 then k.status else if k.kind = .copy then code else codeStatus code }

theorem jobFault_rest (code : Nat) (detail : List Nat) (j : Job) (s : State) : (jobFault code detail j s).mem = s.mem ∧
    (jobFault code detail j s).queues = s.queues ∧ (jobFault code detail j s).runs = s.runs ∧
    (jobFault code detail j s).xfer = (modJob j.id (Job.fails code) s).xfer := by
  unfold jobFault
  dsimp only
  split
  · exact ⟨by simp [streamFault], by simp [streamFault], by simp [streamFault],
      by rw [streamFault_frame]; rfl⟩
  · exact ⟨by simp, by simp, by simp, by rw [advise_frame]; rfl⟩

/-- A transfer with reads on their way is not over. -/
theorem settleJob_reading {s : State} {id : Nat} {k : Job} (h : findJob s id = some k) (hout : k.out ≠ []) : settleJob id s = s := by
  have hidle : jobIdle s k = false := by simp [jobIdle, hout]
  rw [settleJob, h]
  simp only [hidle, if_true]

/-- A transfer goes on, with reads on their way. -/
def Reading (j : Job) (s t : State) : Prop :=
  t.queues = s.queues ∧ t.runs = s.runs ∧ t.mem = s.mem ∧ ∃ k, t.xfer.jobs = [k] ∧ k.cmd = j.cmd ∧ k.out ≠ []

/-- A request that is made is on its way. -/
theorem reading_of_made {j k : Job} {s t : State} {r : Req} (hkept : ReachKept t (reachIdx k t))
    (hs : t.queues = s.queues ∧ t.runs = s.runs ∧ t.mem = s.mem) (hjobs : t.xfer.jobs = [k]) (hcmd : k.cmd = j.cmd)
    (hr : nextReq (reachIdx k t) k = some r) (hf : requestFault (reachIdx k t) k r = none) : Reading j s (request k t) := by
  obtain ⟨hq, hru, hm⟩ := hs
  have hreads := requestReads_requestKept k r (reachIdx k t)
  rw [request_made hr hf]
  refine ⟨hreads.queues.trans (hkept.queues.trans hq), hreads.runs.trans (hkept.runs.trans hru),
    hreads.mem.trans (hkept.mem.trans hm),
    Job.asks (reachIdx k t) k r (requestReads k r (reachIdx k t)).xmu k, ?_, hcmd, List.append_ne_nil_of_right_ne_nil _ (by simp)⟩
  simp [modXmu, modJob, hreads.xfer, hkept.xfer, hjobs]

/-- A fault of a transfer with reads on their way does not end it. -/
theorem Reading.request {j k : Job} {s t : State} (hruns : s.runs = []) (h : Reading j s t) (hmem : k ∈ t.xfer.jobs) :
    Reading j s (request k t) := by
  obtain ⟨hq, hru, hm, k', hjobs, hcmd, hout⟩ := h
  obtain rfl : k = k' := by simpa [hjobs] using hmem
  have hkept := reachIdx_reachKept (hru.trans hruns) k
  cases hr : nextReq (reachIdx k t) k with
  | none =>
    rw [request_none hr]
    exact ⟨hkept.queues.trans hq, hkept.runs.trans hru, hkept.mem.trans hm, k, by rw [hkept.xfer, hjobs], hcmd, hout⟩
  | some r =>
    cases hf : requestFault (reachIdx k t) k r with
    | none => exact reading_of_made hkept ⟨hq, hru, hm⟩ hjobs hcmd hr hf
    | some f =>
      have hread := readIdx_requestKept k (reachIdx k t)
      obtain ⟨hfm, hfq, hfr, hfx⟩ := jobFault_rest f.1 f.2 k (readIdx k (reachIdx k t))
      have hfjobs : (jobFault f.1 f.2 k (readIdx k (reachIdx k t))).xfer.jobs = [k.fails f.1] := by
        rw [hfx]
        simp [modJob, hread.xfer, hkept.xfer, hjobs]
      have hfind : findJob (jobFault f.1 f.2 k (readIdx k (reachIdx k t))) k.id = some (k.fails f.1) := by
        simp [findJob, hfjobs, Job.fails]
      rw [request_fault hr hf, settleJob_reading hfind hout]
      exact ⟨hfq.trans (hread.queues.trans (hkept.queues.trans hq)), hfr.trans (hread.runs.trans (hkept.runs.trans hru)),
        hfm.trans (hread.mem.trans (hkept.mem.trans hm)), k.fails f.1, hfjobs, hcmd, hout⟩

/-- A gather whose first index can be read and names a good extent goes on: its first request is made, and no later fault ends it
while that is on its way. -/
theorem pump_gather {j : Job} {s : State} (hruns : s.runs = []) (hjobs : s.xfer.jobs = [j]) (hk : j.kind = .gather)
    (hcol : j.col = 0) (hidx : outFault s (idxGran j) = none) (hext : extFault s.xmu (rowExt s j j.row) (rowLen s j) = none)
    (n : Nat) : GoesOn j s (pump n s) := by
  have hstep : ∀ t k, (ReachKept s t ∨ Reading j s t) → k ∈ t.xfer.jobs → (ReachKept s (request k t) ∨ Reading j s (request k t)) := by
    rintro t k (h | h) hmem
    · obtain rfl : k = j := by simpa [h.xfer, hjobs] using hmem
      have hkept := reachIdx_reachKept (h.runs.trans hruns) k
      have hall := h.trans hkept
      cases hr : nextReq (reachIdx k t) k with
      | none => exact .inl (by rw [request_none hr]; exact hall)
      | some r =>
        have hbase : rowBase (reachIdx k t) k = rowExt s k k.row := by
          rw [rowBase, if_neg (by simp [hcol])]
          simp only [rowExt, hk, readLE, readBytes, readByte, hall.mem]
        have hlen : rowLen (reachIdx k t) k = rowLen s k := by simp only [rowLen, hk]
        have hf : requestFault (reachIdx k t) k r = none := by
          rw [requestFault, if_pos ⟨hk, hcol⟩, if_pos (by rw [hall.outFault, hidx]), hbase, hlen, hall.xmu, hext]
        exact .inr (reading_of_made hkept ⟨h.queues, h.runs, h.mem⟩ (by rw [h.xfer, hjobs]) rfl hr hf)
    · exact .inr (h.request hruns hmem)
  obtain h | ⟨hq, hru, hm, k, hkjobs, hcmd, -⟩ :=
    pump_ind (P := fun t => ReachKept s t ∨ Reading j s t) (fun t k h hmem _ => hstep t k h hmem) n (.inl (.refl s))
  · exact ⟨h.queues, h.runs, h.mem, j, by rw [h.xfer, hjobs], rfl⟩
  · exact ⟨hq, hru, hm, k, hkjobs, hcmd⟩

/-! ### Shared-memory requests (R178, R222, R418) -/

/-- A transfer that makes a shared-memory request has rows left. -/
theorem smNext_some {s : State} {k : Job} (h : smNext s = some k) : k ∈ s.xfer.jobs ∧ k.row < rowsOfJob k := by
  have hp := List.find?_some h
  simp only [Bool.and_eq_true, decide_eq_true_eq] at hp
  exact ⟨List.mem_of_find?_eq_some h, hp.1.1.2⟩

/-- What every shared-memory request keeps, making them keeps. -/
theorem pumpSm_ind {P : State → Prop} (hstep : ∀ t k, P t → k ∈ t.xfer.jobs → k.row < rowsOfJob k → P (smRequest k t)) (n : Nat)
    {s : State} (h : P s) : P (pumpSm n s) := by
  induction n generalizing s with
  | zero => exact h
  | succ n ih =>
    unfold pumpSm
    split
    · exact h
    · rename_i k hk
      obtain ⟨hmem, hrow⟩ := smNext_some hk
      exact ih (hstep s k h hmem hrow)

/-- A read of a granule counts its errors, and leaves the power of every bank. -/
theorem noteRead_power (g : Nat) (s : State) : (noteRead s g).grade = s.grade ∧ (noteRead s g).ecc = s.ecc ∧
    ∀ b, (bank (noteRead s g) b).pw = (bank s b).pw := by
  generalize hf : noteRead = f
  delta noteRead at hf
  subst hf
  beta_reduce
  split
  · extract_lets +onlyGivenNames b n u
    split
    · exact ⟨rfl, rfl, fun _ => rfl⟩
    · refine ⟨rfl, rfl, fun x => ?_⟩
      by_cases hx : x = b
      · rw [hx, bank_modBank_same]
      · rw [bank_modBank_ne hx]
  · exact ⟨rfl, rfl, fun _ => rfl⟩

/-- A shared-memory transfer as it makes its requests: nothing that it reads changes. -/
structure SmGoesOn (j : Job) (s t : State) : Prop where
  queues : t.queues = s.queues
  runs : t.runs = s.runs
  mem : t.mem = s.mem
  leaves : ∀ g, outFault t g = outFault s g
  jobs : ∃ k, t.xfer.jobs = [k] ∧ k = { j with row := k.row, acks := k.acks }

theorem SmGoesOn.goesOn {j : Job} {s t : State} (h : SmGoesOn j s t) : GoesOn j s t where
  queues := h.queues
  runs := h.runs
  mem := h.mem
  jobs := by
    obtain ⟨k, hk, hfr⟩ := h.jobs
    exact ⟨k, hk, by rw [hfr]; rfl⟩

section
variable {j : Job} {s t : State} (hruns : s.runs = [])
  (hout : j.kind = .smWrite → ∀ i, i < rowsOfJob j → outFault s (wd j.words 1 + 64 * i) = none)
include hruns hout

theorem SmGoesOn.request (hk : j.kind = .smRead ∨ j.kind = .smWrite) {k : Job} (h : SmGoesOn j s t) (hmem : k ∈ t.xfer.jobs)
    (hrow : k.row < rowsOfJob k) : SmGoesOn j s (smRequest k t) := by
  obtain ⟨k', hjobs, hfr⟩ := h.jobs
  obtain rfl : k = k' := by simpa [hjobs] using hmem
  have hkind : k.kind = j.kind := by rw [hfr]
  have hwords : k.words = j.words := by rw [hfr]
  have hrows : rowsOfJob k = rowsOfJob j := by simp only [rowsOfJob, hkind, hwords]
  have hnext : ∀ n : Job → Job, (∀ x, n x = { x with row := x.row + 1, acks := x.acks + 1 }) →
      n k = { j with row := (n k).row, acks := (n k).acks } := fun n hn => by rw [hn, hfr]
  obtain hread | hwrite := hk
  · unfold smRequest
    dsimp only
    rw [if_pos (hkind.trans hread)]
    exact ⟨h.queues, h.runs, h.mem, h.leaves, _, by simp [emit, modJob, hjobs], hnext _ fun _ => rfl⟩
  · have hkept := reachRead_reachKept (h.runs.trans hruns) ownOut [wd k.words 1 + 64 * k.row]
    have hgood : outFault (reachRead ownOut [wd k.words 1 + 64 * k.row] t) (wd k.words 1 + 64 * k.row) = none := by
      rw [hkept.outFault, h.leaves, hwords]
      exact hout hwrite _ (hrows ▸ hrow)
    have hreq := noteRead_requestKept (wd k.words 1 + 64 * k.row) (reachRead ownOut [wd k.words 1 + 64 * k.row] t)
    obtain ⟨hg, he, hp⟩ := noteRead_power (wd k.words 1 + 64 * k.row) (reachRead ownOut [wd k.words 1 + 64 * k.row] t)
    unfold smRequest
    dsimp only
    rw [if_neg (by rw [hkind, hwrite]; decide), hgood]
    dsimp only
    generalize noteRead (reachRead ownOut [wd k.words 1 + 64 * k.row] t) (wd k.words 1 + 64 * k.row) = u at hreq hg he hp ⊢
    have hsame : ∀ g, outFault u g = outFault s g := fun g =>
      (outFault_congr hg hp he g).trans ((hkept.outFault g).trans (h.leaves g))
    exact ⟨hreq.queues.trans (hkept.queues.trans h.queues), hreq.runs.trans (hkept.runs.trans h.runs),
      hreq.mem.trans (hkept.mem.trans h.mem), fun g => (outFault_congr (s := u) rfl (fun _ => rfl) rfl g).trans (hsame g), _,
      by simp [emit, modJob, hreq.xfer, hkept.xfer, hjobs], hnext _ fun _ => rfl⟩

/-- A shared-memory transfer goes on without a fault. -/
theorem pumpSm_goesOn (hk : j.kind = .smRead ∨ j.kind = .smWrite) (hjobs : s.xfer.jobs = [j]) (n : Nat) : GoesOn j s (pumpSm n s) :=
  (pumpSm_ind (P := SmGoesOn j s) (fun _ _ hu hmem hrow => hu.request hruns hout hk hmem hrow) n
    ⟨rfl, rfl, rfl, fun _ => rfl, j, hjobs, rfl⟩).goesOn

end

end Sys2Proof.Machine

/-!
## Transfers: the starts of the XDMA and LNK commands (R94 to R99, R222, R296, R297, R299, R322 to R324)
-/

namespace Sys2Proof.Machine

/-! ### The head of the XDMA queue -/

/-- The start of a command of the XDMA class, by its opcode (R222, R296, R297, R94). -/
def startXdmaNow (e : QEnt) (s : State) : State :=
  match wd e.words 0 % 256 with
  | 0x30 => startRw false e s
  | 0x31 => startRw true e s
  | 0x32 => startGather e s
  | 0x33 => startSm false e s
  | 0x34 => startSm true e s
  | op => startStash op e s

/-- With 16 commands of the class in progress the head waits (R299). -/
theorem startXdma_full {s : State} (h : 16 ≤ xdmaCount s) (e : QEnt) : startXdma e s = s := if_pos h

/-- What the time before a start leaves, with nothing timed due (R272): all that the start rests on. -/
structure TimeAlone (s u : State) : Prop extends ReachKept s u where
  ctxs : u.ctxs = s.ctxs
  cm : u.cm = s.cm
  lnk : u.lnk = s.lnk
  rsl : u.rsl = s.rsl
  stash : u.stash = s.stash

theorem advance_timeAlone {s : State} (hdue : NothingDue s) (e : Nat) : TimeAlone s (advance e s) := by
  obtain ⟨k, w, x, ha, -⟩ := advance_shape hdue e
  rw [ha]
  exact ⟨⟨rfl, rfl, rfl, rfl, rfl, rfl, rfl, rfl⟩, rfl, rfl, rfl, rfl, rfl⟩

/-- With no transfer in progress a head of the XDMA class starts in its AC; until then time alone passes. -/
theorem exec_xdmaHead {s : State} {e : QEnt} {rest : List QEnt} (hq : queue s .xdma = e :: rest)
    (hset : settledAc s (readyAc s .xdma e) = true) (hstart : startDue s (readyAc s .xdma e) = false) (hdue : NothingDue s)
    (hjobs : s.xfer.jobs = []) : ∃ u, TimeAlone s u ∧ exec (.engineCommandStart .xdma) s = .next (startXdmaNow e u) := by
  refine ⟨_, advance_timeAlone hdue (2 * readyAc s .xdma e), ?_⟩
  rw [exec_engineCommandStart_xdma hq, startXdma, if_neg (by simp [xdmaCount, hjobs]), startInOrder_due hset hstart]
  rfl

/-- A head of the LNK class starts in its AC; until then time alone passes. -/
theorem exec_lnkHead {s : State} {e : QEnt} {rest : List QEnt} (hq : queue s .lnk = e :: rest)
    (hset : settledAc s (readyAc s .lnk e) = true) (hstart : startDue s (readyAc s .lnk e) = false) (hdue : NothingDue s) :
    ∃ u, TimeAlone s u ∧ exec (.engineCommandStart .lnk) s = .next (startLnkNow e u) := by
  refine ⟨_, advance_timeAlone hdue (2 * readyAc s .lnk e), ?_⟩
  rw [exec_engineCommandStart_lnk hq, startLnk, startInOrder_due hset hstart]

section
variable {s u : State} (h : TimeAlone s u)
include h

/-- The transfer takes the next number, which the time leaves. -/
theorem TimeAlone.begins {q : QName} {f : Nat → Job} {t : State} (hb : Begins q (f u.xfer.nextJob) u t) :
    Begins q (f s.xfer.nextJob) s t where
  head := by rw [hb.head, queue_congr s h.queues]
  other p hp := (hb.other p hp).trans (queue_congr s h.queues p)
  runs := hb.runs.trans h.runs
  mem := hb.mem.trans h.mem
  jobs := h.xfer ▸ hb.jobs

theorem TimeAlone.badRange_eq (c : Ctx) (rs : List Range) : badRange u c rs = badRange s c rs := badRange_congr h.grade h.cm c rs

theorem TimeAlone.xdmaFault_eq (c : Ctx) (prio : Nat) (core ext : List Range) : xdmaFault u c prio core ext = xdmaFault s c prio core ext :=
  xdmaFault_congr h.grade h.cm h.xmu c prio core ext

theorem TimeAlone.placeFault_eq (t : Stash) (l n : Nat) : placeFault u t l n = placeFault s t l n := by
  unfold placeFault
  rw [h.xmu, show outFault u = outFault s from funext h.outFault]

theorem TimeAlone.stashOf_eq (c : Nat) : stashOf u c = stashOf s c := by unfold stashOf; rw [h.stash]

theorem TimeAlone.port_eq (p : Nat) : port u p = port s p := by unfold port; rw [h.lnk]

theorem TimeAlone.noHeldPacket (hn : NoHeldPacket s) : NoHeldPacket u := by
  unfold NoHeldPacket
  rw [h.port_eq, h.port_eq, h.rsl]
  exact hn

theorem TimeAlone.noJobs (hn : s.xfer.jobs = []) : u.xfer.jobs = [] := by rw [h.xfer, hn]

/-- A head that faults after the time before its start leaves its queue, and its context stops. -/
theorem TimeAlone.stops {q : QName} {e : QEnt} {rest : List QEnt} (hq : queue s q = e :: rest)
    (hst : (ctx s e.ctx).stopping = false) (hrun : (ctx s e.ctx).cstate = .running) (code : Nat) (detail : List Nat) :
    queue (startFault q e code detail u) q = rest ∧ (startFault q e code detail u).mem = s.mem ∧
      (ctx (startFault q e code detail u) e.ctx).stopping = true ∧
      (ctx (startFault q e code detail u) e.ctx).faultCode = code := by
  have hc : ctx u e.ctx = ctx s e.ctx := ctx_congr _ h.ctxs _
  obtain ⟨hqueue, hmem, hstop, hcode⟩ := startFault_stops (q := q) (e := e) (s := u) (by rw [hc, hst]) (by rw [hc, hrun]) code detail
  exact ⟨by rw [hqueue, queue_congr s h.queues, hq]; rfl, hmem.trans h.mem, hstop, hcode⟩

end

/-- What the start of a transfer leaves, as the statement gives it: its queue without its head, the other queues, the running
commands, and the transfer with its command. -/
theorem Begins.begun {q : QName} {e : QEnt} {rest : List QEnt} {j : Job} {s t : State} (h : Begins q j s t)
    (hq : queue s q = e :: rest) : queue t q = rest ∧ (∀ p, p ≠ q → queue t p = queue s p) ∧ t.runs = s.runs ∧
      ∃ k ∈ t.xfer.jobs, k.id = j.id ∧ k.kind = j.kind ∧ k.ctx = j.ctx ∧ k.words = j.words ∧ k.prio = j.prio ∧
        k.pennant = j.pennant ∧ k.incr = j.incr ∧ k.comb = j.comb := by
  obtain ⟨k, hk, hcmd⟩ := h.jobs
  simp only [Job.cmd, Prod.mk.injEq] at hcmd
  exact ⟨by rw [h.head, hq]; rfl, h.other, h.runs, k, by rw [hk]; exact List.mem_singleton_self k, hcmd⟩

theorem noHeldPacket_beginJob {s : State} (h : NoHeldPacket s) (q : QName) (e : QEnt) (f : Nat → Job) :
    NoHeldPacket (beginJob q e f s) := by
  simpa [NoHeldPacket, port] using h

theorem outFault_beginJob (q : QName) (e : QEnt) (f : Nat → Job) (s : State) (g : Nat) :
    outFault (beginJob q e f s) g = outFault s g :=
  outFault_congr (by simp) (fun b => by simp [bank]) (by simp) g

/-! ### XDMA.READ, XDMA.WRITE and XDMA.GATHER (R296, R297) -/

theorem xdmaFault_none {s : State} {c : Ctx} {prio : Nat} {core ext : List Range} (h : xdmaFault s c prio core ext = none)
    {r : Range} (hr : r ∈ ext) : extFault s.xmu r.1 r.2 = none := by
  unfold xdmaFault at h
  split at h
  · cases h
  · split at h
    · cases h
    · exact List.findSome?_eq_none_iff.1 h r hr

/-- The transfer of an XDMA.READ or XDMA.WRITE. -/
def rwJob (write : Bool) (e : QEnt) (id : Nat) : Job :=
  { id := id, kind := if write then .write else .read, ctx := e.ctx.val, blame := blameOf e, prio := w3Prio e.words
    pennant := w3Pennant e.words, incr := w3Incr e.words, comb := bits (wd e.words 5) 15 12, words := e.words
    verify := bit (wd e.words 5) 16 }

/-- The external rows of an XDMA.READ or XDMA.WRITE (R296). -/
def rwExt (ws : List Nat) : List Range :=
  (List.range (rowCount (bits (wd ws 5) 11 0) 4096)).map (fun i => ((wd ws 8 + i * wd ws 7) % 2 ^ 34, wd ws 4))

/-- A transfer that is no read makes no request for external memory. -/
theorem pump_write {s : State} (h : ∀ j ∈ s.xfer.jobs, j.kind = .write) (n : Nat) : pump n s = s :=
  pump_ind (P := fun t => t = s) (fun t k ht hmem hcan => by
    subst ht
    simp [canRequest, readsExt, h k hmem] at hcan) n rfl

/-- The length of a row of an XDMA.READ or XDMA.WRITE is all of word 4, and is not 0 (R296). -/
theorem rwOk_len {write : Bool} {e : QEnt} (h : rwOk write e = true) :
    bits (wd e.words 4) 23 0 = wd e.words 4 ∧ 0 < wd e.words 4 := by
  simp only [rwOk, Bool.and_eq_true, decide_eq_true_eq] at h
  obtain ⟨⟨⟨⟨⟨⟨⟨⟨-, hlt⟩, hne⟩, -⟩, -⟩, -⟩, -⟩, -⟩, -⟩ := h
  exact ⟨by simpa [bits] using hlt, Nat.pos_of_ne_zero hne⟩

theorem startRw_begins {s : State} {e : QEnt} {write : Bool} (hok : rwOk write e = true)
    (hfault : xdmaFault s e.ctx (w3Prio e.words)
      (cmRows (rowCount (bits (wd e.words 5) 11 0) 4096) (wd e.words 1) (wd e.words 6) (wd e.words 4)) (rwExt e.words) = none)
    (hjobs : s.xfer.jobs = []) (hheld : NoHeldPacket s) :
    Begins .xdma (rwJob write e s.xfer.nextJob) s (startRw write e s) ∧ (startRw write e s).ctxs = s.ctxs := by
  have hb := beginJob_begins .xdma e (rwJob write e) hjobs
  have hnew : (beginJob .xdma e (rwJob write e) s).xfer.jobs = [rwJob write e s.xfer.nextJob] := by simp [hjobs]
  have hstart : startRw write e s = pumpAll (beginJob .xdma e (rwJob write e) s) := by
    unfold rwExt at hfault
    unfold startRw
    dsimp only
    rw [if_neg (by simp [hok]), hfault]
    rfl
  rw [hstart, pumpAll_eq (noHeldPacket_beginJob hheld ..) (by rw [hnew]; cases write <;> simp [rwJob])]
  cases write with
  | true =>
    rw [pump_write (by rw [hnew]; simp [rwJob])]
    exact ⟨hb, by simp⟩
  | false =>
    obtain ⟨hlen, hpos⟩ := rwOk_len hok
    have hread : ReadGoesOn (rwJob false e s.xfer.nextJob) (beginJob .xdma e (rwJob false e) s)
        (pump 1024 (beginJob .xdma e (rwJob false e) s)) := by
      refine ReadGoesOn.pump rfl (fun i hi => ?_) ⟨rfl, rfl, rfl, rfl, fun _ => rfl, _, hnew, rfl, ?_, by simp [rwJob]⟩ _
      · rw [(beginJob_rest ..).2.2.2.2.2.2.2.1]
        exact xdmaFault_none hfault (List.mem_map.2 ⟨i, List.mem_range.2 hi, congrArg (Prod.mk _) hlen.symm⟩)
      · show 0 < bits (wd e.words 4) 23 0
        rw [hlen]
        exact hpos
    exact ⟨hb.goesOn hread.goesOn, hread.ctxs.trans (by simp)⟩

theorem readLE_congr {s t : State} (h : t.mem = s.mem) (a n : Nat) : readLE t a n = readLE s a n := by
  simp only [readLE, readBytes, readByte, h]

/-- The transfer of an XDMA.GATHER. -/
def gatherJob (e : QEnt) (id : Nat) : Job :=
  { id := id, kind := .gather, ctx := e.ctx.val, blame := blameOf e, prio := w3Prio e.words, pennant := w3Pennant e.words
    incr := w3Incr e.words, comb := bits (wd e.words 6) 27 24, words := e.words, verify := bit (wd e.words 6) 28 }

theorem rowCount_pos (w : Nat) {top : Nat} (h : 0 < top) : 0 < rowCount w top := by
  unfold rowCount
  split
  · exact h
  · omega

theorem startGather_begins {s : State} {e : QEnt} (hok : gatherOk e = true) (hruns : s.runs = [])
    (hfault : xdmaFault s e.ctx (w3Prio e.words) ((wd e.words 5, 4 * rowCount (bits (wd e.words 4) 31 16) 65536) ::
      cmRows (rowCount (bits (wd e.words 4) 31 16) 65536) (wd e.words 1) (bits (wd e.words 6) 23 0) (bits (wd e.words 4) 15 0)) [] = none)
    (hidx : outFault s (wd e.words 5 / 64 * 64) = none)
    (hext : extFault s.xmu ((wd e.words 8 + readLE s (wd e.words 5) 4 * wd e.words 7) % 2 ^ 34) (bits (wd e.words 4) 15 0) = none)
    (hjobs : s.xfer.jobs = []) (hheld : NoHeldPacket s) :
    Begins .xdma (gatherJob e s.xfer.nextJob) s (startGather e s) := by
  have hnew : (beginJob .xdma e (gatherJob e) s).xfer.jobs = [gatherJob e s.xfer.nextJob] := by simp [hjobs]
  have hstart : startGather e s = pumpAll (beginJob .xdma e (gatherJob e) s) := by
    unfold startGather
    dsimp only
    rw [if_neg (by simp [hok]), hfault]
    rfl
  have hrest : (beginJob .xdma e (gatherJob e) s).runs = s.runs := by simp
  have hextb : extFault (beginJob .xdma e (gatherJob e) s).xmu (rowExt (beginJob .xdma e (gatherJob e) s) (gatherJob e s.xfer.nextJob) 0)
      (rowLen (beginJob .xdma e (gatherJob e) s) (gatherJob e s.xfer.nextJob)) = none := by
    have hbytes : readLE (beginJob .xdma e (gatherJob e) s) (wd e.words 5) 4 = readLE s (wd e.words 5) 4 :=
      readLE_congr (by simp) ..
    have hxmu : (beginJob .xdma e (gatherJob e) s).xmu = s.xmu := by simp
    simpa only [rowExt, rowLen, gatherJob, Nat.mul_zero, Nat.add_zero, hbytes, hxmu] using hext
  rw [hstart, pumpAll_eq (noHeldPacket_beginJob hheld ..) (by rw [hnew]; simp [gatherJob])]
  exact (beginJob_begins .xdma e (gatherJob e) hjobs).goesOn <|
    pump_gather (hrest.trans hruns) hnew rfl rfl ((outFault_beginJob ..).trans hidx) hextb _

/-! ### XDMA.SMREAD and XDMA.SMWRITE (R222) -/

/-- The transfer of an XDMA.SMREAD or XDMA.SMWRITE. -/
def smJob (write : Bool) (e : QEnt) (id : Nat) : Job :=
  { id := id, kind := if write then .smWrite else .smRead, ctx := e.ctx.val, blame := blameOf e
    pennant := bits (wd e.words 5) 11 0, incr := bits (wd e.words 5) 27 12, comb := bits (wd e.words 4) 27 24, words := e.words }

/-- A granule of an aligned range is among the granules that it touches. -/
theorem mem_granulesOf {a n i : Nat} (ha : a % 64 = 0) (hi : i < n / 64) : a + 64 * i ∈ granulesOf a n := by
  rw [granulesOf, if_neg (by omega)]
  exact List.mem_map.2 ⟨i, List.mem_range.2 (by omega), by omega⟩

theorem startSm_begins {s : State} {e : QEnt} {write : Bool} (hok : smOk write e = true) (hhier : s.cm.hier = true)
    (hbad : badRange s e.ctx [(wd e.words 1, bits (wd e.words 4) 23 0)] = none) (hruns : s.runs = [])
    (hout : ∀ g ∈ granulesOf (wd e.words 1) (bits (wd e.words 4) 23 0), outFault s g = none) (hjobs : s.xfer.jobs = []) :
    Begins .xdma (smJob write e s.xfer.nextJob) s (startSm write e s) := by
  have hnew : (beginJob .xdma e (smJob write e) s).xfer.jobs = [smJob write e s.xfer.nextJob] := by simp [hjobs]
  have hstart : startSm write e s = pumpSm 32768 (beginJob .xdma e (smJob write e) s) := by
    unfold startSm
    dsimp only
    rw [if_neg (by simp [hok]), if_neg (by simp [hhier]), hbad]
    rfl
  have halign : wd e.words 1 % 64 = 0 := by
    simp only [smOk, Bool.and_eq_true, decide_eq_true_eq] at hok
    obtain ⟨⟨⟨⟨⟨⟨⟨⟨⟨⟨-, h⟩, -⟩, -⟩, -⟩, -⟩, -⟩, -⟩, -⟩, -⟩, -⟩ := hok
    exact h
  have hrows : rowsOfJob (smJob write e s.xfer.nextJob) = bits (wd e.words 4) 23 0 / 64 := by cases write <;> rfl
  have hrest : (beginJob .xdma e (smJob write e) s).runs = s.runs := by simp
  rw [hstart]
  refine (beginJob_begins .xdma e (smJob write e) hjobs).goesOn (pumpSm_goesOn (hrest.trans hruns) (fun _ i hi => ?_) ?_ hnew _)
  · exact (outFault_beginJob ..).trans (hout _ (mem_granulesOf halign (hrows ▸ hi)))
  · cases write <;> simp [smJob]

/-- In the flat hierarchy there is no shared memory (R222). -/
theorem startSm_flat {s : State} {e : QEnt} {write : Bool} (hok : smOk write e = true) (hhier : s.cm.hier = false) :
    startSm write e s = startFault .xdma e cADDR [wd e.words 8 % 2 ^ 32, wd e.words 8 / 2 ^ 32 % 4] s := by
  unfold startSm
  dsimp only
  rw [if_neg (by simp [hok]), if_pos hhier]

end Sys2Proof.Machine

/-!
## Transfers: the starts of the stash commands and of the LNK commands (R94 to R99, R322 to R324)
-/

namespace Sys2Proof.Machine

/-! ### STASH.CLAIM, STASH.FETCH and STASH.RELEASE (R94 to R99) -/

/-- The transfer of a stash command. -/
def stashJob (k : JKind) (e : QEnt) (id : Nat) : Job :=
  { id := id, kind := k, ctx := e.ctx.val, blame := blameOf e, prio := 1, pennant := stPennant e.words, words := e.words }

/-- A stash command has become a transfer, and has changed the stash of its context. -/
structure StashBegins (k : JKind) (e : QEnt) (s t : State) (x : Stash) : Prop where
  begins : Begins .xdma (stashJob k e s.xfer.nextJob) s t
  ctxs : t.ctxs = s.ctxs
  stash : stashOf t e.ctx = x

theorem beginStash_begins (k : JKind) (e : QEnt) {s : State} (hjobs : s.xfer.jobs = []) :
    StashBegins k e s (beginStash k e s) (stashOf s e.ctx) where
  begins := beginJob_begins .xdma e (stashJob k e) hjobs
  ctxs := by simp [beginStash]
  stash := by simp [beginStash, stashOf]

/-- A change of the stash is no transfer: it can come before one. -/
theorem StashBegins.of_modStash {k : JKind} {e : QEnt} {s t : State} {x : Stash} {f : Stash → Stash}
    (h : StashBegins k e (modStash e.ctx f s) t x) : StashBegins k e s t x where
  begins := ⟨h.begins.head, h.begins.other, h.begins.runs, h.begins.mem, h.begins.jobs⟩
  ctxs := h.ctxs
  stash := h.stash

theorem TimeAlone.stashBegins {k : JKind} {e : QEnt} {s u t : State} {x : Stash} (h : TimeAlone s u) (hb : StashBegins k e u t x) :
    StashBegins k e s t x where
  begins := h.begins hb.begins
  ctxs := hb.ctxs.trans h.ctxs
  stash := hb.stash

theorem stashBusy_noJobs {s : State} (h : s.xfer.jobs = []) (c : Ctx) : stashBusy s c = false := by simp [stashBusy, h]

/-- With no transfer in progress a stash command that is well formed starts by its opcode. -/
theorem startStash_starts {s : State} {op : Nat} {e : QEnt} (hjobs : s.xfer.jobs = []) (hok : stashOk op e = true) :
    startStash op e s = if op = 0x35 then startClaim e s else if op = 0x36 then startFetch e s else startRelease e s := by
  rw [startStash, if_neg (by simp [stashBusy_noJobs hjobs]), if_neg (by simp [hok])]

/-- The slot of a claim goes behind the others of its stash. -/
theorem placeSlot_noVictim {s : State} {c : Nat} {n : Nat} (h : (placement (stashOf s c) n).2 = []) (writer : Nat) (blame : Blame)
    (l policy : Nat) : placeSlot c writer blame l n policy s = modStash c (fun t => { t with
      slots := t.slots ++ [⟨l, (placement (stashOf s c) n).1, n, policy⟩], head := (placement (stashOf s c) n).1 + n }) s := by
  simp [placeSlot, h]

theorem startClaim_begins {s : State} {e : QEnt} (hjobs : s.xfer.jobs = [])
    (habs : layerOf (stashOf s e.ctx) (stLayer e.words) = .absent)
    (hfault : placeFault s (stashOf s e.ctx) (stLayer e.words) (stSize e.words) = none)
    (hfree : (placement (stashOf s e.ctx) (stSize e.words)).2 = []) :
    StashBegins .claim e s (startClaim e s) (setLayer (stLayer e.words) .resident { stashOf s e.ctx with
      slots := (stashOf s e.ctx).slots ++
        [⟨stLayer e.words, (placement (stashOf s e.ctx) (stSize e.words)).1, stSize e.words, stPolicy e.words⟩]
      head := (placement (stashOf s e.ctx) (stSize e.words)).1 + stSize e.words }) := by
  have hstart : startClaim e s = beginStash .claim e (modStash e.ctx (setLayer (stLayer e.words) .resident)
      (placeSlot e.ctx s.xfer.nextJob (blameOf e) (stLayer e.words) (stSize e.words) (stPolicy e.words) s)) := by
    unfold startClaim
    dsimp only
    rw [habs]
    dsimp only
    rw [hfault]
  rw [hstart, placeSlot_noVictim hfree]
  have h := beginStash_begins .claim e (s := modStash e.ctx (setLayer (stLayer e.words) .resident) (modStash e.ctx (fun t => { t with
      slots := t.slots ++ [⟨stLayer e.words, (placement (stashOf s e.ctx) (stSize e.words)).1, stSize e.words, stPolicy e.words⟩]
      head := (placement (stashOf s e.ctx) (stSize e.words)).1 + stSize e.words }) s)) hjobs
  rw [stashOf_modStash_same, stashOf_modStash_same] at h
  exact h.of_modStash.of_modStash

theorem startFetch_resident {s : State} {e : QEnt} (hjobs : s.xfer.jobs = [])
    (h : layerOf (stashOf s e.ctx) (stLayer e.words) = .resident) : StashBegins .claim e s (startFetch e s) (stashOf s e.ctx) := by
  have hstart : startFetch e s = beginStash .claim e s := by
    unfold startFetch
    dsimp only
    rw [h]
  rw [hstart]
  exact beginStash_begins .claim e hjobs

theorem startRelease_begins {s : State} {e : QEnt} (hjobs : s.xfer.jobs = [])
    (h : layerOf (stashOf s e.ctx) (stLayer e.words) ≠ .absent) : StashBegins .release e s (startRelease e s)
      (setLayer (stLayer e.words) .absent (freeSlot (stLayer e.words) (stashOf s e.ctx))) := by
  have hstart : startRelease e s = beginStash .release e
      (modStash e.ctx (fun t => setLayer (stLayer e.words) .absent (freeSlot (stLayer e.words) t)) s) := by
    unfold startRelease
    dsimp only
    split
    · rename_i habs
      exact absurd habs h
    · rfl
  have hb := beginStash_begins .release e
    (s := modStash e.ctx (fun t => setLayer (stLayer e.words) .absent (freeSlot (stLayer e.words) t)) s) hjobs
  rw [stashOf_modStash_same] at hb
  rw [hstart]
  exact hb.of_modStash

@[simp] theorem layerOf_setLayer_same (l : Nat) (y : Layer) (t : Stash) : layerOf (setLayer l y t) l = y := by
  simp [layerOf, setLayer]

/-- A slot that a release leaves is of another layer (R99). -/
theorem layer_ne_of_mem_freeSlot {l : Nat} {y : Layer} {t : Stash} {k : StSlot} (h : k ∈ (setLayer l y (freeSlot l t)).slots) :
    k.layer ≠ l := of_decide_eq_true (List.mem_filter.1 h).2

/-! ### LNK.WRITE and LNK.READ (R322 to R324) -/

/-- The transfer of an LNK.WRITE or LNK.READ. -/
def lnkJob (write : Bool) (e : QEnt) (id : Nat) : Job :=
  { id := id, kind := if write then .lnkWrite else .lnkRead, ctx := e.ctx.val, blame := blameOf e, prio := lkPrio e.words
    pennant := bits (wd e.words (if write then 6 else 5)) 11 0, incr := bits (wd e.words (if write then 6 else 5)) 27 12
    comb := lkCombine e.words, words := e.words, port := lkPort e.words }

theorem startLnkNow_up {s : State} {e : QEnt} {write : Bool} (hop : wd e.words 0 % 256 = if write then 0x38 else 0x39)
    (hok : (if write then lnkWriteOk e else lnkReadOk e) = true) (hup : (port s (lkPort e.words)).up = true)
    (hbad : badRange s e.ctx [(wd e.words 1, lkBytes e.words)] = none) :
    startLnkNow e s = modPort (lkPort e.words) (fun q => { q with jobs := q.jobs ++ [s.xfer.nextJob] })
      (beginJob .lnk e (lnkJob write e) s) := by
  have hdec : decide (wd e.words 0 % 256 = 0x38) = write := by rw [hop]; cases write <;> rfl
  unfold startLnkNow
  dsimp only
  rw [hdec, if_neg (by simp [hok]), if_neg (by simp [hup]), hbad]
  cases write <;> rfl

/-- A command for a port that is not UP faults (R324). -/
theorem startLnkNow_down {s : State} {e : QEnt} {write : Bool} (hop : wd e.words 0 % 256 = if write then 0x38 else 0x39)
    (hok : (if write then lnkWriteOk e else lnkReadOk e) = true) (hup : (port s (lkPort e.words)).up = false) :
    startLnkNow e s = startFault .lnk e cLINK_DOWN [lkPort e.words] s := by
  have hdec : decide (wd e.words 0 % 256 = 0x38) = write := by rw [hop]; cases write <;> rfl
  unfold startLnkNow
  dsimp only
  rw [hdec, if_neg (by simp [hok]), if_pos hup]

theorem startLnkNow_begins {s : State} {e : QEnt} {write : Bool} (hop : wd e.words 0 % 256 = if write then 0x38 else 0x39)
    (hok : (if write then lnkWriteOk e else lnkReadOk e) = true) (hup : (port s (lkPort e.words)).up = true)
    (hbad : badRange s e.ctx [(wd e.words 1, lkBytes e.words)] = none) (hjobs : s.xfer.jobs = []) :
    Begins .lnk (lnkJob write e s.xfer.nextJob) s (startLnkNow e s) ∧ (startLnkNow e s).ctxs = s.ctxs ∧
      (port (startLnkNow e s) (lkPort e.words)).jobs = (port s (lkPort e.words)).jobs ++ [s.xfer.nextJob] := by
  have hb := beginJob_begins .lnk e (lnkJob write e) hjobs
  rw [startLnkNow_up hop hok hup hbad]
  refine ⟨⟨hb.head, hb.other, hb.runs, hb.mem, hb.jobs⟩, by simp, ?_⟩
  rw [port_modPort_same]
  simp [port]

end Sys2Proof.Machine

/-!
## Transfers: the heads of the XDMA and LNK queues start (R272, R299, R323)
-/

namespace Sys2Proof.Machine

section
variable {e : QEnt} {write : Bool} (s : State)

theorem startXdmaNow_rw (hop : wd e.words 0 % 256 = if write then 0x31 else 0x30) : startXdmaNow e s = startRw write e s := by
  unfold startXdmaNow
  rw [hop]
  cases write <;> rfl

theorem startXdmaNow_gather (hop : wd e.words 0 % 256 = 0x32) : startXdmaNow e s = startGather e s := by
  unfold startXdmaNow
  rw [hop]
  rfl

theorem startXdmaNow_sm (hop : wd e.words 0 % 256 = if write then 0x34 else 0x33) : startXdmaNow e s = startSm write e s := by
  unfold startXdmaNow
  rw [hop]
  cases write <;> rfl

/-- The other opcodes of the class are those of the stash commands (R94). -/
theorem startXdmaNow_stash {op : Nat} (hop : wd e.words 0 % 256 = op) (h : op = 0x35 ∨ op = 0x36 ∨ op = 0x37) :
    startXdmaNow e s = startStash op e s := by
  unfold startXdmaNow
  obtain rfl | rfl | rfl := h <;> rw [hop] <;> rfl

end

end Sys2Proof.Machine

section
open Sys2Proof Sys2Proof.Machine Host

/-- Settles O14: time alone passes before the start, which then begins the head's transfer or stops its context. -/
theorem transferHeadsStart : Obligations.TransferHeadsStart := by
  intro s q e rest hq hset hstart hdue
  dsimp only
  refine ⟨?_, ?_⟩
  · rintro rfl hfull
    rw [exec_engineCommandStart_xdma hq, startXdma_full hfull]
  rintro ⟨hjobs, -, hheld⟩
  refine ⟨?_, ?_, ?_, ?_, ?_⟩
  · rintro write rfl hop hok hfault
    obtain ⟨u, hu, hexec⟩ := exec_xdmaHead hq hset hstart hdue hjobs
    obtain ⟨hb, hc⟩ := startRw_begins hok ((hu.xdmaFault_eq ..).trans hfault) (hu.noJobs hjobs) (hu.noHeldPacket hheld)
    rw [hexec, startXdmaNow_rw _ hop]
    exact ⟨_, rfl, ⟨hb.mem.trans hu.mem, hc.trans hu.ctxs⟩, (hu.begins hb).begun hq⟩
  · rintro rfl hop hok hruns hfault hgran
    obtain ⟨u, hu, hexec⟩ := exec_xdmaHead hq hset hstart hdue hjobs
    obtain ⟨hidx, hext⟩ := hgran 0 (rowCount_pos _ (by decide))
    rw [Nat.mul_zero, Nat.add_zero] at hidx hext
    have hword : readLE u (wd e.words 5) 4 = readLE s (wd e.words 5) 4 := readLE_congr hu.mem ..
    have hb := startGather_begins (s := u) hok (hu.runs.trans hruns) ((hu.xdmaFault_eq ..).trans hfault)
      ((hu.outFault _).trans hidx) (by rw [hu.xmu, hword, hext]) (hu.noJobs hjobs) (hu.noHeldPacket hheld)
    rw [hexec, startXdmaNow_gather _ hop]
    exact ⟨_, rfl, hb.mem.trans hu.mem, (hu.begins hb).begun hq⟩
  · rintro write rfl hop hok hbad
    obtain ⟨u, hu, hexec⟩ := exec_xdmaHead hq hset hstart hdue hjobs
    rw [hexec, startXdmaNow_sm _ hop]
    refine ⟨fun hhier hruns hout => ?_, fun hflat hst hrun => ?_⟩
    · have hb := startSm_begins (s := u) hok (by rw [hu.cm, hhier]) ((hu.badRange_eq ..).trans hbad) (hu.runs.trans hruns)
        (fun g hg => (hu.outFault g).trans (hout g hg)) (hu.noJobs hjobs)
      exact ⟨_, rfl, hb.mem.trans hu.mem, (hu.begins hb).begun hq⟩
    · rw [startSm_flat hok (by rw [hu.cm, hflat])]
      exact ⟨_, rfl, hu.stops hq hst hrun ..⟩
  · rintro rfl hok
    obtain ⟨u, hu, hexec⟩ := exec_xdmaHead hq hset hstart hdue hjobs
    have hnone := hu.noJobs hjobs
    rw [hexec]
    refine ⟨fun hop habs hfault hfree => ?_, fun hop hres => ?_, fun hop hthere => ?_⟩
    · rw [hop] at hok
      rw [startXdmaNow_stash _ hop (.inl rfl), startStash_starts hnone hok, if_pos rfl]
      rw [← hu.stashOf_eq] at habs hfault hfree ⊢
      have hb := startClaim_begins hnone habs ((hu.placeFault_eq ..).trans hfault) hfree
      have hbs := hu.stashBegins hb
      refine ⟨_, rfl, ⟨hbs.begins.mem, hbs.ctxs⟩, hbs.begins.begun hq, ?_, congrArg Stash.slots hb.stash⟩
      exact (congrArg (layerOf · _) hb.stash).trans (layerOf_setLayer_same ..)
    · rw [hop] at hok
      rw [startXdmaNow_stash _ hop (.inr (.inl rfl)), startStash_starts hnone hok, if_neg (by decide), if_pos rfl]
      rw [← hu.stashOf_eq] at hres ⊢
      have hb := startFetch_resident hnone hres
      have hbs := hu.stashBegins hb
      exact ⟨_, rfl, ⟨hbs.begins.mem, hbs.ctxs⟩, hbs.begins.begun hq, hb.stash⟩
    · rw [hop] at hok
      rw [startXdmaNow_stash _ hop (.inr (.inr rfl)), startStash_starts hnone hok, if_neg (by decide), if_neg (by decide)]
      rw [← hu.stashOf_eq] at hthere
      have hb := startRelease_begins hnone hthere
      have hbs := hu.stashBegins hb
      refine ⟨_, rfl, ⟨hbs.begins.mem, hbs.ctxs⟩, hbs.begins.begun hq, ?_, fun y hy => ?_⟩
      · exact (congrArg (layerOf · _) hb.stash).trans (layerOf_setLayer_same ..)
      · exact layer_ne_of_mem_freeSlot (hb.stash ▸ hy)
  · rintro write rfl hop hok hbad
    obtain ⟨u, hu, hexec⟩ := exec_lnkHead hq hset hstart hdue
    rw [hexec]
    refine ⟨fun hup => ?_, fun hdown hst hrun => ?_⟩
    · rw [← hu.port_eq] at hup ⊢
      obtain ⟨hb, hc, hport⟩ := startLnkNow_begins hop hok hup ((hu.badRange_eq ..).trans hbad) (hu.noJobs hjobs)
      exact ⟨_, rfl, ⟨hb.mem.trans hu.mem, hc.trans hu.ctxs⟩, (hu.begins hb).begun hq, by rw [hport, hu.xfer]⟩
    · rw [← hu.port_eq] at hdown
      rw [startLnkNow_down hop hok hdown]
      exact ⟨_, rfl, hu.stops hq hst hrun ..⟩

end

/-!
## The arrival combiner: the elements of a combined granule (R156, R157)
-/

namespace Sys2Proof.Machine

/-- Element i of list k of lists of one length stands at its place in all of them together. -/
theorem getD_flatMap_range {α : Type} {w i k n : Nat} {f : Nat → List α} (hf : ∀ k, (f k).length = w) (hi : i < w) (hk : k < n)
    (d : α) : ((List.range n).flatMap f).getD (w * k + i) d = (f k).getD i d := by
  induction n generalizing f k with
  | zero => cases hk
  | succ n ih =>
    rw [List.range_succ_eq_map, List.flatMap_cons, List.flatMap_map]
    cases k with
    | zero => rw [Nat.mul_zero, Nat.zero_add, List.getD_append _ _ _ _ (by rw [hf]; exact hi)]
    | succ k =>
      rw [List.getD_append_right _ _ _ _ (by rw [hf, Nat.mul_succ]; omega), hf, Nat.mul_succ,
        show w * k + w + i - w = w * k + i by omega]
      exact ih (fun k => hf (k + 1)) (Nat.lt_of_succ_lt_succ hk)

/-- The bytes that arrive for element k of a granule. -/
def combArriving (c : Nat) (bs : List (Option W8)) (k : Nat) : List (Option W8) :=
  (List.range (combWidth c)).map fun i => bs.getD (combWidth c * k + i) none

/-- The bytes that a combine makes of element k: none where the element is masked (R157). -/
def combBytes (c : Nat) (old : List W8) (bs : List (Option W8)) (k : Nat) : List (Option W8) :=
  if (combArriving c bs k).all Option.isSome then
    (leBytes (combWidth c) (combElem c (ofLE (slice (combWidth c * k) (combWidth c) old))
      (ofLE ((combArriving c bs k).map fun b => b.getD 0#8)))).map some
  else List.replicate (combWidth c) none

theorem combGranule_eq (c : Nat) (old : List W8) (bs : List (Option W8)) :
    combGranule c old bs = (List.range (64 / combWidth c)).flatMap (combBytes c old bs) := rfl

theorem combWidth_eq (c : Nat) : combWidth c = 2 ∨ combWidth c = 4 := by
  unfold combWidth
  split <;> simp

@[simp] theorem length_combBytes (c : Nat) (old : List W8) (bs : List (Option W8)) (k : Nat) :
    (combBytes c old bs k).length = combWidth c := by
  unfold combBytes
  split <;> simp

@[simp] theorem length_combGranule (c : Nat) (old : List W8) (bs : List (Option W8)) : (combGranule c old bs).length = 64 := by
  have h : 64 / combWidth c * combWidth c = 64 := by obtain h | h := combWidth_eq c <;> rw [h]
  simpa [combGranule_eq, List.length_flatMap] using h

/-- An element with a byte that is not enabled takes no part (R157). -/
theorem combBytes_masked {c : Nat} {bs : List (Option W8)} {k i : Nat} (hi : i < combWidth c)
    (h : bs.getD (combWidth c * k + i) none = none) (old : List W8) :
    combBytes c old bs k = List.replicate (combWidth c) none :=
  if_neg fun hall => by
    have hsome := List.all_eq_true.1 hall _ (List.mem_map.2 ⟨i, List.mem_range.2 hi, rfl⟩)
    rw [h] at hsome
    cases hsome

theorem combGranule_masked {c : Nat} {bs : List (Option W8)} {k i j : Nat} (hk : k < 64 / combWidth c) (hi : i < combWidth c)
    (h : bs.getD (combWidth c * k + i) none = none) (hj : j < combWidth c) (old : List W8) :
    (combGranule c old bs).getD (combWidth c * k + j) none = none := by
  rw [combGranule_eq, getD_flatMap_range (length_combBytes c old bs) hj hk, combBytes_masked hi h,
    List.getD_replicate _ hj]

end Sys2Proof.Machine

section
open Sys2Proof Sys2Proof.Machine Host

/-- Settles O33: the combined granule is its elements' bytes one after the other; a masked element has none, and each integer
code is its operation on 32-bit words. -/
theorem combinedElements : Obligations.CombinedElements := by
  intro c old bs _ _ _ _
  refine ⟨length_combGranule .., fun k hk ⟨i, hi, h⟩ j hj => combGranule_masked hk hi h hj old, fun x y => ?_⟩
  refine ⟨(BitVec.toNat_add x y).symm, ?_, ?_, rfl, rfl, (BitVec.toNat_or ..).symm⟩
  · rw [combElem, BitVec.ofNat_toNat, BitVec.ofNat_toNat, BitVec.setWidth_eq, BitVec.setWidth_eq]
  · rw [combElem, BitVec.ofNat_toNat, BitVec.ofNat_toNat, BitVec.setWidth_eq, BitVec.setWidth_eq]

end

/-!
## Atomics: the word that an atomic writes (R158, R162)
-/

namespace Sys2Proof.Machine

/-! ### The granule that an atomic makes -/

theorem granBytes_coreMem {g : Nat} (h : g < 2 ^ 40) (s : State) : granBytes s g = readBytes s g 64 := if_neg (Nat.not_le.2 h)

/-- An atomic reads the word at its address. -/
theorem atomOn_old {a : Nat} (ha : a % 4 = 0) (op v cmp : Nat) (s : State) :
    atomOn a op v cmp (readBytes s (a / 64 * 64) 64) =
      (readLE s a 4, (readBytes s (a / 64 * 64) 64).take (a % 64) ++ leBytes 4 (atomNew op (readLE s a 4) v cmp).1 ++
        (readBytes s (a / 64 * 64) 64).drop (a % 64 + 4), (atomNew op (readLE s a 4) v cmp).2) := by
  have hold : ofLE (slice (a % 64) 4 (readBytes s (a / 64 * 64) 64)) = readLE s a 4 := by
    rw [slice_readBytes (by omega), Nat.div_add_mod']
    rfl
  rw [atomOn, hold]

/-- A granule with one word changed, written back, changes that word alone. -/
theorem get_putBytes_word {a : Nat} (ha : a % 4 = 0) (w : Nat) (s : State) (k : Nat) :
    SMap.get emptyByte (putBytes s.mem (a / 64 * 64) ((readBytes s (a / 64 * 64) 64).take (a % 64) ++ leBytes 4 w ++
      (readBytes s (a / 64 * 64) 64).drop (a % 64 + 4))) k =
      if a ≤ k ∧ k < a + 4 then (leBytes 4 w).getD (k - a) emptyByte else readByte s k := by
  have hlen : ((readBytes s (a / 64 * 64) 64).take (a % 64)).length = a % 64 := by simp; omega
  rw [get_putBytes]
  by_cases hk : a / 64 * 64 ≤ k ∧ k < a / 64 * 64 + 64
  · rw [if_pos (by simp only [List.length_append, hlen, length_leBytes, List.length_drop, length_readBytes]; omega)]
    have hbyte {i : Nat} (hi : i < 64) : (readBytes s (a / 64 * 64) 64)[i]? = some (readByte s (a / 64 * 64 + i)) := by
      rw [readBytes, List.getElem?_map, List.getElem?_range hi]
      rfl
    obtain hlt | hin | hge : k < a ∨ (a ≤ k ∧ k < a + 4) ∨ a + 4 ≤ k := by omega
    · rw [if_neg (by omega), List.append_assoc, List.getD_append _ _ _ _ (by omega), List.getD_eq_getElem?_getD,
        List.getElem?_take_of_lt (by omega), hbyte (by omega), Option.getD_some, Nat.add_sub_cancel' hk.1]
    · rw [if_pos hin, List.append_assoc, List.getD_append_right _ _ _ _ (by omega), List.getD_append _ _ _ _ (by simp; omega),
        hlen, show k - a / 64 * 64 - a % 64 = k - a by omega]
    · rw [if_neg (by omega), List.getD_append_right _ _ _ _ (by simp; omega), List.getD_eq_getElem?_getD, List.getElem?_drop,
        hbyte (by simp; omega), Option.getD_some]
      congr 1
      simp
      omega
  · rw [if_neg (by simp only [List.length_append, hlen, length_leBytes, List.length_drop, length_readBytes]; omega),
      if_neg (by omega)]
    rfl

/-- Bytes that stand from an address on are what a read of them gives. -/
theorem readLE_of_bytes {t : State} {a n : Nat} {l : List W8} (hl : l.length = n)
    (h : ∀ k, a ≤ k → k < a + n → readByte t k = l.getD (k - a) emptyByte) : readLE t a n = ofLE l := by
  refine congrArg ofLE (List.ext_getElem (by simp [hl]) fun i h1 h2 => ?_)
  rw [length_readBytes] at h1
  have hi : (readBytes t a n)[i] = readByte t (a + i) := by simp [readBytes]
  rw [hi, h _ (Nat.le_add_right ..) (by omega), Nat.add_sub_cancel_left, List.getD_eq_getElem _ _ h2]

/-! ### An atomic that meets no other access -/

theorem spanOf_modSpan_single {s : State} {seat : Nat} {x : Span} (h : s.spans = [(seat, x)]) (f : Span → Span) :
    spanOf (modSpan seat f s) seat = f x := by
  simp [spanOf, modSpan, SMap.get, h]

theorem atomRead_single {s : State} {r : Run} {a op v cmp d : Nat} (he : r.effs = [.atom a op v cmp d])
    (ht : (spanOf s r.seat).took = none) (bs : List W8) : atomRead r bs s = modSpan r.seat (fun x => { x with
      took := some ((atomOn a op v cmp bs).1, (atomOn a op v cmp bs).2.2), result := (atomOn a op v cmp bs).2.1 }) s := by
  rw [atomRead, he, List.foldl_cons, List.foldl_nil, ht]
  rfl

/-- A write of a granule of core memory by a running command reaches memory there, and no context. -/
theorem writeAt_coreMem {g : Nat} (hg : g < 2 ^ 40) (t : Nat) (self : Option Nat) (s : State) (p : Nat × List W8) :
    (writeAt t self g s p).mem = putBytes s.mem p.1 p.2 ∧ (writeAt t self g s p).ctxs = s.ctxs := by
  unfold writeAt
  split
  · rename_i h
    rw [h]
    exact ⟨rfl, rfl⟩
  · dsimp only
    rw [if_neg (Nat.not_le.2 hg)]
    exact ⟨rfl, rfl⟩

theorem nextAtom_none {s : State} (h : s.runs = []) (t g : Nat) : nextAtom s t g = none := by
  rw [nextAtom, h]
  rfl

/-- With no other command running, an atomic that has not read reads its granule at its write, and writes it then (R158). -/
theorem landAtom_unread {s : State} {r : Run} {g : Nat} (hruns : s.runs = []) (ht : (spanOf s r.seat).took = none) (t : Nat) :
    landAtom r g t s = dropAtom r g (writeAt t (some r.seat) g (atomRead r (granBytes s g) s)
      (g, (spanOf (atomRead r (granBytes s g) s) r.seat).result)) := by
  rw [landAtom, if_pos ht, nextAtom_none ((atomRead_doneKept ..).runs.trans hruns)]

theorem landAtom_alone {s : State} {r : Run} {x : Span} {a op v cmp d g : Nat} (hruns : s.runs = [])
    (hspans : s.spans = [(r.seat, x)]) (ht : x.took = none) (he : r.effs = [.atom a op v cmp d]) (hg : g < 2 ^ 40) (t : Nat) :
    (landAtom r g t s).mem = putBytes s.mem g (atomOn a op v cmp (readBytes s g 64)).2.1 ∧ (landAtom r g t s).ctxs = s.ctxs := by
  have ht' : (spanOf s r.seat).took = none := by rw [spanOf_single hspans, ht]
  rw [landAtom_unread hruns ht', atomRead_single he ht', granBytes_coreMem hg, spanOf_modSpan_single hspans]
  exact writeAt_coreMem hg ..

theorem addTot_mem_ctxs (i n : Nat) (s : State) : (addTot i n s).mem = s.mem ∧ (addTot i n s).ctxs = s.ctxs := by
  unfold addTot
  split <;> exact ⟨rfl, rfl⟩

/-- What an atomic that meets no other access changes at its done AC (R158, R162). -/
theorem applyEff_atom_alone {s : State} {r : Run} {x : Span} {a op v cmp d : Nat} (hruns : s.runs = [])
    (hspans : s.spans = [(r.seat, x)]) (ht : x.took = none) (hl : x.landed = []) (he : r.effs = [.atom a op v cmp d])
    (ha : a % 4 = 0) (hlt : a < 2 ^ 32) (hd : d < 16) :
    let u := (applyEff r (.atom a op v cmp d) s).1
    (∀ k, readByte u k = if a ≤ k ∧ k < a + 4 then (leBytes 4 (atomNew op (readLE s a 4) v cmp).1).getD (k - a) emptyByte
      else readByte s k) ∧ ctx u r.ctx = landAreg r.doneAc 3 d (BitVec.ofNat 64 (readLE s a 4)) (ctx s r.ctx) := by
  have hg : a / 64 * 64 < 2 ^ 40 := by omega
  obtain ⟨hm, hc⟩ := landAtom_alone hruns hspans ht he hg (writeEc s r (a / 64 * 64))
  obtain ⟨hm', hc'⟩ := addTot_mem_ctxs tATOMS 1 (landAtom r (a / 64 * 64) (writeEc s r (a / 64 * 64)) s)
  rw [applyEff, granBytes_coreMem hg, spanOf_single hspans, ht, hl]
  simp only [List.not_mem_nil, if_false, hd, if_true, Option.getD_none, atomOn_old ha]
  refine ⟨fun k => ?_, ?_⟩
  · rw [atomOn_old ha] at hm
    exact (congrArg (SMap.get emptyByte · k) (hm'.trans hm)).trans (get_putBytes_word ha _ s k)
  · rw [ctx_modCtx_same, ctx_congr _ (hc'.trans hc)]

/-! ### What the retirement of a command leaves -/

/-- The flags of a command reach the summary of its context alone (R119). -/
theorem addSummary_late (c : Ctx) (f : Flags) (tag : Nat) (s : State) :
    (addSummary c f tag s).mem = s.mem ∧ ∀ d : Ctx, (ctx (addSummary c f tag s) d).late = (ctx s d).late := by
  unfold addSummary
  split
  · exact ⟨rfl, fun _ => rfl⟩
  · refine ⟨rfl, fun d => ?_⟩
    by_cases hd : d = c
    · rw [hd, ctx_modCtx_same]
    · rw [ctx_modCtx_ne _ _ _ _ hd]

theorem noteLast_mem_ctxs (r : Run) (f : Flags) (s : State) : (noteLast r f s).mem = s.mem ∧ (noteLast r f s).ctxs = s.ctxs := by
  unfold noteLast
  split <;> exact ⟨rfl, rfl⟩

/-- A retirement leaves memory, and what is to land in address registers. -/
theorem noteDone_late (r : Run) (f : Flags) {s : State} (h : NoneCarried s) :
    (noteDone r f s).mem = s.mem ∧ ∀ c : Ctx, (ctx (noteDone r f s) c).late = (ctx s c).late := by
  obtain ⟨hm, hc⟩ := addSummary_late r.ctx f r.tag s
  obtain ⟨hm', hc'⟩ := noteLast_mem_ctxs r f (addSummary r.ctx f r.tag s)
  have hnone := ((addSummary_doneKept r.ctx f r.tag s).trans (noteLast_doneKept r f _)).carried h
  rw [noteDone, landCarried_none hnone]
  exact ⟨hm'.trans hm, fun c => (congrArg CtxSt.late (ctx_congr _ hc' c)).trans (hc c)⟩

end Sys2Proof.Machine

section
open Sys2Proof Sys2Proof.Machine Host

/-- Settles O20: the atomic reads and writes its granule at its done AC, nothing else being there, and its retirement leaves
memory alone; the word it writes is the operation's result on the old one. -/
theorem atomicReadModifyWrite : Obligations.AtomicReadModifyWrite := by
  intro s r x a op v cmp d hr he hop hseat hspans ht _ hl hdirty _ hn hdue htrip hstart ha hlt hd hv _ old
  have hx : exec .commandDone s = .next (finishRun r s) := by
    have hnext : nextDone (liveRuns s) = some r := by rw [liveRuns, htrip, hr]; exact nextDone_head r [] (by simp)
    show execCommandDone s = _
    simp [execCommandDone, hnext, hstart]
  have hal : Alone s r := .inr ⟨hr, x, hspans, hdirty, hl⟩
  obtain ⟨hruns, -, -⟩ := finishRun_completes hr he (by omega) hal hn
  obtain ⟨hm0, hc0, -⟩ := atDone_finds hdue r
  obtain ⟨-, -, -, hcar⟩ := noteDone_completes (f := .atom a op v cmp d) hr hn
  obtain ⟨hbyte, hctx⟩ := applyEff_atom_alone (s := atDone r s) (op := op) (v := v) (cmp := cmp) (by simp [atDone, hr])
    (by simpa [atDone, noteActive] using hspans) ht hl he ha hlt hd
  rw [show readLE (atDone r s) a 4 = old from readLE_congr hm0 ..] at hbyte hctx
  have hfin := (finishRun_alone hal he (by omega)).trans (if_neg (by omega))
  obtain ⟨hm, hlate⟩ := noteDone_late r (fNone ||| (applyEff r (.atom a op v cmp d) (atDone r s)).2) hcar
  have hbyte' (k : Nat) := (readByte_congr _ hm k).trans (hbyte k)
  rw [← hfin] at hbyte' hlate
  have hword : readLE (finishRun r s) a 4 = (atomNew op old v cmp).1 % 2 ^ 32 :=
    (readLE_of_bytes (length_leBytes ..) fun k h1 h2 => (hbyte' k).trans (if_pos ⟨h1, h2⟩)).trans (ofLE_leBytes ..)
  have hold : old < 2 ^ 32 := (ofLE_lt _).trans_eq (by simp)
  refine ⟨_, hx, hruns, ?_, fun k hk => ?_, ?_, ?_, ?_, ?_, ?_, ?_, ?_, ?_, ?_, ?_⟩
  · rw [hlate, hctx, ctx_congr s hc0]
    rfl
  · rw [hbyte', if_neg (by omega), readByte_congr s hm0]
  all_goals
    rintro rfl
    rw [hword]
  · exact Nat.mod_eq_of_lt hold
  · exact Nat.mod_eq_of_lt hv
  · refine Nat.mod_eq_of_lt (?_ : (if old = cmp then v else old) < 2 ^ 32)
    split
    · exact hv
    · exact hold
  · exact Nat.mod_mod ..
  · exact Nat.mod_eq_of_lt (max_lt hold hv)
  · exact Nat.mod_eq_of_lt (min_lt_of_left_lt hold)
  · exact Nat.mod_eq_of_lt (Nat.and_lt_two_pow _ hv)
  · exact Nat.mod_eq_of_lt (Nat.or_lt_two_pow hold hv)
  · exact Nat.mod_eq_of_lt (Nat.xor_lt_two_pow hold hv)
  · refine Nat.mod_eq_of_lt (?_ : (if v ≤ old then 0 else old + 1) < 2 ^ 32)
    split <;> omega

end

/-!
## Arrivals: what the end of a transfer leaves (R183, R219, R300, R324, R335)
-/

namespace Sys2Proof.Machine

/-! ### Transfers that have asked for all they need -/

/-- A transfer that has no line more to ask for. -/
structure Job.Asked (j : Job) : Prop where
  kind : j.kind ≠ .serve
  rows : rowsOfJob j ≤ j.row
  checks : verifyLeft j = false

/-- It makes no request for external memory (R299). -/
theorem Job.Asked.canRequest {j : Job} (h : j.Asked) (s : State) : canRequest s j = false := by
  have hnone : nextReq s j = none := by
    unfold nextReq
    split
    · rfl
    · rw [if_neg (Nat.not_lt.2 h.rows)]
      split
      · rename_i hv
        have hfind : j.chks.find? (fun k => k.sealed && !k.done && decide (k.asked ≠ 2 ^ 128 - 1)) = none := by
          have hc := h.checks
          simpa [verifyLeft, hv] using hc
        rw [hfind]
      · rfl
  rw [Machine.canRequest, hnone, Bool.and_false]

theorem pump_asked {s : State} (h : ∀ j ∈ s.xfer.jobs, j.Asked) (n : Nat) : pump n s = s :=
  pump_ind (P := fun t => t = s) (fun t k ht hmem hcan => by
    subst ht
    rw [(h k hmem).canRequest] at hcan
    cases hcan) n rfl

theorem pumpSm_asked {s : State} (h : ∀ j ∈ s.xfer.jobs, j.Asked) (n : Nat) : pumpSm n s = s := by
  cases n with
  | zero => rfl
  | succ n =>
    have hnone : smNext s = none := Option.eq_none_iff_forall_ne_some.2 fun k hk => by
      obtain ⟨hmem, hrow⟩ := smNext_some hk
      exact absurd (h k hmem).rows (Nat.not_le.2 hrow)
    rw [pumpSm, hnone]

/-! ### COPYs from host memory (R348, R414) -/

/-- What a COPY asks of host memory reaches its own place, the reads that are out, and what leaves the core. -/
theorem askHost_frame (id n : Nat) (s : State) : ∃ o h l, askHost id n s =
    { s with out := o, xfer := { s.xfer with hreads := h, jobs := l } } := by
  induction n generalizing s with
  | zero => exact ⟨_, _, _, rfl⟩
  | succ n ih =>
    unfold askHost
    split
    · exact ⟨_, _, _, rfl⟩
    · split
      · exact ⟨_, _, _, rfl⟩
      · split
        · exact ⟨_, _, _, rfl⟩
        · rename_i u hu
          obtain ⟨t, -, rfl⟩ := Option.map_eq_some_iff.1 hu
          obtain ⟨o, h, l, hi⟩ := ih _
          exact ⟨o, h, l, hi⟩

theorem askAll_frame (s : State) : ∃ o h l, askAll s = { s with out := o, xfer := { s.xfer with hreads := h, jobs := l } } := by
  unfold askAll
  generalize (s.xfer.jobs.filter _).map _ = ids
  induction ids generalizing s with
  | nil => exact ⟨_, _, _, rfl⟩
  | cons id ids ih =>
    obtain ⟨o, h, l, hs⟩ := askHost_frame id 256 s
    obtain ⟨o', h', l', ht⟩ := ih (askHost id 256 s)
    exact ⟨o', h', l', ht.trans (by rw [hs])⟩

theorem askAll_noJobs {s : State} (h : s.xfer.jobs = []) : askAll s = s := by
  rw [askAll, h]
  rfl

/-- With every transfer's requests made and nothing held, only COPYs go on after a landing. -/
theorem afterLanding_asked {s : State} (hheld : NoHeldPacket s) (h : ∀ j ∈ s.xfer.jobs, j.Asked) : afterLanding s = askAll s := by
  rw [afterLanding, pumpAll_eq hheld fun j hj => (h j hj).kind, pump_asked h, pumpSm_asked h]

/-! ### What the end of a transfer leaves -/

theorem heldIn_modPort {p : Nat} {f : PortSt → PortSt} (hf : ∀ q, (f q).heldIn = q.heldIn) (s : State) (k : Nat) :
    (port (modPort p f s) k).heldIn = (port s k).heldIn := by
  by_cases hk : k = p
  · rw [hk, port_modPort_same, hf]
  · simp [port, modPort, SMap.get_mod_ne _ _ hk]

/-- What the end of a transfer leaves: bytes, queues, banks, arrivals, and what waits in the ports' buffers; no transfer has
more to ask for than before. -/
structure SettleKept (s t : State) : Prop where
  mem : t.mem = s.mem
  queues : t.queues = s.queues
  banks : t.banks = s.banks
  arrivals : t.xfer.arrivals = s.xfer.arrivals
  fill : t.rsl.fill.late = s.rsl.fill.late
  held : ∀ p, (port t p).heldIn = (port s p).heldIn
  asked : (∀ j ∈ s.xfer.jobs, j.Asked) → ∀ j ∈ t.xfer.jobs, j.Asked

namespace SettleKept
variable {s t u : State}

theorem refl (s : State) : SettleKept s s := ⟨rfl, rfl, rfl, rfl, rfl, fun _ => rfl, id⟩

theorem trans (h : SettleKept s t) (h' : SettleKept t u) : SettleKept s u :=
  ⟨h'.mem.trans h.mem, h'.queues.trans h.queues, h'.banks.trans h.banks, h'.arrivals.trans h.arrivals, h'.fill.trans h.fill,
    fun p => (h'.held p).trans (h.held p), h'.asked ∘ h.asked⟩

theorem ite {c : Prop} [Decidable c] (h : SettleKept s t) (h' : SettleKept s u) : SettleKept s (if c then t else u) := by
  split
  · exact h
  · exact h'

theorem noHeldPacket (h : SettleKept s t) (hs : NoHeldPacket s) : NoHeldPacket t :=
  ⟨(h.held 0).trans hs.1, (h.held 1).trans hs.2.1, h.fill.trans hs.2.2⟩

end SettleKept

variable (s : State)

theorem modXmu_settleKept (f : XmuSt → XmuSt) : SettleKept s (modXmu f s) := ⟨rfl, rfl, rfl, rfl, rfl, fun _ => rfl, id⟩
theorem modCtx_settleKept (c : Ctx) (f : CtxSt → CtxSt) : SettleKept s (modCtx s c f) := ⟨rfl, rfl, rfl, rfl, rfl, fun _ => rfl, id⟩
theorem modStash_settleKept (c : Nat) (f : Stash → Stash) : SettleKept s (modStash c f s) :=
  ⟨rfl, rfl, rfl, rfl, rfl, fun _ => rfl, id⟩
theorem trace_settleKept (r : TraceRec) : SettleKept s (trace r s) := ⟨rfl, rfl, rfl, rfl, rfl, fun _ => rfl, id⟩

theorem raise_settleKept (cls p op v : Nat) (cause : Cause) : SettleKept s (raise cls p op v cause s) := by
  rw [raise_frame]
  exact ⟨rfl, rfl, rfl, rfl, rfl, fun _ => rfl, id⟩

theorem tick_settleKept : SettleKept s (tick s) := by
  rw [tick, advance_frame]
  exact ⟨rfl, rfl, rfl, rfl, rfl, fun _ => rfl, id⟩

theorem modPort_settleKept (p : Nat) {f : PortSt → PortSt} (hf : ∀ q, (f q).heldIn = q.heldIn) : SettleKept s (modPort p f s) :=
  ⟨rfl, rfl, rfl, rfl, rfl, heldIn_modPort hf s, id⟩

theorem modLnk_settleKept {f : LnkSt → LnkSt} (hf : ∀ k, (f k).ports = k.ports) : SettleKept s (modLnk f s) :=
  ⟨rfl, rfl, rfl, rfl, rfl, fun p => by rw [port, modLnk, hf]; rfl, id⟩

theorem modJob_settleKept (id : Nat) {f : Job → Job} (hf : ∀ j, j.Asked → (f j).Asked) : SettleKept s (modJob id f s) := by
  refine ⟨rfl, rfl, rfl, rfl, rfl, fun _ => rfl, fun h j hj => ?_⟩
  obtain ⟨k, hk, rfl⟩ := List.mem_map.1 hj
  split
  · exact hf k (h k hk)
  · exact h k hk

theorem dropJob_settleKept (id : Nat) : SettleKept s (dropJob id s) := by
  have h : SettleKept s { s with xfer := { s.xfer with jobs := s.xfer.jobs.filter (fun j => decide (j.id ≠ id)) } } :=
    ⟨rfl, rfl, rfl, rfl, rfl, fun _ => rfl, fun h j hj => h j (List.mem_of_mem_filter hj)⟩
  exact .ite h (h.trans (modXmu_settleKept ..))

theorem countUnchecked_settleKept (j : Job) : SettleKept s (countUnchecked j s) := .ite (.refl s) (modXmu_settleKept ..)

theorem traceDone_settleKept (j : Job) : SettleKept s (traceDone j s) := .ite (trace_settleKept ..) (.refl s)

theorem raiseJob_settleKept (j : Job) : SettleKept s (raiseJob j s) :=
  .ite (.refl s) (.ite (traceDone_settleKept ..) ((traceDone_settleKept ..).trans (raise_settleKept ..)))

theorem endCopy_settleKept (j : Job) : SettleKept s (endCopy j s) := by
  unfold endCopy
  split
  · rw [complete_frame, ringDone_frame]
    exact ⟨rfl, rfl, rfl, rfl, rfl, fun _ => rfl, id⟩
  · exact .refl s

theorem endFetch_settleKept (j : Job) : SettleKept s (endFetch j s) :=
  .ite (modStash_settleKept ..) ((modStash_settleKept ..).trans ((modCtx_settleKept ..).trans
    ((traceDone_settleKept ..).trans (raise_settleKept ..))))

theorem respond_settleKept (p : Nat) (req : Packet) (kind status : Nat) (data : List W8) :
    SettleKept s (respond p req kind status data s) := by
  have h : SettleKept s { s with free := s.free + 2 } := ⟨rfl, rfl, rfl, rfl, rfl, fun _ => rfl, id⟩
  exact .ite (h.trans (modPort_settleKept _ _ fun _ => rfl)) (h.trans (modPort_settleKept _ _ fun _ => rfl))

theorem dropCmd_settleKept (c : InCmd) : SettleKept s (dropCmd c s) := by
  unfold dropCmd endWriter
  refine .trans ?_ (modXmu_settleKept ..)
  exact modLnk_settleKept s fun _ => rfl

theorem closeCmd_settleKept (c : InCmd) : SettleKept s (closeCmd c s) := .ite (dropCmd_settleKept ..) (.refl s)

theorem noteLost_settleKept (c : InCmd) : SettleKept s (noteLost c s) := modLnk_settleKept s fun _ => rfl

/-- The increments of inbound packets take their turns (R333). -/
theorem applyIncrs_settleKept (key : Nat × Nat) (n : Nat) : SettleKept s (applyIncrs key n s) := by
  induction n generalizing s with
  | zero => exact .refl s
  | succ n ih =>
    unfold applyIncrs
    split
    · exact .refl s
    · refine .ite (.refl s) ?_
      extract_lets c lost u v w x
      have hv : SettleKept s v := (dropJob_settleKept ..).trans (.ite (raiseJob_settleKept ..) (.refl u))
      have hw : SettleKept s w := hv.trans (.ite (noteLost_settleKept ..) (.refl v))
      have hx : SettleKept s x := hw.trans (.ite (modLnk_settleKept w fun _ => rfl) (.refl w))
      exact (hx.trans (closeCmd_settleKept ..)).trans (ih _)

theorem endLinkIn_settleKept (j : Job) : SettleKept s (endLinkIn j s) := by
  unfold endLinkIn
  extract_lets u v
  have hv : SettleKept u v := modJob_settleKept _ _ fun _ h => ⟨h.kind, h.rows, h.checks⟩
  exact ((respond_settleKept ..).trans hv).trans (applyIncrs_settleKept ..)

theorem settleJob_settleKept (id : Nat) : SettleKept s (settleJob id s) := by
  unfold settleJob
  split
  · exact .refl s
  · rename_i j _
    refine .ite (.refl s) ?_
    have hdrop : SettleKept s (dropJob id (countUnchecked j s)) := (countUnchecked_settleKept ..).trans (dropJob_settleKept ..)
    split
    any_goals exact hdrop.trans (raiseJob_settleKept ..)
    · exact hdrop.trans (endFetch_settleKept ..)
    · exact (hdrop.trans (raiseJob_settleKept ..)).trans (endCopy_settleKept ..)
    · exact .ite (.refl s) (endLinkIn_settleKept ..)
    · exact .ite (dropJob_settleKept ..) (.refl s)
    · exact hdrop.trans (respond_settleKept ..)
    · exact .refl s

end Sys2Proof.Machine

/-!
## Arrivals: a granule moves in its slots (R21, R157, R182, R184)
-/

namespace Sys2Proof.Machine

/-! ### Masked writes -/

theorem readByte_writeMasked (s : State) (a : Nat) (bs : List (Option W8)) (k : Nat) :
    readByte (writeMasked s a bs) k = if a ≤ k then (bs.getD (k - a) none).getD (readByte s k) else readByte s k := by
  induction bs generalizing s a with
  | nil => simp [writeMasked]
  | cons b bs ih =>
    have hwrite (u : State) (hu : ∀ k, readByte u k = if k = a then b.getD (readByte s k) else readByte s k) :
        readByte (writeMasked u (a + 1) bs) k =
          if a ≤ k then ((b :: bs).getD (k - a) none).getD (readByte s k) else readByte s k := by
      rw [ih, hu]
      obtain hlt | rfl | hgt := Nat.lt_trichotomy k a
      · rw [if_neg (by omega), if_neg (by omega), if_neg (by omega)]
      · rw [if_neg (by omega), if_pos rfl, if_pos le_rfl, Nat.sub_self, List.getD_cons_zero]
      · rw [if_pos (by omega), if_neg (by omega), if_pos (by omega), show k - a = k - (a + 1) + 1 by omega, List.getD_cons_succ]
    cases b with
    | none => exact hwrite s fun k => by simp
    | some b =>
      refine hwrite (writeBytes s a [b]) fun k => ?_
      rw [readByte_writeBytes]
      by_cases hk : k = a
      · rw [if_pos (by simp; omega), if_pos hk, hk, Nat.sub_self]
        rfl
      · rw [if_neg (by simp; omega), if_neg hk]

/-! ### What the move of a granule leaves -/

/-- What the move of a granule leaves: all but time, bytes, check marks, spans, and what is counted of it. -/
structure MoveKept (s t : State) : Prop where
  grade : t.grade = s.grade
  queues : t.queues = s.queues
  ctxs : t.ctxs = s.ctxs
  syn : t.syn = s.syn
  xfer : t.xfer = s.xfer
  lnk : t.lnk = s.lnk
  rsl : t.rsl = s.rsl

namespace MoveKept
variable {s t u : State}

theorem refl (s : State) : MoveKept s s := ⟨rfl, rfl, rfl, rfl, rfl, rfl, rfl⟩

theorem trans (h : MoveKept s t) (h' : MoveKept t u) : MoveKept s u :=
  ⟨h'.grade.trans h.grade, h'.queues.trans h.queues, h'.ctxs.trans h.ctxs, h'.syn.trans h.syn, h'.xfer.trans h.xfer,
    h'.lnk.trans h.lnk, h'.rsl.trans h.rsl⟩

end MoveKept

theorem writeMasked_moveKept (s : State) (a : Nat) (bs : List (Option W8)) :
    MoveKept s (writeMasked s a bs) ∧ (writeMasked s a bs).ec = s.ec ∧ (writeMasked s a bs).banks = s.banks := by
  induction bs generalizing s a with
  | nil => exact ⟨.refl s, rfl, rfl⟩
  | cons b bs ih =>
    cases b with
    | none => exact ih s (a + 1)
    | some b =>
      obtain ⟨hk, he, hb⟩ := ih (writeBytes s a [b]) (a + 1)
      have h : MoveKept s (writeBytes s a [b]) := ⟨rfl, rfl, rfl, rfl, rfl, rfl, rfl⟩
      exact ⟨h.trans hk, he, hb⟩

/-! ### Time passes to a slot (R20, R21) -/

theorem takeSlot_shape (owner : Nat) (s : State) (g : Nat) : ∃ c, (takeSlot owner s g).2 = { s with cm := c } := ⟨_, rfl⟩

/-- With nothing due, time alone passes to the slots of granules, and the slots are taken. -/
theorem takeSlots_shape {s : State} (hdue : NothingDue s) (owner : Nat) (gs : List Nat) : ∃ c e w x,
    takeSlots owner gs s = { s with cm := c, ec := e, wall := w, stretched := x } := by
  have key (p : Nat × State) : ∃ n c, gs.foldl (fun (p : Nat × State) g =>
      let x := takeSlot owner p.2 g; (Nat.max p.1 x.1, x.2)) p = (n, { p.2 with cm := c }) := by
    induction gs generalizing p with
    | nil => exact ⟨_, _, rfl⟩
    | cons g gs ih =>
      obtain ⟨c, h⟩ := takeSlot_shape owner p.2 g
      obtain ⟨n, c', hi⟩ := ih (Nat.max p.1 (takeSlot owner p.2 g).1, (takeSlot owner p.2 g).2)
      exact ⟨n, c', by rw [List.foldl_cons, hi, h]⟩
  obtain ⟨n, c, h⟩ := key (s.ec, s)
  obtain ⟨e, w, x, ha, -⟩ := advance_shape (s := { s with cm := c }) hdue n
  refine ⟨c, e, w, x, ?_⟩
  rw [takeSlots, h]
  exact ha

/-! ### Granules that no command has still to write -/

theorem NoneOwes.congr {s t : State} {g : Nat} (h : NoneOwes s g) (hr : t.runs = s.runs) (hs : t.spans = s.spans) :
    NoneOwes t g := by
  unfold NoneOwes owesGran spanOf
  rw [hr, hs]
  exact h

namespace NoneOwes
variable {s : State} {g : Nat}

theorem settleGran (h : NoneOwes s g) (t : Nat) : settleGran t g s = s := by
  have hfirst : firstDue s t none g = none := by
    rw [firstDue, List.filter_eq_nil_iff.2 fun r hr => by simp [h r hr]]
    rfl
  unfold Machine.settleGran
  cases touchFuel s with
  | zero => rfl
  | succ n => rw [touch, hfirst]

/-- No write of the engines comes between an access to the granule and its slot (R271). -/
theorem reach (h : NoneOwes s g) (hdue : NothingDue s) (owner : Nat) : reach owner [g] s = takeSlots owner [g] s := by
  obtain ⟨c, e, w, x, ht⟩ := takeSlots_shape hdue owner [g]
  have hu : NoneOwes (takeSlots owner [g] s) g := h.congr (by rw [ht]) (by rw [ht])
  rw [Machine.reach, settleGrans, List.foldl_cons, List.foldl_nil, hu.settleGran]

theorem reachRead (h : NoneOwes s g) (hdue : NothingDue s) (owner : Nat) : reachRead owner [g] s = takeSlots owner [g] s := by
  obtain ⟨c, e, w, x, ht⟩ := takeSlots_shape hdue owner [g]
  have hu : NoneOwes (takeSlots owner [g] s) g := h.congr (by rw [ht]) (by rw [ht])
  unfold Machine.reachRead
  extract_lets u
  rw [List.foldl_cons, List.foldl_nil, hu.settleGran]

/-- No atomic is between its read and its write (R159). -/
theorem lostAt (h : NoneOwes s g) (t : Nat) : lostAt s t g = false :=
  List.any_eq_false.2 fun r hr => by simp [h r hr]

theorem nextAtom (h : NoneOwes s g) (t : Nat) : nextAtom s t g = none := by
  rw [Machine.nextAtom, List.filter_eq_nil_iff.2 fun r hr => by simp [h r hr]]
  rfl

/-- No atomic holds a result of the granule (R158). -/
theorem takePending (h : NoneOwes s g) (t n : Nat) : takePending t g n none [] s = (s, none, []) := by
  have hfind : s.runs.find? (fun r => (spanOf s r.seat).atom && (spanOf s r.seat).took.isSome && owesGran s r g &&
      decide (readEc s r.seat (spanOf s r.seat) g ≤ t)) = none := List.find?_eq_none.2 fun r hr => by simp [h r hr]
  cases n with
  | zero => rfl
  | succ n => simp only [Machine.takePending, hfind, h.nextAtom]

end NoneOwes

/-! ### A plain granule (R182) -/

/-- A plain granule has moved: what is written, and the slot that is taken. -/
def plainMoved (a : Arr) (s : State) : State := writeMasked (takeSlots ownIn [a.gran] s) a.gran a.bs

theorem plainWrite_moved {s : State} {a : Arr} (hdue : NothingDue s) (howes : NoneOwes s a.gran) :
    plainWrite a.gran a.bs (reach ownIn [a.gran] s) = plainMoved a s := by
  obtain ⟨c, e, w, x, ht⟩ := takeSlots_shape hdue ownIn [a.gran]
  have hu : NoneOwes (takeSlots ownIn [a.gran] s) a.gran := howes.congr (by rw [ht]) (by rw [ht])
  rw [howes.reach hdue, plainWrite, hu.lostAt, if_neg Bool.false_ne_true, plainMoved]

theorem plainMoved_moveKept {s : State} (hdue : NothingDue s) (a : Arr) :
    MoveKept s (plainMoved a s) ∧ (plainMoved a s).ec = (takeSlots ownIn [a.gran] s).ec ∧ (plainMoved a s).banks = s.banks := by
  obtain ⟨c, e, w, x, ht⟩ := takeSlots_shape hdue ownIn [a.gran]
  obtain ⟨hk, he, hb⟩ := writeMasked_moveKept (takeSlots ownIn [a.gran] s) a.gran a.bs
  exact ⟨.trans (by rw [ht]; exact ⟨rfl, rfl, rfl, rfl, rfl, rfl, rfl⟩) hk, he, hb.trans (by rw [ht])⟩

theorem readByte_plainMoved {s : State} (hdue : NothingDue s) (a : Arr) (k : Nat) : readByte (plainMoved a s) k =
    if a.gran ≤ k then (a.bs.getD (k - a.gran) none).getD (readByte s k) else readByte s k := by
  obtain ⟨c, e, w, x, ht⟩ := takeSlots_shape hdue ownIn [a.gran]
  rw [plainMoved, readByte_writeMasked, readByte_congr s (t := takeSlots ownIn [a.gran] s) (by rw [ht])]

/-! ### A combined granule (R157, R158) -/

/-- The granule that a combine writes: what the code makes of its elements, and what stood there for the others (R157). -/
def combinedBytes (a : Arr) (s : State) : List W8 :=
  let old := readBytes s a.gran 64
  (List.range 64).map fun i => ((combGranule a.comb old a.bs).getD i none).getD (old.getD i 0#8)

/-- A combine has read its granule: the record of an element with only some bytes enabled (R157). -/
def combineNoted (j : Job) (a : Arr) (s : State) : State :=
  if combPartial a.comb a.bs then advise cPARTIAL j.blame [bankOf s.grade a.gran, granOf s.grade a.gran] s else s

/-- A combine is counted. -/
def combineCounted (a : Arr) (s : State) : State :=
  addTot tCOMB 1 { s with pin := { s.pin with
    combines := if a.gran < bankBytes s then (s.pin.combines + 1) % 2 ^ 32 else s.pin.combines } }

/-- A combined granule has moved: it is read in one slot and written in the next. -/
def combinedMoved (j : Job) (a : Arr) (s : State) : State :=
  let u := combineNoted j a (noteRead (takeSlots ownIn [a.gran] s) a.gran)
  let v := combineCounted a (takeSlots ownIn [a.gran] u)
  writeRmw v.ec a.gran (combinedBytes a u) v

/-- What the notes of a combine leave: bytes, and the commands that run. -/
structure NoteKept (s t : State) : Prop extends MoveKept s t where
  mem : t.mem = s.mem
  runs : t.runs = s.runs
  spans : t.spans = s.spans

theorem NoteKept.trans {s t u : State} (h : NoteKept s t) (h' : NoteKept t u) : NoteKept s u :=
  ⟨h.toMoveKept.trans h'.toMoveKept, h'.mem.trans h.mem, h'.runs.trans h.runs, h'.spans.trans h.spans⟩

theorem takeSlots_noteKept {s : State} (hdue : NothingDue s) (owner : Nat) (gs : List Nat) :
    NoteKept s (takeSlots owner gs s) := by
  obtain ⟨c, e, w, x, h⟩ := takeSlots_shape hdue owner gs
  rw [h]
  exact ⟨⟨rfl, rfl, rfl, rfl, rfl, rfl, rfl⟩, rfl, rfl, rfl⟩

theorem noteRead_noteKept (g : Nat) (s : State) : NoteKept s (noteRead s g) :=
  noteRead_ind s g (P := NoteKept s) ⟨.refl s, rfl, rfl, rfl⟩ fun _ _ => ⟨⟨rfl, rfl, rfl, rfl, rfl, rfl, rfl⟩, rfl, rfl, rfl⟩

theorem advise_noteKept (code : Nat) (cause : Cause) (d : List Nat) (s : State) : NoteKept s (advise code cause d s) := by
  rw [advise_frame]
  exact ⟨⟨rfl, rfl, rfl, rfl, rfl, rfl, rfl⟩, rfl, rfl, rfl⟩

theorem addTot_noteKept (i n : Nat) (s : State) : NoteKept s (addTot i n s) := by
  unfold addTot
  split
  · exact ⟨.refl s, rfl, rfl, rfl⟩
  · exact ⟨⟨rfl, rfl, rfl, rfl, rfl, rfl, rfl⟩, rfl, rfl, rfl⟩

theorem combineNoted_noteKept (j : Job) (a : Arr) (s : State) : NoteKept s (combineNoted j a s) := by
  unfold combineNoted
  split
  · exact advise_noteKept ..
  · exact ⟨.refl s, rfl, rfl, rfl⟩

theorem combineCounted_noteKept (a : Arr) (s : State) : NoteKept s (combineCounted a s) := by
  have h (p : PinSt) : NoteKept s { s with pin := p } := ⟨⟨rfl, rfl, rfl, rfl, rfl, rfl, rfl⟩, rfl, rfl, rfl⟩
  exact (h _).trans (addTot_noteKept ..)

/-- The writes that a combine makes lost are marked as done (R159). -/
theorem loseWrites_shape (t g : Nat) (s : State) : ∃ l : SMap Span, loseWrites t g s = { s with spans := l } := by
  unfold loseWrites
  refine List.foldlRecOn (motive := fun u => ∃ l : SMap Span, u = { s with spans := l }) _ _ ⟨s.spans, rfl⟩ fun u hu r _ => ?_
  obtain ⟨l, rfl⟩ := hu
  split <;> exact ⟨_, rfl⟩

theorem writeRmw_moveKept (t g : Nat) (bs : List W8) (s : State) :
    MoveKept s (writeRmw t g bs s) ∧ (writeRmw t g bs s).mem = putBytes s.mem g bs := by
  obtain ⟨l, h⟩ := loseWrites_shape t g (noteWrite s t none [g])
  rw [writeRmw, h]
  exact ⟨⟨rfl, rfl, rfl, rfl, rfl, rfl, rfl⟩, rfl⟩

theorem combinedMoved_moveKept {s : State} (hdue : NothingDue s) (j : Job) (a : Arr) : MoveKept s (combinedMoved j a s) ∧
    (combinedMoved j a s).mem = putBytes s.mem a.gran (combinedBytes a s) := by
  have h1 := (takeSlots_noteKept hdue ownIn [a.gran]).trans ((noteRead_noteKept a.gran _).trans (combineNoted_noteKept j a _))
  have h2 := h1.trans ((takeSlots_noteKept (hdue.congr h1.syn) ownIn [a.gran]).trans (combineCounted_noteKept a _))
  have hold : combinedBytes a (combineNoted j a (noteRead (takeSlots ownIn [a.gran] s) a.gran)) = combinedBytes a s := by
    unfold combinedBytes readBytes
    rw [funext (readByte_congr s h1.mem)]
  obtain ⟨hk, hm⟩ := writeRmw_moveKept _ a.gran (combinedBytes a s) _
  unfold combinedMoved
  dsimp only
  rw [hold]
  exact ⟨h2.toMoveKept.trans hk, hm.trans (by rw [h2.mem])⟩

/-- A combined granule at which no command has still to write, and that can be read, moves (R157). -/
theorem combineArr_moved {s : State} {j : Job} {a : Arr} (hdue : NothingDue s) (howes : NoneOwes s a.gran)
    (hue : granUncorrectable s a.gran = false) : combineArr id j a s = (noteArrival a (combinedMoved j a s), none) := by
  have hslot := takeSlots_noteKept hdue ownIn [a.gran]
  have hgood : granUncorrectable (takeSlots ownIn [a.gran] s) a.gran = false := by
    obtain ⟨c, e, w, x, ht⟩ := takeSlots_shape hdue ownIn [a.gran]
    rw [ht]
    exact hue
  have howesRead := howes.congr hslot.runs hslot.spans
  have hread := noteRead_noteKept a.gran (takeSlots ownIn [a.gran] s)
  have hmoved := combinedMoved.eq_1 j a s
  unfold combineArr
  rw [howes.reachRead hdue, hmoved, ← hslot.grade, ← hread.grade]
  generalize takeSlots ownIn [a.gran] s = u at *
  extract_lets +onlyGivenNames b u'
  have hb : b = bankOf (noteRead u a.gran).grade a.gran := rfl
  clear_value b
  rw [howesRead.takePending]
  dsimp -zeta only
  extract_lets +onlyGivenNames bad read
  have hbad : ¬bad = true := ne_true_of_eq_false hgood
  have hreadEq : read = noteRead u a.gran := if_pos rfl
  rw [← hreadEq] at hb hread
  rw [if_neg hbad, ← hreadEq]
  clear_value read
  subst hb
  extract_lets noted old comb new slot pins taken counted
  have hnoted : NoteKept u noted := hread.trans (combineNoted_noteKept j a read)
  have hslot' : NoteKept noted slot :=
    takeSlots_noteKept ((hdue.congr hslot.syn).congr hnoted.syn) ownIn [a.gran]
  have hcounted : NoteKept slot counted := combineCounted_noteKept a slot
  have hall := (hnoted.trans hslot').trans hcounted
  have hnew : new = combinedBytes a (combineNoted j a read) := rfl
  have heq : counted = combineCounted a (takeSlots ownIn [a.gran] (combineNoted j a read)) := rfl
  rw [(howesRead.congr hall.runs hall.spans).nextAtom, ← hnew, ← heq]
  dsimp -zeta only
  rw [List.foldl_nil]

end Sys2Proof.Machine

/-!
## Arrivals: a granule that lands, and the end of its transfer (R157, R182, R183)
-/

namespace Sys2Proof.Machine

theorem readByte_combinedMoved {s : State} (hdue : NothingDue s) (j : Job) (a : Arr) (k : Nat) :
    readByte (combinedMoved j a s) k = if a.gran ≤ k then
      ((combGranule a.comb (readBytes s a.gran 64) a.bs).getD (k - a.gran) none).getD (readByte s k) else readByte s k := by
  have hbytes : readByte (combinedMoved j a s) k = if a.gran ≤ k ∧ k < a.gran + 64 then
      (combinedBytes a s).getD (k - a.gran) emptyByte else readByte s k := by
    rw [readByte, (combinedMoved_moveKept hdue j a).2, get_putBytes, show (combinedBytes a s).length = 64 by simp [combinedBytes]]
    rfl
  rw [hbytes]
  by_cases hge : a.gran ≤ k
  · by_cases hlt : k < a.gran + 64
    · rw [if_pos ⟨hge, hlt⟩, if_pos hge, combinedBytes, getD_map_range, if_pos (by omega), readBytes, getD_map_range,
        if_pos (by omega), Nat.add_sub_cancel' hge]
    · rw [if_neg (by omega), if_pos hge, List.getD_eq_default _ _ (by rw [length_combGranule]; omega), Option.getD_none]
  · rw [if_neg (by omega), if_neg hge]

/-! ### An arrival that may land -/

/-- The arrival at the head of the path, of the only transfer, which has no line more to ask for; it may land, nothing else
waits to come about, and no running command has still to write its granule. -/
structure Arrives (s : State) (a : Arr) (rest : List Arr) (j : Job) : Prop where
  arrivals : s.xfer.arrivals = a :: rest
  jobs : s.xfer.jobs = [j]
  job : j.id = a.job
  carrier : a.carrier = none
  asked : j.Asked
  held : NoHeldPacket s
  due : NothingDue s
  owes : NoneOwes s a.gran
  lands : noLanding j a s = none

/-- A granule has moved: it leaves the arrival path, and what waits for the whole of its transfer comes in the EC after (R183). -/
def afterMove (a : Arr) (s : State) : State :=
  let u := leavePath a s
  match findJob u a.job with
  | none => u
  | some j => settleJob a.job (if jobIdle u j then tick u else u)

/-- A transfer of which a granule has landed: a COPY counts the bytes it has performed (R348). -/
def Job.lands (a : Arr) (k : Job) : Job :=
  if k.kind = .copy ∧ k.halted = false then { k with bytes := k.bytes + (a.bs.filter Option.isSome).length } else k

theorem Job.lands_id (a : Arr) (k : Job) : (k.lands a).id = k.id := by
  unfold Job.lands
  split <;> rfl

theorem Job.Asked.lands {k : Job} (h : k.Asked) (a : Arr) : (k.lands a).Asked := by
  unfold Job.lands
  split
  · exact ⟨h.kind, h.rows, h.checks⟩
  · exact h

theorem Job.lands_left (a : Arr) (k : Job) : (k.lands a).out = k.out ∧ (k.lands a).acks = k.acks := by
  unfold Job.lands
  split <;> exact ⟨rfl, rfl⟩

theorem Job.lands_of_ne_copy {k : Job} (h : k.kind ≠ .copy) (a : Arr) : k.lands a = k := if_neg fun hc => h hc.1

/-- A granule that has landed is counted by its transfer and by its bank (R184, R348). -/
theorem noteArrival_eq (a : Arr) (s : State) : noteArrival a s =
    if a.gran < bankBytes s then modBank (modJob a.job (Job.lands a) s) (bankOf s.grade a.gran)
      (fun b => { b with arrivals := (b.arrivals + 1) % 2 ^ 32 })
    else modJob a.job (Job.lands a) s := rfl

theorem noteArrival_rest (a : Arr) (s : State) : (noteArrival a s).mem = s.mem ∧ (noteArrival a s).queues = s.queues ∧
    (noteArrival a s).ctxs = s.ctxs ∧ (noteArrival a s).syn = s.syn ∧ (noteArrival a s).ec = s.ec ∧
    (noteArrival a s).lnk = s.lnk ∧ (noteArrival a s).rsl = s.rsl ∧
    (noteArrival a s).xfer = (modJob a.job (Job.lands a) s).xfer := by
  rw [noteArrival_eq]
  split <;> exact ⟨rfl, rfl, rfl, rfl, rfl, rfl, rfl, rfl⟩

theorem bank_noteArrival {a : Arr} {s : State} (h : a.gran < bankBytes s) : bank (noteArrival a s) (bankOf s.grade a.gran) =
    { bank s (bankOf s.grade a.gran) with arrivals := ((bank s (bankOf s.grade a.gran)).arrivals + 1) % 2 ^ 32 } := by
  rw [noteArrival_eq, if_pos h, bank_modBank_same]
  rfl

/-- Credits reach their port and what leaves the core (R326, R415). -/
theorem returnCredits_frame (p : Nat) (vc : VChan) (s : State) : returnCredits p vc s =
    { s with lnk := (returnCredits p vc s).lnk, out := (returnCredits p vc s).out } := by
  unfold returnCredits
  extract_lets q g n u
  split <;> rfl

theorem giveBack_frame (h : Hold) (n : Nat) (s : State) : giveBack h n s =
    { s with lnk := (giveBack h n s).lnk, out := (giveBack h n s).out } := by
  unfold giveBack
  split
  · rename_i p vc ups
    have hback := returnCredits_frame p vc s
    generalize returnCredits p vc s = u at hback ⊢
    split
    · rw [hback]
      rfl
    · rfl
  · rfl

theorem setGrant_heldIn (vc : VChan) (g : Grant) (q : PortSt) : (q.setGrant vc g).heldIn = q.heldIn := by cases vc <;> rfl

theorem heldIn_returnCredits (p : Nat) (vc : VChan) (s : State) (k : Nat) :
    (port (returnCredits p vc s) k).heldIn = (port s k).heldIn := by
  have h (g : Grant) : (port (modPort p (PortSt.setGrant vc g) s) k).heldIn = (port s k).heldIn :=
    heldIn_modPort (fun q => setGrant_heldIn ..) s k
  unfold returnCredits
  extract_lets q g n u
  split
  · exact h _
  · exact h _

theorem heldIn_giveBack (h : Hold) (n : Nat) (s : State) (p : Nat) : (port (giveBack h n s) p).heldIn = (port s p).heldIn := by
  unfold giveBack
  split
  · split
    · rw [heldIn_modPort fun q => setGrant_heldIn .., heldIn_returnCredits]
    · rfl
  · rfl

theorem leavePath_rest (a : Arr) (s : State) : (leavePath a s).mem = s.mem ∧ (leavePath a s).queues = s.queues ∧
    (leavePath a s).ctxs = s.ctxs ∧ (leavePath a s).syn = s.syn ∧ (leavePath a s).ec = s.ec ∧
    (leavePath a s).banks = s.banks ∧ (leavePath a s).rsl = s.rsl ∧
    (leavePath a s).xfer = { s.xfer with arrivals := s.xfer.arrivals.erase a } := by
  rw [leavePath, giveBack_frame]
  exact ⟨rfl, rfl, rfl, rfl, rfl, rfl, rfl, rfl⟩

theorem heldIn_leavePath (a : Arr) (s : State) (p : Nat) : (port (leavePath a s) p).heldIn = (port s p).heldIn :=
  heldIn_giveBack ..

/-- What stands once a granule that has moved from s to v has left the arrival path. -/
structure LeftPath (a : Arr) (rest : List Arr) (j : Job) (s v u : State) : Prop where
  mem : u.mem = v.mem
  queues : u.queues = s.queues
  ctxs : u.ctxs = s.ctxs
  syn : u.syn = s.syn
  ec : u.ec = v.ec
  banks : u.banks = (noteArrival a v).banks
  arrivals : u.xfer.arrivals = rest
  jobs : u.xfer.jobs = [j.lands a]
  held : NoHeldPacket u

theorem Arrives.leftPath {s v : State} {a : Arr} {rest : List Arr} {j : Job} (h : Arrives s a rest j) (hv : MoveKept s v) :
    LeftPath a rest j s v (leavePath a (noteArrival a v)) := by
  obtain ⟨hm, hq, hc, hs, he, hl, hr, hx⟩ := noteArrival_rest a v
  obtain ⟨hm', hq', hc', hs', he', hb', hr', hx'⟩ := leavePath_rest a (noteArrival a v)
  have hport (p : Nat) : (port (leavePath a (noteArrival a v)) p).heldIn = (port s p).heldIn := by
    rw [heldIn_leavePath, port, hl, hv.lnk, port]
  obtain ⟨h0, h1, hf⟩ := h.held
  exact {
    mem := hm'.trans hm
    queues := hq'.trans (hq.trans hv.queues)
    ctxs := hc'.trans (hc.trans hv.ctxs)
    syn := hs'.trans (hs.trans hv.syn)
    ec := he'.trans he
    banks := hb'
    arrivals := by rw [hx', hx]; simp [modJob, hv.xfer, h.arrivals]
    jobs := by rw [hx', hx]; simp [modJob, hv.xfer, h.jobs, h.job]
    held := ⟨(hport 0).trans h0, (hport 1).trans h1, by rw [hr', hr, hv.rsl, hf]⟩ }

/-! ### The transfer after a landing (R183) -/

section
variable {s v u : State} {a : Arr} {rest : List Arr} {j : Job}

theorem LeftPath.findJob (h : LeftPath a rest j s v u) (hid : j.id = a.job) : findJob u a.job = some (j.lands a) := by
  rw [← hid, ← Job.lands_id a]
  exact findJob_single h.jobs

theorem LeftPath.asked (h : LeftPath a rest j s v u) (hj : j.Asked) : ∀ k ∈ u.xfer.jobs, k.Asked := by
  rw [h.jobs]
  rintro k hk
  rw [List.mem_singleton.1 hk]
  exact hj.lands a

/-- What the end of a transfer does after a landing leaves bytes, queues, banks and the other arrivals, and so does what goes on
then. -/
theorem afterLanding_settleKept {t : State} (hkept : SettleKept u t) (hheld : NoHeldPacket u) (hasked : ∀ k ∈ u.xfer.jobs, k.Asked) :
    (afterLanding t).mem = u.mem ∧ (afterLanding t).queues = u.queues ∧ (afterLanding t).banks = u.banks ∧
      (afterLanding t).xfer.arrivals = u.xfer.arrivals := by
  rw [afterLanding_asked (hkept.noHeldPacket hheld) (hkept.asked hasked)]
  obtain ⟨o, h, l, ht⟩ := askAll_frame t
  rw [ht]
  exact ⟨hkept.mem, hkept.queues, hkept.banks, hkept.arrivals⟩

/-- A transfer with more to come, to be answered or to land is not over. -/
def Job.Goes (rest : List Arr) (j : Job) : Prop := j.out ≠ [] ∨ j.acks ≠ 0 ∨ ∃ b ∈ rest, b.job = j.id

theorem LeftPath.goesOn (h : LeftPath a rest j s v u) (hmore : j.Goes rest) : jobIdle u (j.lands a) = false := by
  obtain ⟨hout, hacks⟩ := Job.lands_left a j
  obtain hm | hm | ⟨b, hb, hbj⟩ := hmore
  · simp [jobIdle, hout, hm]
  · simp [jobIdle, hacks, hm]
  · have hany : u.xfer.arrivals.any (fun x => decide (x.job = (j.lands a).id)) = true := by
      rw [h.arrivals, Job.lands_id]
      exact List.any_eq_true.2 ⟨b, hb, decide_eq_true hbj⟩
    simp [jobIdle, hany]

theorem settleJob_goesOn {id : Nat} {k : Job} (hf : findJob s id = some k) (hk : jobIdle s k = false) : settleJob id s = s := by
  rw [settleJob, hf]
  simp only [hk, if_true]

/-- The last granule of a read: nothing of it is left to come, and its pennant is to rise (R183). -/
structure Job.Ends (rest : List Arr) (j : Job) : Prop where
  out : j.out = []
  acks : j.acks = 0
  landed : ∀ b ∈ rest, b.job ≠ j.id
  kind : j.kind ∈ [.read, .gather, .smRead, .lnkRead]
  withheld : j.withheld = false
  faulted : j.faulted = false
  incr : j.incr ≠ 0

theorem Job.Ends.ne_copy (h : j.Ends rest) : j.kind ≠ .copy := fun hk => absurd (hk ▸ h.kind) (by decide)

theorem Job.Ends.jobIdle {t : State} (h : j.Ends rest) (hj : j.Asked) (ht : t.xfer.arrivals = rest) : jobIdle t j = true := by
  have hnone : t.xfer.arrivals.any (fun x => decide (x.job = j.id)) = false := by
    rw [ht]
    exact List.any_eq_false.2 fun b hb => by simpa using h.landed b hb
  have hlink : j.kind ≠ .linkIn := fun hk => absurd (hk ▸ h.kind) (by decide)
  simp [Machine.jobIdle, copyLeft, h.out, h.acks, hnone, h.ne_copy, hlink, hj.rows, hj.checks]

/-- A read that is over raises its pennant (R183). -/
theorem settleJob_ends {t : State} (h : j.Ends rest) (hf : Machine.findJob t j.id = some j) (hi : Machine.jobIdle t j = true) :
    settleJob j.id t = raise 4 j.pennant 0 j.incr j.blame (traceDone j (dropJob j.id (countUnchecked j t))) := by
  have hraise : settleJob j.id t = raiseJob j (dropJob j.id (countUnchecked j t)) := by
    have hk := h.kind
    simp only [List.mem_cons, List.not_mem_nil, or_false] at hk
    rw [settleJob, hf]
    simp only [hi]
    obtain hk | hk | hk | hk := hk <;> simp only [hk] <;> rfl
  rw [hraise, raiseJob, if_neg (by simp [h.withheld, h.faulted]), if_neg h.incr]

end

section
variable {s v : State} {a : Arr} {rest : List Arr} {j : Job}

/-- Counting the blocks that were not checked reaches external memory's registers alone (R294). -/
theorem countUnchecked_rest (j : Job) (t : State) : (countUnchecked j t).ctxs = t.ctxs ∧ (countUnchecked j t).syn = t.syn ∧
    (countUnchecked j t).ec = t.ec ∧ (countUnchecked j t).xfer = t.xfer := by
  unfold countUnchecked
  dsimp only
  split <;> exact ⟨rfl, rfl, rfl, rfl⟩

/-- The end of the only transfer, a read: its pennant rises by its increment, and no transfer is left (R183). -/
theorem settleJob_last {t : State} (h : j.Ends rest) (hj : j.Asked) (hjobs : t.xfer.jobs = [j]) (harr : t.xfer.arrivals = rest)
    (hs : t.syn = s.syn) (hun : Untouched s j.pennant) (hlt : pennant s j.pennant + j.incr < 2 ^ 32) :
    (settleJob j.id t).ctxs = t.ctxs ∧ (settleJob j.id t).ec = t.ec ∧ (settleJob j.id t).xfer.jobs = [] ∧
      pennant (settleJob j.id t) j.pennant = pennant s j.pennant + j.incr := by
  obtain ⟨hc, hy, he, hx⟩ := countUnchecked_rest j t
  rw [settleJob_ends h (findJob_single hjobs) (h.jobIdle hj harr)]
  exact ⟨by simp [hc], by simp [he], by simp [hx, hjobs], pennant_raise_add (by simp [hy, hs]) hun hlt ..⟩

theorem Arrives.afterMove_eq (h : Arrives s a rest j) (hv : MoveKept s v) : afterMove a (noteArrival a v) =
    settleJob a.job (if jobIdle (leavePath a (noteArrival a v)) (j.lands a) then tick (leavePath a (noteArrival a v))
      else leavePath a (noteArrival a v)) := by
  unfold afterMove
  dsimp only
  rw [(h.leftPath hv).findJob h.job]

/-- Whatever a transfer is, the end of the landing of one of its granules leaves bytes, queues, banks and the other arrivals. -/
theorem Arrives.lands_kept (h : Arrives s a rest j) (hv : MoveKept s v) :
    (afterLanding (afterMove a (noteArrival a v))).mem = v.mem ∧
    (afterLanding (afterMove a (noteArrival a v))).queues = s.queues ∧
    (afterLanding (afterMove a (noteArrival a v))).banks = (noteArrival a v).banks ∧
    (afterLanding (afterMove a (noteArrival a v))).xfer.arrivals = rest := by
  have hu := h.leftPath hv
  rw [h.afterMove_eq hv]
  generalize leavePath a (noteArrival a v) = u at hu ⊢
  have hkept : SettleKept u (settleJob a.job (if jobIdle u (j.lands a) then tick u else u)) :=
    (SettleKept.ite (tick_settleKept u) (.refl u)).trans (settleJob_settleKept ..)
  obtain ⟨hm, hq, hb, ha⟩ := afterLanding_settleKept hkept hu.held (hu.asked h.asked)
  exact ⟨hm.trans hu.mem, hq.trans hu.queues, hb.trans hu.banks, ha.trans hu.arrivals⟩

/-- A granule of a transfer with more to come changes no context and no pennant, and takes the time of its move alone. -/
theorem Arrives.lands_goesOn (h : Arrives s a rest j) (hv : MoveKept s v) (hmore : j.Goes rest) :
    (afterLanding (afterMove a (noteArrival a v))).ctxs = s.ctxs ∧ (afterLanding (afterMove a (noteArrival a v))).syn = s.syn ∧
      (afterLanding (afterMove a (noteArrival a v))).ec = v.ec := by
  have hu := h.leftPath hv
  rw [h.afterMove_eq hv]
  generalize leavePath a (noteArrival a v) = u at hu ⊢
  have hidle := hu.goesOn hmore
  rw [hidle, if_neg Bool.false_ne_true, settleJob_goesOn (hu.findJob h.job) hidle, afterLanding_asked hu.held (hu.asked h.asked)]
  obtain ⟨o, k, l, ht⟩ := askAll_frame u
  rw [ht]
  exact ⟨hu.ctxs, hu.syn, hu.ec⟩

/-- The last granule of a read ends it, in the EC after, and raises its pennant (R183). -/
theorem Arrives.lands_last (h : Arrives s a rest j) (hv : MoveKept s v) (hlast : j.Ends rest) (hun : Untouched s j.pennant)
    (hlt : pennant s j.pennant + j.incr < 2 ^ 32) :
    (afterLanding (afterMove a (noteArrival a v))).ctxs = s.ctxs ∧ (afterLanding (afterMove a (noteArrival a v))).xfer.jobs = [] ∧
      pennant (afterLanding (afterMove a (noteArrival a v))) j.pennant = pennant s j.pennant + j.incr ∧
      (afterLanding (afterMove a (noteArrival a v))).ec = v.ec + 1 := by
  have hu := h.leftPath hv
  rw [h.afterMove_eq hv]
  generalize leavePath a (noteArrival a v) = u at hu ⊢
  have hjobs := hu.jobs
  rw [Job.lands_of_ne_copy hlast.ne_copy] at hjobs ⊢
  obtain ⟨e, w, x, ht, he⟩ := advance_shape (h.due.congr hu.syn) (u.ec + 1)
  rw [hlast.jobIdle h.asked hu.arrivals, if_pos rfl, ← h.job]
  have hkept : SettleKept u (settleJob j.id (tick u)) := (tick_settleKept u).trans (settleJob_settleKept ..)
  have htick : tick u = { u with ec := e, wall := w, stretched := x } := ht
  obtain ⟨hc, hec, hnone, hp⟩ := settleJob_last (s := s) (t := tick u) hlast h.asked (by rw [htick, hjobs])
    (by rw [htick, hu.arrivals]) (by rw [htick, hu.syn]) hun hlt
  rw [afterLanding_asked (hkept.noHeldPacket hu.held) (by rw [hnone]; simp), askAll_noJobs hnone]
  refine ⟨hc.trans (by rw [htick, hu.ctxs]), hnone, hp, hec.trans ?_⟩
  rw [htick, he, hu.ec]
  exact Nat.max_eq_right (Nat.le_succ _)

/-! ### The rows -/

theorem Arrives.findJob (h : Arrives s a rest j) : findJob s a.job = some j := h.job ▸ findJob_single h.jobs

theorem landAt_moved {i : Nat} (h : landArr id a s = (v, none)) : landAt id i a s = afterMove a v := by
  unfold landAt
  dsimp only
  rw [h]
  rfl

theorem Arrives.landRow_head (h : Arrives s a rest j) : landRow_ (decide (a.comb ≠ 0)) 0 s = landAt id 0 a s := by
  have hhead : s.xfer.arrivals[0]? = some a := by rw [h.arrivals]; rfl
  have hmay : mayLand s 0 a = true := by simp [mayLand, h.carrier, h.findJob]
  unfold landRow_
  rw [hhead]
  dsimp only
  rw [if_neg (by simp [hmay])]

/-- PLAIN_ARRIVAL of an arrival that may land (R182, R183). -/
theorem Arrives.exec_plain (h : Arrives s a rest j) (hc : a.comb = 0) :
    exec (.plainArrival 0) s = .next (afterLanding (afterMove a (noteArrival a (plainMoved a s)))) := by
  have hland : landArr id a s = (noteArrival a (plainMoved a s), none) := by
    unfold landArr
    rw [h.findJob]
    dsimp only
    rw [h.lands]
    dsimp only
    rw [if_pos hc, plainWrite_moved h.due h.owes]
  have hrow := h.landRow_head.trans (landAt_moved hland)
  rw [decide_eq_false (not_not_intro hc)] at hrow
  show execPlainArrival 0 s = _
  rw [execPlainArrival, hrow]

/-- COMBINED_ARRIVAL of an arrival that may land (R157, R183). -/
theorem Arrives.exec_combined (h : Arrives s a rest j) (hc : a.comb ≠ 0) (hue : granUncorrectable s a.gran = false) :
    exec (.combinedArrival 0) s = .next (afterLanding (afterMove a (noteArrival a (combinedMoved j a s)))) := by
  have hland : landArr id a s = (noteArrival a (combinedMoved j a s), none) := by
    unfold landArr
    rw [h.findJob]
    dsimp only
    rw [h.lands]
    dsimp only
    rw [if_neg hc, combineArr_moved h.due h.owes hue]
  have hrow := h.landRow_head.trans (landAt_moved hland)
  rw [decide_eq_true hc] at hrow
  show execCombinedArrival 0 s = _
  rw [execCombinedArrival, hrow]

end

end Sys2Proof.Machine

section
open Sys2Proof Sys2Proof.Machine Host

/-- Settles O32: the granule moves (`plainMoved`, `combinedMoved`), leaves the arrival path, and its transfer goes on or ends;
what ends it reaches no byte. -/
theorem arrivalsLand : Obligations.ArrivalsLand := by
  intro s a rest j harr hjobs hid hcar hserve hrows hchecks hheld hdue howes _ href hopen more last
  have hland : noLanding j a s = none := by
    unfold noLanding
    dsimp only
    rw [href]
    exact if_neg (by simpa using hopen)
  have h : Arrives s a rest j := ⟨harr, hjobs, hid, hcar, ⟨hserve, hrows, hchecks⟩, hheld, hdue, howes, hland⟩
  have hends (hl : last) : j.Ends rest ∧ Untouched s j.pennant ∧ pennant s j.pennant + j.incr < 2 ^ 32 := by
    obtain ⟨h1, h2, h3, h4, h5, h6, h7, hun, hlt⟩ := hl
    exact ⟨⟨h1, h2, h3, h4, h5, h6, h7⟩, hun, hlt⟩
  refine ⟨fun hc => ?_, fun hc hue => ?_⟩
  · obtain ⟨hv, hec, hbanks⟩ := plainMoved_moveKept hdue a
    obtain ⟨hm, hq, hb, ha⟩ := h.lands_kept hv
    refine ⟨_, h.exec_plain hc, ha, hq, fun k => (readByte_congr _ hm k).trans (readByte_plainMoved hdue a k), fun hg => ?_,
      fun hmore => ?_, fun hl => ?_⟩
    · have hgv : a.gran < bankBytes (plainMoved a s) := by rwa [bankBytes, hv.grade]
      have hbank := bank_noteArrival hgv
      rw [hv.grade] at hbank
      rw [bank, hb]
      refine (congrArg Bank.arrivals hbank).trans ?_
      rw [bank, bank, hbanks]
    · obtain ⟨h1, h2, h3⟩ := h.lands_goesOn hv hmore
      exact ⟨h1, h2, h3.trans hec⟩
    · obtain ⟨he, hun, hlt⟩ := hends hl
      obtain ⟨h1, h2, h3, h4⟩ := h.lands_last hv he hun hlt
      exact ⟨h1, h2, h3, by rw [h4, hec]⟩
  · obtain ⟨hv, -⟩ := combinedMoved_moveKept hdue j a
    obtain ⟨hm, hq, -, ha⟩ := h.lands_kept hv
    refine ⟨_, h.exec_combined hc hue, ha, hq, fun k => (readByte_congr _ hm k).trans (readByte_combinedMoved hdue j a k),
      fun hmore => ?_, fun hl => ?_⟩
    · obtain ⟨h1, h2, -⟩ := h.lands_goesOn hv hmore
      exact ⟨h1, h2⟩
    · obtain ⟨he, hun, hlt⟩ := hends hl
      obtain ⟨h1, h2, h3, -⟩ := h.lands_last hv he hun hlt
      exact ⟨h1, h2, h3⟩

end

/-!
## Pinions: what PIN.RUN computes (R138 to R148)
-/

namespace Sys2Proof.Machine

/-! ### The operation of a step (R141) -/

theorem valRat_truth (b : Bool) : valRat (truth b) = if b then 1 else 0 := by cases b <;> simp [truth, valRat, Val.one, Val.zero]

/-- A compare gives 1 where it holds and 0 where it does not (R141). -/
theorem stepVal_compare {a b : Val} (ha : a.isFin = true) (hb : b.isFin = true) (c : Val) :
    valRat (stepVal 0x07 a b c).1 = (if valRat a = valRat b then 1 else 0) ∧
    valRat (stepVal 0x08 a b c).1 = (if valRat a = valRat b then 0 else 1) ∧
    valRat (stepVal 0x09 a b c).1 = (if valRat a < valRat b then 1 else 0) ∧
    valRat (stepVal 0x0A a b c).1 = (if valRat a ≤ valRat b then 1 else 0) := by
  refine ⟨(valRat_truth _).trans ?_, (valRat_truth _).trans ?_, (valRat_truth _).trans ?_, (valRat_truth _).trans ?_⟩
  · simp only [Val.eqv_iff ha hb]
  · simp only [← Val.eqv_iff ha hb]
    cases Val.eqv a b <;> simp
  · simp only [Val.lt_iff ha hb]
  · simp only [Val.le_iff ha hb]

theorem stepVal_select (a b : Val) {c : Val} (hc : c.isFin = true) :
    (stepVal 0x0B a b c).1 = if valRat c = 0 then b else a := by
  have h : Val.eqv c .zero = true ↔ valRat c = 0 := (Val.eqv_iff hc rfl).trans (by simp [valRat, Val.zero])
  show (if Val.eqv c .zero then b else a) = _
  simp only [h]

theorem stepVal_clamp {a b c : Val} (ha : a.isFin = true) (hb : b.isFin = true) (hc : c.isFin = true) :
    valRat (stepVal 0x0D a b c).1 = min (max (valRat a) (valRat b)) (valRat c) := by
  obtain ⟨hm, hv⟩ := Val.max_exact ha hb
  exact (Val.min_exact hm hc).2.trans (by rw [hv])

/-- The two blends a + c · (x − a), of b itself and of its square (R141). -/
theorem stepVal_blend {a b c : Val} (ha : a.isFin = true) (hb : b.isFin = true) (hc : c.isFin = true) :
    valRat (stepVal 0x10 a b c).1 = valRat a + valRat c * (valRat b - valRat a) ∧
    valRat (stepVal 0x11 a b c).1 = valRat a + valRat c * (valRat b * valRat b - valRat a) := by
  have blend {x : Val} (hx : x.isFin = true) : valRat (c.fma (x.sub a).1 a).1 = valRat a + valRat c * (valRat x - valRat a) := by
    obtain ⟨hd, -, hdv⟩ := Val.sub_exact hx ha
    rw [(Val.fma_exact hc hd ha).2.2, hdv, add_comm]
  obtain ⟨hq, -, hqv⟩ := Val.mul_exact hb hb
  exact ⟨blend hb, (blend hq).trans (by rw [hqv])⟩

/-! ### One step on one element (R141, R142) -/

/-- The result of a step before it is rounded. -/
def stepResult (ct : Nat) (ks : List Nat) (w : Nat) (x : PElem) : Val × Flags :=
  stepVal (stOp w) (pinArg ct ks false x (stA w)) (pinArg ct ks false x (stB w)) (pinArg ct ks false x (stC w))

theorem pinStep_eq (s : State) (ct : Nat) (ks : List Nat) (q id : Nat) {w : Nat} (h0C : stOp w ≠ 0x0C) (h12 : stOp w ≠ 0x12)
    (x : PElem) : pinStep s ct ks q id w x =
      ⟨x.regs.set (stDst w) (roundCt ct (stepResult ct ks w x).1).1,
        x.fl ||| ((stepResult ct ks w x).2 ||| (roundCt ct (stepResult ct ks w x).1).2), x.draws⟩ := by
  simp only [pinStep, if_neg h0C, if_neg h12]
  rfl

theorem stDst_lt (w : Nat) : stDst w < 8 := Nat.mod_lt _ (by decide)

/-! ### What is collected from one element after the other (R146, R148) -/

/-- Changes and flags are collected; each result starts from the draws that the one before it leaves. -/
def collect {ι : Type} (g : ι → Draws → List Eff × Flags × Draws) (a : List Eff × Flags × Draws) (p : ι) :
    List Eff × Flags × Draws :=
  let r := g p a.2.2
  (a.1 ++ r.1, a.2.1 ||| r.2.1, r.2.2)

theorem mem_foldl_collect_init {ι : Type} (g : ι → Draws → List Eff × Flags × Draws) (l : List ι) {a : List Eff × Flags × Draws}
    {f : Eff} (hf : f ∈ a.1) : f ∈ (l.foldl (collect g) a).1 :=
  List.foldlRecOn (motive := fun y : List Eff × Flags × Draws => f ∈ y.1) l _ hf fun _ h _ _ => List.mem_append_left _ h

/-- Every one contributes its changes, from some draws. -/
theorem mem_foldl_collect {ι : Type} (g : ι → Draws → List Eff × Flags × Draws) {l : List ι} {p : ι} (hp : p ∈ l)
    (a : List Eff × Flags × Draws) : ∃ d, ∀ f ∈ (g p d).1, f ∈ (l.foldl (collect g) a).1 := by
  induction l generalizing a with
  | nil => cases hp
  | cons y l ih =>
    obtain rfl | hp := List.mem_cons.1 hp
    · exact ⟨a.2.2, fun f hf => mem_foldl_collect_init g l (List.mem_append_right _ hf)⟩
    · exact ih hp (collect g a y)

/-! ### The outputs of an element (R147, R148) -/

/-- An element after its program: its inputs are in the first registers, in the order of their streams (R138, R139). -/
def pinElemRun (s : State) (e : QEnt) (id b n : Nat) (d : Draws) : PElem :=
  let ld := (pIns e.words).map (fun i => pinLoad s e.words b i n)
  (List.range (pinProg s e).length).foldl (fun x k => pinStep s (pType e.words) (pConsts e.words)
    (512 + 16 * pinionOf s.grade b + n % lanesOf (pType e.words)) (id + 16 * n + k) ((pinProg s e).getD k 0) x)
    ⟨padTo .zero 8 (ld.map Prod.fst), fOr (ld.map Prod.snd), d⟩

/-- Output j of an element: the register that it stores, encoded (R147, R148). -/
def pinOut (s : State) (e : QEnt) (id b n : Nat) (x : PElem) (j : Nat) (d : Draws) : List Eff × Flags × Draws :=
  let o := (pOuts e.words).getD j 0
  let r := rndDraw s (pRound e.words) (512 + 16 * pinionOf s.grade b + n % lanesOf (pType e.words)) d
  let w := pinStore e.words o r.1 (x.regs.getD (7 - j) .zero)
  let at_ := bankByte s.grade b (dGran o * 64 + n * sSize o)
  ([.mem at_ (if pinOpen e.words j n then (List.range (sSize o)).map (fun i => Config.freeByte (id + 2 ^ 28 + at_ + i))
    else leBytes (sSize o) w.1)], w.2, r.2)

theorem pinElem_eq (s : State) (e : QEnt) (id b n : Nat) (d : Draws) : pinElem s e id b n d =
    (List.range (pOutN e.words)).foldl (collect (pinOut s e id b n (pinElemRun s e id b n d)))
      ([], (pinElemRun s e id b n d).fl, (pinElemRun s e id b n d).draws) := rfl

/-- An output that overlaps no other stream and draws no random number is stored, rounded to nearest (R148). -/
theorem mem_pinOut {s : State} {e : QEnt} {n j : Nat} (hr : pRound e.words = 0) (ho : pinOpen e.words j n = false) (id b : Nat)
    (x : PElem) (d : Draws) : let o := (pOuts e.words).getD j 0
      Eff.mem (bankByte s.grade b (dGran o * 64 + n * sSize o))
        (leBytes (sSize o) (pinStore e.words o .rne (x.regs.getD (7 - j) .zero)).1) ∈ (pinOut s e id b n x j d).1 := by
  unfold pinOut
  rw [hr, ho]
  exact List.mem_singleton_self _

theorem mem_pinElem {s : State} {e : QEnt} {n j : Nat} (hr : pRound e.words = 0) (hj : j < pOutN e.words)
    (ho : pinOpen e.words j n = false) (id b : Nat) (d : Draws) : let o := (pOuts e.words).getD j 0
      Eff.mem (bankByte s.grade b (dGran o * 64 + n * sSize o))
        (leBytes (sSize o) (pinStore e.words o .rne ((pinElemRun s e id b n d).regs.getD (7 - j) .zero)).1)
        ∈ (pinElem s e id b n d).1 := by
  rw [pinElem_eq]
  obtain ⟨d', h⟩ := mem_foldl_collect (pinOut s e id b n (pinElemRun s e id b n d)) (List.mem_range.2 hj)
    ([], (pinElemRun s e id b n d).fl, (pinElemRun s e id b n d).draws)
  exact h _ (mem_pinOut hr ho ..)

/-! ### Every element of every bank (R146) -/

/-- Element p.2 of the bank at place p.1 of the mask. -/
def pinAt (s : State) (e : QEnt) (id : Nat) (p : Nat × Nat) (d : Draws) : List Eff × Flags × Draws :=
  pinElem s e (id + 2 ^ 24 * p.1) ((pinBanks e.words).getD p.1 0) p.2 d

theorem pinAll_eq (s : State) (e : QEnt) (id : Nat) : pinAll s e id =
    ((List.range (pinBanks e.words).length).flatMap (fun i => (List.range (pElems e.words)).map (fun n => (i, n)))).foldl
      (collect (pinAt s e id)) ([], 0#16, []) := rfl

theorem mem_pinEffs {s : State} {e : QEnt} {i n : Nat} (hi : i < (pinBanks e.words).length) (hn : n < pElems e.words) (id : Nat) :
    ∃ d, ∀ f ∈ (pinAt s e id (i, n) d).1, f ∈ pinEffs s e id := by
  have hp : (i, n) ∈ (List.range (pinBanks e.words).length).flatMap (fun i => (List.range (pElems e.words)).map (fun n => (i, n))) :=
    List.mem_flatMap.2 ⟨i, List.mem_range.2 hi, List.mem_map.2 ⟨n, List.mem_range.2 hn, rfl⟩⟩
  obtain ⟨d, h⟩ := mem_foldl_collect (pinAt s e id) hp ([], 0#16, [])
  refine ⟨d, fun f hf => List.mem_append_left _ (List.mem_append_left _ ?_)⟩
  rw [pinAll_eq]
  exact h f hf

end Sys2Proof.Machine

section
open Sys2Proof Sys2Proof.Machine Host

/-- Settles O18: a step is its operation on the rationals, then one rounding into its register; the changes of a RUN are
collected from its elements, those of an element from its outputs. -/
theorem pinionCommandsCompute : Obligations.PinionCommandsCompute := by
  refine ⟨fun a b c ha hb hc => ?_, fun s ct ks q id w x h0C h12 hlen => ?_, fun s e id b n j d => ?_, fun s ws b i n hi => ?_,
    fun s e id i n hi hn => mem_pinEffs hi hn id⟩
  · obtain ⟨heq, hne, hlt, hle⟩ := stepVal_compare ha hb c
    obtain ⟨hlerp, hsq⟩ := stepVal_blend ha hb hc
    exact ⟨(Val.add_exact ha hb).2.2, (Val.sub_exact ha hb).2.2, (Val.mul_exact ha hb).2.2, (Val.fma_exact ha hb hc).2.2,
      (Val.min_exact ha hb).2, (Val.max_exact ha hb).2, heq, hne, hlt, hle, stepVal_select a b hc, stepVal_clamp ha hb hc,
      hlerp, hsq⟩
  · rw [pinStep_eq s ct ks q id h0C h12]
    refine ⟨?_, fun k hk => ?_, rfl, rfl⟩
    · rw [List.getD_eq_getElem?_getD, List.getElem?_set_self (by rw [hlen]; exact stDst_lt w)]
      rfl
    · rw [List.getD_eq_getElem?_getD, List.getElem?_set_ne hk.symm, List.getD_eq_getElem?_getD]
  · intro ws ld ps o x hr hj ho
    exact mem_pinElem hr hj ho id b d
  · unfold pinLoad
    dsimp only
    rw [if_neg hi]
    rfl

end

/-!
## Contexts come to rest (R198, R199, R206)
-/

namespace Sys2Proof.Machine

/-! ### A context is no longer dispatched -/

theorem undispatch_frame (c : Ctx) (s : State) : undispatch c s = { s with dispatched := (undispatch c s).dispatched } := by
  unfold undispatch; split <;> rfl

theorem undispatch_dispatched (c : Ctx) (s : State) : (undispatch c s).dispatched ≠ some c := by
  unfold undispatch
  split
  · exact nofun
  · assumption

/-! ### The LAUNCH of a context ends (R206, R350) -/

theorem endLaunch_none {c : Ctx} {s : State} (h : (ctx s c).launch = none) (status tag : Nat) : endLaunch c status tag s = s := by
  unfold endLaunch
  simp only [h]

theorem endLaunch_some {c : Ctx} {s : State} {r : HostRef} (h : (ctx s c).launch = some r) (status tag : Nat) :
    endLaunch c status tag s = complete r status tag (ctx s c).summary.toNat (ctx s c).firstTag 0
      (modCtx s c (fun x => { x with launch := none })) := by
  unfold endLaunch
  simp only [h]

theorem ctx_complete (r : HostRef) (a b d e f : Nat) (s : State) (k : Ctx) : ctx (complete r a b d e f s) k = ctx s k :=
  ctx_congr s (by simp) k

theorem endLaunch_frame (c : Ctx) (status tag : Nat) (s : State) : endLaunch c status tag s =
    { s with ctxs := (endLaunch c status tag s).ctxs, hst := (endLaunch c status tag s).hst } := by
  cases h : (ctx s c).launch with
  | none => rw [endLaunch_none h]
  | some r =>
    rw [endLaunch_some h, complete_frame]
    rfl

theorem ctx_endLaunch (c : Ctx) (status tag : Nat) (s : State) :
    ctx (endLaunch c status tag s) c = { ctx s c with launch := none } := by
  cases h : (ctx s c).launch with
  | none => rw [endLaunch_none h, ← h]
  | some r => rw [endLaunch_some h, ctx_complete, ctx_modCtx_same]

theorem ctx_endLaunch_ne {c k : Ctx} (hk : k ≠ c) (status tag : Nat) (s : State) : ctx (endLaunch c status tag s) k = ctx s k := by
  cases h : (ctx s c).launch with
  | none => rw [endLaunch_none h]
  | some r => rw [endLaunch_some h, ctx_complete, ctx_modCtx_ne _ _ _ _ hk]

/-- A LAUNCH that ends well leaves a completion record if it asked for one and there is room. -/
theorem endLaunch_cqQ {c : Ctx} {s : State} {r : HostRef} (h : (ctx s c).launch = some r) (hk : r.kind ≠ 5)
    (hroom : s.hst.cqQ.length < 64) (tag : Nat) :
    (endLaunch c 0 tag s).hst.cqQ.length = s.hst.cqQ.length + if r.cmpl then 1 else 0 := by
  rw [endLaunch_some h]
  refine (complete_cqQ (modCtx s c _) r _ _ _ _ _ hk hroom).trans (congrArg (s.hst.cqQ.length + ·) ?_)
  exact if_congr (by simp) rfl rfl

/-! ### A context leaves the escapement -/

/-- Context c has left the escapement as x: no other context, no byte of core memory and no time has changed. -/
structure Rests (c : Ctx) (x : CtxSt) (s t : State) : Prop where
  own : ctx t c = x
  others : ∀ k : Ctx, k ≠ c → ctx t k = ctx s k
  bytes : ∀ a, readByte t a = readByte s a
  ec : t.ec = s.ec
  off : t.dispatched ≠ some c

theorem rests_undispatch (c : Ctx) (f : CtxSt → CtxSt) (s : State) : Rests c (f (ctx s c)) s (undispatch c (modCtx s c f)) := by
  have hoff := undispatch_dispatched c (modCtx s c f)
  have h := undispatch_frame c (modCtx s c f)
  generalize undispatch c (modCtx s c f) = t at h hoff
  rw [h] at hoff ⊢
  exact ⟨ctx_modCtx_same .., fun k hk => ctx_modCtx_ne _ _ _ _ hk, fun _ => rfl, rfl, hoff⟩

theorem Rests.endLaunch {c : Ctx} {x : CtxSt} {s t : State} (h : Rests c x s t) (status tag : Nat) :
    Rests c { x with launch := none } s (endLaunch c status tag t) := by
  have hf := endLaunch_frame c status tag t
  refine ⟨by rw [ctx_endLaunch, h.own], fun k hk => (ctx_endLaunch_ne hk ..).trans (h.others k hk), fun a => ?_, ?_, ?_⟩
  · rw [readByte_congr t (by rw [hf]), h.bytes]
  · rw [hf]; exact h.ec
  · rw [hf]; exact h.off

theorem execContextStopped_rests {s : State} {c : Ctx} (hst : (ctx s c).stopping = true) (hq : queuedOf s c = [])
    (hdue : NothingDue s) : ∃ t, execContextStopped c s = .next t ∧ Rests c { ctx s c with
      cstate := .stopped, stopping := false, paused := false, quiesceReq := false, point := .inSection, launch := none }
      (pass (s.ec + 1) s) t := by
  refine ⟨_, if_neg (by simp [hst, hq]), ?_⟩
  rw [advance_pass hdue]
  have h := (rests_undispatch c (fun x => { x with
    cstate := .stopped, stopping := false, paused := false, quiesceReq := false, point := .inSection })
    (pass (s.ec + 1) s)).endLaunch (ctx s c).faultCode (ctx s c).faultTag
  rwa [ctx_pass] at h

theorem execContextQuiesced_pausing {s : State} {c : Ctx} (hst : (ctx s c).stopping = false) (hrun : (ctx s c).cstate = .running)
    (hp : (ctx s c).point = .pausing) (hq : timedQueued s c = []) (hr : runsOf s c = false) :
    execContextQuiesced c s =
      .next (undispatch c (modCtx s c (fun x => { x with cstate := .quiesced, paused := true, quiesceReq := false }))) := by
  simp [execContextQuiesced, hst, hrun, hp, hq, hr]

/-- A context at ESC.END is QUIESCED, and no longer dispatched. -/
def quiescedAtEnd (c : Ctx) (s : State) : State :=
  undispatch c (modCtx s c (fun x => { x with cstate := .quiesced, paused := false, quiesceReq := false }))

theorem execContextQuiesced_ending {s : State} {c : Ctx} (hst : (ctx s c).stopping = false) (hrun : (ctx s c).cstate = .running)
    (hp : (ctx s c).point = .ending) (hd : drained s c = true) (ho : outHeld s c = false) :
    execContextQuiesced c s = .next (endLaunch c 0 0 (quiescedAtEnd c s)) := by
  simp [execContextQuiesced, hst, hrun, hp, hd, ho, quiescedAtEnd]

theorem quiescedAtEnd_hst (c : Ctx) (s : State) : (quiescedAtEnd c s).hst = s.hst := by
  rw [quiescedAtEnd, undispatch_frame]
  rfl

/-! ### The eviction that the host requests (R181) -/

theorem bit_oneContext : ∀ c k : Ctx, bit (BitVec.ofNat 8 (2 ^ c.val)).toNat k.val = decide (k = c) := by decide

/-- A fold whose step changes the state at one element alone. -/
theorem foldl_single {α σ : Type} (f : σ → α → σ) {c : α} (l : List α) (hnd : l.Nodup) (hc : c ∈ l)
    (hf : ∀ u, ∀ k ∈ l, k ≠ c → f u k = u) (s : σ) : l.foldl f s = f s c := by
  have skip (m : List α) (hm : ∀ k ∈ m, k ∈ l ∧ k ≠ c) (u : σ) : m.foldl f u = u :=
    List.foldlRecOn (motive := fun t => t = u) m f rfl fun t ht k hk => by rw [hf t k (hm k hk).1 (hm k hk).2, ht]
  obtain ⟨before, after, rfl⟩ := List.append_of_mem hc
  have hout : ∀ k ∈ before ++ after, k ≠ c := fun k hk h => (List.nodup_cons.1 (List.nodup_middle.1 hnd)).1 (h ▸ hk)
  rw [List.foldl_append, List.foldl_cons, skip before fun k hk => ⟨by simp [hk], hout k (by simp [hk])⟩,
    skip after fun k hk => ⟨by simp [hk], hout k (by simp [hk])⟩]

/-- The host requests the eviction of one partition. -/
theorem partEvict_one (c : Ctx) (s : State) : partEvict (BitVec.ofNat 8 (2 ^ c.val)).toNat s =
    if (ctx s c).cstate = .running ∨ (ctx s c).stopping = true ∨ drained s c = false ∨ s.switching = true ∨
      s.rsl.snap.phase ≠ 0 ∨ s.rsl.fill.st = 1 then { s with cm := { s.cm with evictRefused := true } }
    else if residentPart s c then { s with cm := { s.cm with evicting := insertNew c.val s.cm.evicting } } else s := by
  unfold partEvict
  rw [foldl_single _ _ (List.nodup_finRange 8) (List.mem_finRange c) fun u k _ hk => if_pos (by
    rw [bit_oneContext, decide_eq_false hk]), if_neg (by rw [bit_oneContext]; simp)]

theorem mem_insertNew (n : Nat) (l : List Nat) : n ∈ insertNew n l := by
  unfold insertNew
  split
  · assumption
  · exact List.mem_cons_self

end Sys2Proof.Machine

/-!
## A partition leaves for external memory (R180, R181, R227)
-/

namespace Sys2Proof.Machine

/-! ### What the external memory unit takes in leaves core memory as it is -/

/-- The bytes and the control registers of core memory are the same. It is reducible, so a lemma `CmemKept s (f s)` rewrites
both fields of `f s`. -/
@[simp] abbrev CmemKept (s t : State) : Prop := t.mem = s.mem ∧ t.cm = s.cm

section
variable (s : State)

@[simp] theorem addTot_cmemKept (i n : Nat) : CmemKept s (addTot i n s) := by
  unfold addTot; split <;> exact ⟨rfl, rfl⟩

@[simp] theorem drainLine_cmemKept (l : WcbLine) : CmemKept s (drainLine l s) := by
  unfold drainLine
  split <;> simp

@[simp] theorem combineWrite_cmemKept (blame : Blame) (blk pl o : Nat) (bs : List (Option W8)) :
    CmemKept s (combineWrite blame blk pl o bs s) := by
  unfold combineWrite
  extract_lets u old l v
  have hu : CmemKept s u := by
    unfold u
    split
    · exact ⟨rfl, rfl⟩
    · split
      · exact drainLine_cmemKept ..
      · exact ⟨rfl, rfl⟩
  have hv : CmemKept s v := hu
  split
  · exact ⟨(drainLine_cmemKept v l).1.trans hv.1, (drainLine_cmemKept v l).2.trans hv.2⟩
  · exact hv

@[simp] theorem acceptLine_cmemKept (writer : Nat) (blame : Blame) (a : Nat) (bs : List (Option W8)) :
    CmemKept s (acceptLine writer blame a bs s) := by
  unfold acceptLine
  extract_lets b u old got v
  have hv : CmemKept s v := by simp [v, u, markRace]
  split
  · simp [hv]
  · exact hv

@[simp] theorem acceptRun_cmemKept {f : Nat → List (Option W8) → State → State} (hf : ∀ a bs s, CmemKept s (f a bs s))
    (n a : Nat) (bs : List (Option W8)) : CmemKept s (acceptRun f n a bs s) := by
  induction n generalizing s a bs with
  | zero => exact ⟨rfl, rfl⟩
  | succ n ih => cases bs <;> simp [acceptRun, ih, hf]

@[simp] theorem giveBack_cmemKept (h : Hold) (n : Nat) : CmemKept s (giveBack h n s) := by
  rw [giveBack_frame]; exact ⟨rfl, rfl⟩

@[simp] theorem endWriter_cmemKept (writer : Nat) : CmemKept s (endWriter writer s) := ⟨rfl, rfl⟩

@[simp] theorem acceptUnit_cmemKept (i g : Nat) (w : LateW) : CmemKept s (acceptUnit i g w s) := by
  simp [acceptUnit, acceptBytes]

@[simp] theorem dropLate_cmemKept (w : LateW) : CmemKept s (dropLate w s) := by
  unfold dropLate
  extract_lets +onlyGivenNames u x v
  have hv : CmemKept s v := giveBack_cmemKept ..
  split
  · simp [hv]
  · exact hv

@[simp] theorem jobFault_cmemKept (code : Nat) (detail : List Nat) (j : Job) : CmemKept s (jobFault code detail j s) := by
  unfold jobFault
  dsimp only
  split <;> simp [streamFault]

@[simp] theorem failLate_cmemKept (f : Nat × List Nat) (w : LateW) : CmemKept s (failLate f w s) := by
  unfold failLate
  dsimp only
  split <;> simp

@[simp] theorem acceptUnits_cmemKept (i : Nat) (gs : List Nat) : CmemKept s (acceptUnits i gs s) := by
  induction gs generalizing s with
  | nil => exact ⟨rfl, rfl⟩
  | cons g gs ih =>
    unfold acceptUnits
    split
    · exact ⟨rfl, rfl⟩
    · split
      · simp [ih]
      · exact ⟨rfl, rfl⟩

@[simp] theorem flushOne_cmemKept (w : LateW) : CmemKept s (flushOne w s) := by
  unfold flushOne
  split
  · simp
  · dsimp only
    split
    · simp
    · split <;> simp

/-- The writes of a transfer that go on as far as they can change no byte of core memory. -/
theorem flushLate_cmemKept (job : Nat) : CmemKept s (flushLate job s) :=
  List.foldlRecOn (motive := CmemKept s) _ _ ⟨rfl, rfl⟩ fun u hu w _ =>
    ⟨(flushOne_cmemKept u w).1.trans hu.1, (flushOne_cmemKept u w).2.trans hu.2⟩

end

/-! ### The bytes of a partition leave core memory (R227) -/

/-- A read of granules that nothing has still to write waits for their slots alone. -/
theorem reachRead_noneOwes {s : State} (hdue : NothingDue s) {gs : List Nat} (h : ∀ g ∈ gs, NoneOwes s g) (owner : Nat) :
    reachRead owner gs s = takeSlots owner gs s := by
  have hk := takeSlots_noteKept hdue owner gs
  unfold reachRead
  exact List.foldlRecOn (motive := fun u => u = takeSlots owner gs s) gs _ rfl fun u hu g hg => by
    rw [hu, ((h g hg).congr hk.runs hk.spans).settleGran]

/-- The slots that granules take are all that time to them changes of core memory's control registers. -/
theorem takeSlots_cm (owner : Nat) (gs : List Nat) (s : State) : ∃ f, (takeSlots owner gs s).cm = { s.cm with slotFree := f } := by
  have key : ∃ f, (gs.foldl (fun (p : Nat × State) g => let x := takeSlot owner p.2 g; (Nat.max p.1 x.1, x.2)) (s.ec, s)).2.cm =
      { s.cm with slotFree := f } :=
    List.foldlRecOn (motive := fun p : Nat × State => ∃ f, p.2.cm = { s.cm with slotFree := f }) gs _ ⟨_, rfl⟩
      fun p hp g _ => by
        obtain ⟨f, hf⟩ := hp
        exact ⟨_, by simp only [takeSlot, hf]; rfl⟩
  simpa [takeSlots] using key

theorem noteReads_shape (gs : List Nat) (s : State) : ∃ b, noteReads s gs = { s with banks := b } := by
  refine List.foldlRecOn (motive := fun u => ∃ b, u = { s with banks := b }) gs noteRead ⟨s.banks, rfl⟩ fun u hu g _ => ?_
  obtain ⟨b, rfl⟩ := hu
  exact noteRead_ind (P := fun u => ∃ b, u = { s with banks := b }) _ g ⟨b, rfl⟩ fun _ _ => ⟨_, rfl⟩

theorem readBytes_congr {s t : State} (h : t.mem = s.mem) (a n : Nat) : readBytes t a n = readBytes s a n :=
  List.map_congr_left fun i _ => readByte_congr s h (a + i)

/-- The granules of a context's partition. -/
def partGrans (s : State) (c : Nat) : List Nat := granulesOf (partBase s c * 16384) (partSize s c * 16384)

/-- The write of a partition to its spill region, given its number as a writer. -/
def spillWrite (s : State) (c : Ctx) : LateW :=
  ⟨s.xfer.nextJob, s.xfer.nextJob, { ctx := some c }, spillExt s c,
    readBytes s (partBase s c * 16384) (partSize s c * 16384), []⟩

/-- What the beginning of a spill leaves: it waits for the external memory unit, which is to take the partition's bytes. -/
structure Spilling (c : Ctx) (s t : State) : Prop where
  mem : t.mem = s.mem
  cm : ∃ f, t.cm = { s.cm with slotFree := f, spilling := s.cm.spilling ++ [(c.val, s.xfer.nextJob)] }
  late : t.xfer.late = s.xfer.late ++ [spillWrite s c]

theorem spillPart_begins {s : State} {c : Ctx} (hext : extFault s.xmu (spillExt s c) (partSize s c * 16384) = none)
    (hnew : s.cm.spilling.find? (fun p => decide (p.1 = c.val)) = none) (hord : inOrder s (ac s) = true) (hdue : NothingDue s)
    (howes : ∀ g ∈ partGrans s c, NoneOwes s g) :
    ∃ t, spillPart c s = (.waits, t) ∧ Spilling c s t := by
  unfold spillPart
  extract_lets +onlyGivenNames n ext a u id x k v
  rw [hext, hnew]
  dsimp -zeta only
  rw [if_neg (by simp [hord])]
  refine ⟨_, rfl, ?_⟩
  have hu : u = takeSlots ownOut (partGrans s c) s := reachRead_noneOwes hdue howes ownOut
  have hk := takeSlots_noteKept hdue ownOut (partGrans s c)
  obtain ⟨f, hf⟩ := takeSlots_cm ownOut (partGrans s c) s
  rw [← hu] at hk hf
  obtain ⟨b, hb⟩ := noteReads_shape (granulesOf a n) v
  have hbytes : readBytes v a n = readBytes s a n := readBytes_congr (s := s) hk.mem a n
  have hid : id = s.xfer.nextJob := congrArg XferSt.nextJob hk.xfer
  rw [hb, hbytes]
  refine ⟨hk.mem, ⟨f, ?_⟩, ?_⟩
  · show { u.cm with spilling := u.cm.spilling ++ [(c.val, id)] } = _
    rw [hf, hid]
  · show u.xfer.late ++ [⟨id, id, { ctx := some c }, ext, readBytes s a n, []⟩] = _
    rw [hk.xfer, hid]
    rfl

/-- Once the external memory unit has accepted the last of its bytes a partition is no longer resident. -/
theorem spillPart_ends {s : State} {c : Ctx} {id : Nat} (hext : extFault s.xmu (spillExt s c) (partSize s c * 16384) = none)
    (hfind : s.cm.spilling.find? (fun p => decide (p.1 = c.val)) = some (c.val, id)) (hlate : lateOf id (flushLate id s) = false) :
    spillPart c s = (.done, setResident c false (endWriter id (endSpill c id (flushLate id s)))) := by
  unfold spillPart
  extract_lets +onlyGivenNames n ext a u
  rw [hext, hfind]
  dsimp only
  rw [if_neg (by simp [hlate])]

/-! ### The eviction goes on (R181) -/

/-- An eviction has ended. -/
def evicted (c : Nat) (s : State) : State := { s with cm := { s.cm with evicting := s.cm.evicting.filter (fun k => decide (k ≠ c)) } }

/-- The eviction of a partition that has left core memory changes the records of it alone. -/
theorem evicted_cmem (c : Ctx) (id : Nat) (s : State) :
    let t := evicted c.val (setResident c.val false (endWriter id (endSpill c id s)))
    t.mem = s.mem ∧ t.cm = { s.cm with
      evicting := s.cm.evicting.filter (fun k => decide (k ≠ c.val))
      spilling := s.cm.spilling.filter (fun p => decide (p.1 ≠ c.val))
      resident := s.cm.resident.filter (fun k => decide (k ≠ c.val)) } := by
  simp [evicted, setResident, endWriter, endSpill]

theorem ctxOf_val (c : Ctx) : ctxOf c.val = c := Fin.ext (Nat.mod_eq_of_lt c.isLt)

theorem evict_waits {s t : State} {c : Ctx} (hres : residentPart s c = true) (h : spillPart c s = (.waits, t)) : evict s c = t := by
  unfold evict
  simp only [hres, if_true, ctxOf_val, h]

theorem evict_done {s t : State} {c : Ctx} (hres : residentPart s c = true) (h : spillPart c s = (.done, t)) :
    evict s c = evicted c t := by
  unfold evict
  simp only [hres, if_true, ctxOf_val, h]
  rfl

theorem execPartitionSpill_one {s : State} {c : Nat} (h : s.cm.evicting = [c]) : execPartitionSpill s = .next (evict s c) := by
  rw [execPartitionSpill, if_pos (by simp [h]), evictAll, h]
  rfl

end Sys2Proof.Machine

section
open Sys2Proof Sys2Proof.Machine Host

/-- Settles O24: a context that comes to rest leaves the escapement (`Rests`); a spill begins with the read of its granules
(`Spilling`) and ends with the last byte accepted, which the external memory unit takes without a change of core memory. -/
theorem contextsAndPartitionsComeToRest : Obligations.ContextsAndPartitionsComeToRest := by
  refine ⟨fun s c => ⟨fun hst hq hdue => ?_, fun hst hrun hp hq hr => ?_, fun hst hrun hp hd ho => ?_⟩,
    fun s c => ⟨fun hrel => ?_, fun hev hres hext => ⟨fun hsp hord hdue howes => ?_, fun id hsp hlate => ?_⟩⟩⟩
  · obtain ⟨t, ht, h⟩ := execContextStopped_rests hst hq hdue
    refine ⟨t, ht, by rw [h.own], by rw [h.own], by rw [h.own], by rw [h.own], ?_, h.off, by rw [h.own], fun k hk => ?_, fun a => ?_⟩
    · rw [h.ec, pass_ec]
      exact Nat.max_eq_right (Nat.le_succ _)
    · rw [h.others k hk, ctx_pass]
    · rw [h.bytes, readByte_congr s (by simp)]
  · have h := rests_undispatch c (fun x => { x with cstate := .quiesced, paused := true, quiesceReq := false }) s
    exact ⟨_, execContextQuiesced_pausing hst hrun hp hq hr, h.own, h.off, h.others, h.bytes⟩
  · have hrests : Rests c { ctx s c with cstate := .quiesced, paused := false, quiesceReq := false } s (quiescedAtEnd c s) :=
      rests_undispatch c (fun x => { x with cstate := .quiesced, paused := false, quiesceReq := false }) s
    have h := hrests.endLaunch 0 0
    have hlaunch : (ctx (quiescedAtEnd c s) c).launch = (ctx s c).launch := by rw [hrests.own]
    refine ⟨_, execContextQuiesced_ending hst hrun hp hd ho, h.own, h.off, h.others, h.bytes, fun hl => ?_, fun r hl hk hroom => ?_⟩
    · rw [endLaunch_none (hlaunch.trans hl), quiescedAtEnd_hst]
    · rw [endLaunch_cqQ (hlaunch.trans hl) hk (by rwa [quiescedAtEnd_hst]), quiescedAtEnd_hst]
  · have hx : exec (.cmemPartEvict (BitVec.ofNat 8 (2 ^ c.val))) s = .next (partEvict (BitVec.ofNat 8 (2 ^ c.val)).toNat s) :=
      afterBoot_of s _ hrel
    refine ⟨_, hx, ?_⟩
    rw [partEvict_one]
    by_cases hrun : (ctx s c).cstate = .running
    · rw [if_pos (.inl hrun)]
      exact ⟨rfl, fun _ => rfl, fun _ => ⟨rfl, rfl⟩, fun h => absurd hrun h⟩
    · refine ⟨?_, fun a => ?_, fun h => absurd h hrun, fun _ hst hd hsw hsnap hfill hres => ?_⟩
      · split_ifs <;> rfl
      · split_ifs <;> rfl
      · rw [if_neg (by simp [hrun, hst, hd, hsw, hsnap, hfill]), if_pos hres]
        exact ⟨mem_insertNew .., rfl⟩
  · obtain ⟨t, ht, h⟩ := spillPart_begins hext (by rw [hsp]; rfl) hord hdue howes
    obtain ⟨f, hcm⟩ := h.cm
    refine ⟨t, (execPartitionSpill_one hev).trans (congrArg _ (evict_waits hres ht)), ?_, ?_, readByte_congr s h.mem, ?_, h.late⟩
    · rw [hcm]; exact hev
    · rw [residentPart, partSize, hcm]; exact hres
    · rw [hcm, hsp]; rfl
  · have ht := spillPart_ends hext (id := id) (by rw [hsp]; simp) hlate
    obtain ⟨hmem, hcm⟩ := flushLate_cmemKept s id
    obtain ⟨hm, hc⟩ := evicted_cmem c id (flushLate id s)
    rw [hcm, hev, hsp] at hc
    refine ⟨_, (execPartitionSpill_one hev).trans (congrArg _ (evict_done hres ht)), ?_, ?_, ?_, readByte_congr s (hm.trans hmem)⟩
    · rw [hc]; simp
    · rw [hc]; simp
    · rw [residentPart, hc]; simp

end

/-!
## The host window (R169, R186, R189, R255, R413, R440)
-/

namespace Sys2Proof.Machine

/-! ### A line of the window -/

theorem slice_map_range {α : Type} (f : Nat → α) {k n N : Nat} (h : k + n ≤ N) :
    slice k n ((List.range N).map f) = (List.range n).map (fun i => f (k + i)) := by
  refine List.ext_getElem (by simp [slice]; omega) fun i h1 h2 => ?_
  simp [slice]

theorem slice_eq_map_getD {α : Type} {l : List α} {k n : Nat} (h : k + n ≤ l.length) (d : α) :
    slice k n l = (List.range n).map (fun i => l.getD (k + i) d) := by
  refine List.ext_getElem (by simp [slice]; omega) fun i h1 h2 => ?_
  have hi : k + i < l.length := by simp at h2; omega
  simp [slice, List.getElem?_eq_getElem hi]

/-- A write at an aligned offset is one of its space (R413). -/
theorem exec_hostWindowWrite {off : Nat} (h64 : off % 64 = 0) (h32 : off < 2 ^ 32) (s : State) (data : List W8) (be : List Bool) :
    exec (.hostWindowWrite 0 off data be) s = .next (writeRegs off (enabledBytes data be) s) ∧
    exec (.hostWindowWrite 1 off data be) s = .next (writeCore off (enabledBytes data be) s) ∧
    ∀ sp, 2 ≤ sp → exec (.hostWindowWrite sp off data be) s = .next (windowRange sp off s) := by
  have hoff : off / 64 * 64 % 2 ^ 32 = off := by omega
  have hx (sp : Nat) : exec (.hostWindowWrite sp off data be) s = execHostWindowWrite sp off data be s := rfl
  refine ⟨?_, ?_, fun sp hsp => ?_⟩
  · rw [hx, execHostWindowWrite, hoff]
  · rw [hx, execHostWindowWrite, hoff]
  · rw [hx, execHostWindowWrite, hoff] <;> omega

/-- So is a read. -/
theorem exec_hostWindowRead {off : Nat} (h64 : off % 64 = 0) (h32 : off < 2 ^ 32) (s : State) :
    exec (.hostWindowRead 0 off) s = .next (readRegs off s) ∧ exec (.hostWindowRead 1 off) s = .next (readCore off s) ∧
    ∀ sp, 2 ≤ sp → exec (.hostWindowRead sp off) s = .next (answerRead true zeroLine (windowRange sp off s)) := by
  have hoff : off / 64 * 64 % 2 ^ 32 = off := by omega
  have hx (sp : Nat) : exec (.hostWindowRead sp off) s = execHostWindowRead sp off s := rfl
  refine ⟨?_, ?_, fun sp hsp => ?_⟩
  · rw [hx, execHostWindowRead, hoff]
  · rw [hx, execHostWindowRead, hoff]
  · rw [hx, execHostWindowRead, hoff] <;> omega

/-- A host access changes no byte of core memory and no context, and nothing has left the core yet. -/
structure WindowKept (s t : State) : Prop where
  mem : t.mem = s.mem
  ctxs : t.ctxs = s.ctxs
  out : t.out = s.out

namespace WindowKept
variable {s t u : State}

theorem trans (h : WindowKept s t) (h' : WindowKept t u) : WindowKept s u :=
  ⟨h'.mem.trans h.mem, h'.ctxs.trans h.ctxs, h'.out.trans h.out⟩

/-- The answer of a read leaves after it. -/
theorem answer (h : WindowKept s t) (err : Bool) (bs : List W8) : (answerRead err bs t).out = s.out ++ [.window err bs] ∧
    (answerRead err bs t).mem = s.mem ∧ (answerRead err bs t).ctxs = s.ctxs :=
  ⟨by rw [← h.out]; rfl, h.mem, h.ctxs⟩

end WindowKept

theorem windowRange_windowKept (space off : Nat) (s : State) : WindowKept s (windowRange space off s) :=
  ⟨by simp [windowRange], by simp [windowRange], by simp [windowRange]⟩

theorem noteRead_windowKept (g : Nat) (s : State) : WindowKept s (noteRead s g) :=
  noteRead_ind s g (P := WindowKept s) ⟨rfl, rfl, rfl⟩ fun _ _ => ⟨rfl, rfl, rfl⟩

theorem takeSlots_windowKept {s : State} (hdue : NothingDue s) (owner : Nat) (gs : List Nat) :
    WindowKept s (takeSlots owner gs s) := by
  obtain ⟨c, e, w, x, h⟩ := takeSlots_shape hdue owner gs
  rw [h]
  exact ⟨rfl, rfl, rfl⟩

/-! ### Lines of core memory -/

/-- With nothing still to come at the granule and no arrival on its way to it a host write moves in a slot of the service
owner (R21, R159). -/
theorem hostWrite_moves {s : State} {g : Nat} (hdue : NothingDue s) (howes : NoneOwes s g)
    (harr : ∀ a ∈ s.xfer.arrivals, a.gran ≠ g) (bs : List (Option W8)) :
    hostWrite g bs s = writeMasked (takeSlots ownSvc [g] { s with free := s.free + 1 }) g bs := by
  have hnone : s.xfer.arrivals.any (fun a => decide (a.gran = g)) = false :=
    List.any_eq_false.2 fun a ha => by simpa using harr a ha
  have howes' : NoneOwes { s with free := s.free + 1 } g := howes
  have hk := takeSlots_noteKept (s := { s with free := s.free + 1 }) hdue ownSvc [g]
  unfold hostWrite
  simp only [hnone, Bool.false_eq_true, if_false]
  rw [howes'.reach hdue, plainWrite, (howes'.congr hk.runs hk.spans).lostAt, if_neg Bool.false_ne_true]

/-- A host write of a line that can be reached. -/
theorem writeCore_moves {s : State} {off : Nat} {g : Region} (hrel : Released s) (hdue : NothingDue s)
    (hreg : regionOf s off = some g) (hopen : g = .bank → bankOpen s (bankOf s.grade off) = true) (howes : NoneOwes s off)
    (harr : ∀ a ∈ s.xfer.arrivals, a.gran ≠ off) (bs : List (Option W8)) :
    ∃ u, writeCore off bs s = writeMasked u off bs ∧ WindowKept s u := by
  unfold writeCore
  rw [if_neg (Nat.not_lt.2 hrel), hreg]
  cases g with
  | bank =>
    obtain ⟨hm, hc, ho⟩ := takeSlots_windowKept (s := { s with free := s.free + 1 }) hdue ownSvc [off]
    refine ⟨_, ?_, hm, hc, ho⟩
    dsimp only
    rw [if_pos (hopen rfl), hostWrite_moves hdue howes harr]
  | mxeBuf | vxeBuf =>
    exact ⟨_, congrArg (writeMasked · off bs) (howes.reach hdue ownSvc), takeSlots_windowKept hdue ownSvc [off]⟩

theorem readByte_writeMasked_line (s : State) (off : Nat) (data : List W8) (be : List Bool) (k : Nat) :
    readByte (writeMasked s off (enabledBytes data be)) k =
      if off ≤ k ∧ k < off + 64 ∧ be.getD (k - off) false = true then data.getD (k - off) 0#8 else readByte s k := by
  rw [readByte_writeMasked, enabledBytes, getD_map_range]
  by_cases hlo : off ≤ k
  · by_cases hhi : k < off + 64
    · rw [if_pos hlo, if_pos (by omega)]
      cases be.getD (k - off) false <;> simp [hlo, hhi]
    · rw [if_pos hlo, if_neg (by omega), if_neg (by tauto)]
      rfl
  · rw [if_neg hlo, if_neg (by tauto)]

/-- A host read of a granule of an open bank: with an uncorrectable word it answers zeros and an error, which is logged (R189). -/
theorem readCore_bank {s : State} {off : Nat} (hrel : Released s) (hdue : NothingDue s) (hreg : regionOf s off = some .bank)
    (hopen : bankOpen s (bankOf s.grade off) = true) (howes : NoneOwes s off) :
    ∃ u, WindowKept s u ∧ readCore off s =
      if granUncorrectable s off then answerRead true zeroLine u else answerRead false (readBytes s off 64) u := by
  have hslot := takeSlots_windowKept hdue ownSvc [off]
  have hue : granUncorrectable (takeSlots ownSvc [off] s) off = granUncorrectable s off := by
    obtain ⟨c, e, w, x, h⟩ := takeSlots_shape hdue ownSvc [off]
    rw [h]
    rfl
  have hread := hslot.trans (noteRead_windowKept off _)
  unfold readCore
  rw [if_neg (Nat.not_lt.2 hrel), hreg]
  dsimp only
  rw [if_neg (by simp [hopen]), howes.reachRead hdue, hue, readBytes_congr hslot.mem]
  split
  · exact ⟨_, hread.trans ⟨by simp, by simp, by simp⟩, rfl⟩
  · exact ⟨_, hread, rfl⟩

/-- A host read of a granule of a buffer window (R177). -/
theorem readCore_buffer {s : State} {off : Nat} {g : Region} (hrel : Released s) (hdue : NothingDue s)
    (hreg : regionOf s off = some g) (hg : g ≠ .bank) (howes : NoneOwes s off) :
    ∃ u, WindowKept s u ∧ readCore off s = answerRead false (readBytes s off 64) u := by
  have hslot := takeSlots_windowKept hdue ownSvc [off]
  refine ⟨_, hslot, ?_⟩
  unfold readCore
  rw [if_neg (Nat.not_lt.2 hrel), hreg, ← readBytes_congr hslot.mem, ← howes.reachRead hdue]
  cases g with
  | bank => exact absurd rfl hg
  | mxeBuf | vxeBuf => rfl

/-! ### Lines that no access reaches (R169, R186) -/

/-- No access reaches the line: its granule is not there, or its bank gives none. -/
def Unreached (s : State) (off : Nat) : Prop :=
  regionOf s off = none ∨ regionOf s off = some .bank ∧ bankOpen s (bankOf s.grade off) = false

/-- What is noted of an access to such a line. -/
def noteUnreached (s : State) (off : Nat) : State := if regionOf s off = none then windowRange 1 off s else noteDark s

theorem writeCore_unreached {s : State} {off : Nat} (hrel : Released s) (h : Unreached s off) (bs : List (Option W8)) :
    writeCore off bs s = noteUnreached s off := by
  unfold writeCore noteUnreached
  rw [if_neg (Nat.not_lt.2 hrel)]
  obtain h | ⟨h, hb⟩ := h
  · simp [h]
  · simp [h, hb]

theorem readCore_unreached {s : State} {off : Nat} (hrel : Released s) (h : Unreached s off) :
    readCore off s = answerRead false zeroLine (noteUnreached s off) := by
  unfold readCore noteUnreached
  rw [if_neg (Nat.not_lt.2 hrel)]
  obtain h | ⟨h, hb⟩ := h
  · simp [h]
  · simp [h, hb]

theorem noteUnreached_windowKept (s : State) (off : Nat) : WindowKept s (noteUnreached s off) := by
  unfold noteUnreached
  split
  · exact windowRange_windowKept ..
  · exact ⟨rfl, rfl, rfl⟩

theorem answerRead_cm (err : Bool) (bs : List W8) (s : State) : (answerRead err bs s).cm = s.cm := rfl

/-- An access to a bank that gives none is noted (R186). -/
theorem noteUnreached_darkAccess {s : State} {off : Nat} (h : regionOf s off = some .bank) : (noteUnreached s off).cm.darkAccess = true := by
  rw [noteUnreached, if_neg (by simp [h])]
  rfl

/-! ### Lines of the register window (R255, R440) -/

/-- A read of a line of the register window whose AC is in order answers when the AC is over. -/
theorem readRegs_answers {s : State} {off : Nat} (hdue : NothingDue s) (hord : inOrder s (ac s) = true) (hoff : off ≠ 0x400) :
    ∃ w x, let u : State := { s with ec := 2 * ac s + 2, wall := w, stretched := x }
      readRegs off s = answerRead false (regLine (settleTrace u) off) u := by
  obtain ⟨k, w, x, h, hk⟩ := advance_shape hdue (2 * ac s + 2)
  have hec : k = 2 * ac s + 2 := hk.trans (Nat.max_eq_right (by unfold ac; omega))
  refine ⟨w, x, ?_⟩
  unfold readRegs
  rw [if_pos hord, h, hec]
  dsimp only
  rw [if_neg hoff]

/-- A line with all bytes of one word enabled and no other byte. -/
def OneWord (be : List Bool) (k : Nat) : Prop := ∀ i, i < 64 → be.getD i false = decide (4 * k ≤ i ∧ i < 4 * k + 4)

theorem slice_enabledBytes (data : List W8) (be : List Bool) {k : Nat} (hk : k < 16) :
    slice (4 * k) 4 (enabledBytes data be) =
      (List.range 4).map (fun i => if be.getD (4 * k + i) false then some (data.getD (4 * k + i) 0#8) else none) :=
  slice_map_range _ (by omega)

/-- A word of which no byte is enabled stays. -/
theorem writeWord_disabled {be : List Bool} {j k : Nat} (hbe : OneWord be j) (hk : k < 16) (hne : k ≠ j) (off : Nat)
    (data : List W8) (s : State) : writeWord off (enabledBytes data be) s k = s := by
  have hnone : slice (4 * k) 4 (enabledBytes data be) = List.replicate 4 none := by
    rw [slice_enabledBytes data be hk]
    refine List.eq_replicate_iff.2 ⟨by simp, fun b hb => ?_⟩
    obtain ⟨i, hi, rfl⟩ := List.mem_map.1 hb
    have hi4 := List.mem_range.1 hi
    rw [hbe _ (by omega), decide_eq_false (by omega)]
    rfl
  unfold writeWord
  rw [hnone]
  rfl

/-- A word of which every byte is enabled is a register write (R413, R440). -/
theorem writeWord_enabled {be : List Bool} {k : Nat} (hbe : OneWord be k) (hk : k < 16) (off : Nat) {data : List W8}
    (hlen : data.length = 64) (s : State) :
    writeWord off (enabledBytes data be) s k = regWrite (off + 4 * k) (ofLE (slice (4 * k) 4 data)) s := by
  have hall : slice (4 * k) 4 (enabledBytes data be) = (slice (4 * k) 4 data).map some := by
    rw [slice_enabledBytes data be hk, slice_eq_map_getD (by omega) 0#8, List.map_map]
    refine List.map_congr_left fun i hi => ?_
    have hi4 := List.mem_range.1 hi
    rw [hbe _ (by omega), decide_eq_true (by omega)]
    rfl
  unfold writeWord
  dsimp only
  rw [hall, if_pos (by simp), List.map_map]
  exact congrArg (fun l => regWrite _ (ofLE l) s) ((List.map_congr_left fun _ _ => rfl).trans (List.map_id _))

theorem writeWords_one {be : List Bool} {k : Nat} (hbe : OneWord be k) (hk : k < 16) (off : Nat) {data : List W8}
    (hlen : data.length = 64) (s : State) : (List.range 16).foldl (writeWord off (enabledBytes data be)) s =
      regWrite (off + 4 * k) (ofLE (slice (4 * k) 4 data)) s :=
  (foldl_single _ _ List.nodup_range (List.mem_range.2 hk)
    (fun u _ hj hne => writeWord_disabled hbe (List.mem_range.1 hj) hne off data u) s).trans (writeWord_enabled hbe hk off hlen s)

/-- The scratch register takes what is written to it (R443). -/
theorem regWrite_scratch {s : State} (hrel : Released s) (v : Nat) : regWrite 0x14 v s = { s with scratch := v } := by
  have hw : writable s 0x14 = true := by simp [writable, show 8 ≤ s.nvs.phase from hrel]
  rw [regWrite, if_pos hw]
  rfl

/-- A host write of the scratch register with no engine command about: an EC before it, and an EC after it. -/
theorem writeRegs_scratch {s : State} (hrel : Released s) (hno : NoEngineWork s) {data : List W8} {be : List Bool}
    (hlen : data.length = 64) (hbe : OneWord be 5) : ∃ w x, writeRegs 0 (enabledBytes data be) s =
      { s with ec := s.ec + 2, wall := w, stretched := x, scratch := ofLE (slice 20 4 data) } := by
  obtain ⟨-, -, hdue⟩ := id hno
  obtain ⟨k, w, x, h1, hk⟩ := advance_shape hdue (s.ec + 1)
  obtain ⟨l, v, y, h2, hl⟩ := advance_shape
    (s := { s with ec := k, wall := w, stretched := x, scratch := ofLE (slice 20 4 data) }) hdue (k + 1)
  have hec : l = s.ec + 2 := by
    dsimp only at hl
    simp only [Nat.max_def] at hk hl
    split_ifs at hk hl <;> omega
  refine ⟨v, y, ?_⟩
  unfold writeRegs
  rw [inOwnEc_noEngineWork hno, show tick s = _ from h1, writeWords_one hbe (by omega) 0 hlen]
  show tick (regWrite 0x14 (ofLE (slice 20 4 data)) _) = _
  rw [regWrite_scratch (s := { s with ec := k, wall := w, stretched := x }) hrel, show tick _ = _ from h2, hec]

end Sys2Proof.Machine

section
open Sys2Proof Sys2Proof.Machine Host

/-- Settles O58: a line that can be reached moves in a slot of the service owner, one that cannot leaves a note (`noteUnreached`), and
a line of the register window is its words, of which those that are not enabled stay. -/
theorem hostWindowReadsAndWrites : Obligations.HostWindowReadsAndWrites := by
  intro s off g h64 h32 hdue
  obtain ⟨hregs, hcore, hother⟩ := exec_hostWindowRead h64 h32 s
  have hwrite := exec_hostWindowWrite h64 h32 s
  refine ⟨fun hrel hreg hopen howes => ⟨fun data be _ harr => ?_, fun hg hue => ?_, fun hgood => ?_⟩,
    fun hrel hun => ⟨fun data be => ?_, ?_⟩, fun hord hoff => ?_, fun data be hrel hno hlen hbe hoff => ?_,
    fun sp data be hsp => ?_⟩
  · obtain ⟨-, hx, -⟩ := hwrite data be
    obtain ⟨u, hu, hk⟩ := writeCore_moves hrel hdue hreg hopen howes harr (enabledBytes data be)
    obtain ⟨hmove, -⟩ := writeMasked_moveKept u off (enabledBytes data be)
    refine ⟨_, hx.trans (congrArg _ hu), hmove.ctxs.trans hk.ctxs, fun k => ?_⟩
    rw [readByte_writeMasked_line, readByte_congr s hk.mem]
  · obtain ⟨u, hk, hu⟩ := readCore_bank hrel hdue (hg ▸ hreg) (hopen hg) howes
    exact ⟨_, hcore.trans (congrArg _ (hu.trans (if_pos hue))), hk.answer ..⟩
  · by_cases hg : g = .bank
    · obtain ⟨u, hk, hu⟩ := readCore_bank hrel hdue (hg ▸ hreg) (hopen hg) howes
      exact ⟨_, hcore.trans (congrArg _ (hu.trans (if_neg (by simp [hgood.resolve_left (not_not.2 hg)])))), hk.answer ..⟩
    · obtain ⟨u, hk, hu⟩ := readCore_buffer hrel hdue hreg hg howes
      exact ⟨_, hcore.trans (congrArg _ hu), hk.answer ..⟩
  · obtain ⟨-, hx, -⟩ := hwrite data be
    have hk := noteUnreached_windowKept s off
    exact ⟨_, hx.trans (congrArg _ (writeCore_unreached hrel hun _)), hk.mem, hk.ctxs⟩
  · obtain ⟨ho, hm, hc⟩ := (noteUnreached_windowKept s off).answer false zeroLine
    exact ⟨_, hcore.trans (congrArg _ (readCore_unreached hrel hun)), hm, hc, ho, fun h => by
      rw [answerRead_cm, noteUnreached_darkAccess h]⟩
  · obtain ⟨w, x, h⟩ := readRegs_answers hdue hord hoff
    exact ⟨_, hregs.trans (congrArg _ h), rfl⟩
  · obtain ⟨w, x, h⟩ := writeRegs_scratch hrel hno hlen hbe
    obtain ⟨hx, -, -⟩ := hwrite data be
    exact ⟨_, hx.trans (congrArg _ (hoff ▸ h)), rfl⟩
  · obtain ⟨-, -, hx⟩ := hwrite data be
    have hk := windowRange_windowKept sp off s
    obtain ⟨ho, hm, hc⟩ := hk.answer true zeroLine
    exact ⟨⟨_, hx sp hsp, hk.mem, hk.ctxs, hk.out⟩, _, hother sp hsp, hm, hc, ho⟩

end

/-!
## Issue: the scalar commands and their results (R196, R210, R211)
-/

namespace Sys2Proof.Machine

/-! ### A scalar command issues -/

/-- A 32-bit immediate is sign-extended (R211). -/
theorem immSext_toNat (v : W32) : immSext v.toNat = v.signExtend 64 := by
  have hsext : sext 32 v.toNat = v.toInt := by
    rw [sext, Nat.mod_eq_of_lt v.isLt, BitVec.toInt_eq_toNat_cond]
    norm_num
  apply BitVec.eq_of_toNat_eq
  rw [immSext, hsext, wrap, BitVec.signExtend, BitVec.toNat_ofInt, BitVec.toNat_ofNat]
  have h : (v.toInt % 2 ^ 64).toNat < 2 ^ 64 := by omega
  rw [Nat.mod_eq_of_lt h]
  rfl

/-- The 64-bit value of two words (R211). -/
theorem ofNat_words (lo hi : W32) : BitVec.ofNat 64 (lo.toNat + hi.toNat * 2 ^ 32) = (hi ++ lo : BitVec (32 + 32)) := by
  apply BitVec.eq_of_toNat_eq
  rw [BitVec.toNat_ofNat, BitVec.toNat_append, ← Nat.shiftLeft_add_eq_or_of_lt lo.isLt, Nat.shiftLeft_eq]
  omega

/-- The words of a command of the escapement are those of its slot: no loop offset goes into them (R217). -/
theorem cmdOf_words {sl : Slot} (h : opcodeOf sl ≤ 9) (s : State) (x : CtxSt) : (cmdOf s x sl).words = slotWords sl := by
  change withOffsets (opcodeOf sl) (slotWords sl) _ = slotWords sl
  generalize opcodeOf sl = op at h
  interval_cases op <;> rfl

/-- The words of such a command, one by one. -/
theorem cmdOf_w {sl : Slot} (h : opcodeOf sl ≤ 9) (s : State) (x : CtxSt) :
    (cmdOf s x sl).w 1 = sl.w1.toNat ∧ (cmdOf s x sl).w 2 = sl.w2.toNat ∧ (cmdOf s x sl).w 3 = sl.w3.toNat ∧
      (cmdOf s x sl).w 4 = sl.w4.toNat := by
  simp only [Cmd.w, cmdOf_words h]
  exact ⟨rfl, rfl, rfl, rfl⟩

/-- A scalar command in its format issues: its effect is on its own context (R211). -/
theorem scalar_issues {s : State} {c : Ctx} {sl : Slot} (h : Due s c sl) (hp : Passes s c sl) (hr : slotRsv sl = 0)
    {op : Nat} (hop : opcodeOf sl = op) {ok : Cmd → Bool} (hok : ok (cmdOf s (ctx s c) sl) = true)
    (eff : Cmd → CtxSt → CtxSt) : ∃ t, issueRow op false (scalar ok eff) sl s = .next t ∧ ScalarFrame s c sl t ∧
      ctx t c = eff (cmdOf s (ctx s c) sl) (afterIssue s c sl) := by
  have hgo : scalar ok eff c (cmdOf s (ctx s c) sl) (atIssueState s c sl) =
      modCtx (passed c (cmdOf s (ctx s c) sl) (atIssueState s c sl)) c (eff (cmdOf s (ctx s c) sl)) :=
    if_neg (by rintro (h | h); exacts [h hr, absurd h (by simp [hok])])
  refine ⟨_, (if_pos hop).trans (congrArg _ ((doIssue_pass h hp ..).trans hgo)), frame_passed _, ?_⟩
  rw [ctx_modCtx_same, ctx_passed]

/-- The words of a slot from i on are zero (R445). -/
theorem zeroFrom_slot {sl : Slot} (h : opcodeOf sl ≤ 9) (s : State) (x : CtxSt) {i : Nat}
    (hz : ∀ w ∈ slice i (8 - i) (slotWords sl), w = 0) : zeroFrom (cmdOf s x sl) i = true := by
  rw [zeroFrom, cmdOf_words h]
  exact List.all_eq_true.2 fun w hw => decide_eq_true (hz w hw)

/-! ### Address registers (R210) -/

/-- The registers after an issue are those that the command finds. -/
@[simp] theorem getAreg_afterIssue (s : State) (c : Ctx) (sl : Slot) (a : Nat) :
    getAreg (afterIssue s c sl) a = getAreg (issueCtx s c sl) a := by simp only [getAreg, afterIssue]

@[simp] theorem getPar_afterIssue (s : State) (c : Ctx) (sl : Slot) (n : Nat) :
    getPar (afterIssue s c sl) n = getPar (issueCtx s c sl) n := by simp only [getPar, afterIssue]

@[simp] theorem getPred_afterIssue (s : State) (c : Ctx) (sl : Slot) (i : Nat) :
    getPred (afterIssue s c sl) i = getPred (issueCtx s c sl) i := by simp only [getPred, afterIssue]

/-- An address register that a scalar command has written (R210). -/
@[simp] theorem getAreg_writeAreg_same (e : Nat) (x : CtxSt) (a : Nat) (v : W64) : getAreg (writeAreg e x a v) a = v :=
  SMap.get_set_same _

theorem getAreg_writeAreg_ne (e : Nat) (x : CtxSt) {a b : Nat} (v : W64) (h : b ≠ a) :
    getAreg (writeAreg e x a v) b = getAreg x b := SMap.get_set_ne _ h

/-- A write of an engine is seen by a command that issues two EC after the beginning of its AC or later, and by none before
(R210). -/
theorem getAreg_seeLate_landAreg (e n k a : Nat) (v : W64) {x : CtxSt} (hx : x.late = []) (b : Nat) :
    (e < 2 * n + 2 → getAreg (seeLate e (landAreg n k a v x)) b = getAreg x b) ∧
    (2 * n + 2 ≤ e → SMap.get 0 x.wroteAt a ≤ 2 * n + 1 →
      getAreg (seeLate e (landAreg n k a v x)) b = if b = a then v else getAreg x b) := by
  have hlate : (landAreg n k a v x).late = [⟨n, k, a, v⟩] := by simp [landAreg, hx, insertLate]
  constructor
  · intro he
    rw [seeLate, hlate]
    simp [Nat.not_le.2 he, getAreg, landAreg]
  · intro he hw
    rw [seeLate, hlate]
    simp [he, applyLate, Nat.not_le.2 (Nat.lt_succ_of_le hw), landAreg, getAreg, setAreg, SMap.get_set]

/-! ### ESC.ALU (R211) -/

/-- The operand b of ESC.ALU and ESC.CMP (R211). -/
theorem srcB_cmdOf {sl : Slot} (h : opcodeOf sl ≤ 9) {b : Bool} {rb : Nat} (hb : bit sl.w1.toNat 12 = b)
    (hrb : bits sl.w1.toNat 11 8 = rb) (s : State) (x y : CtxSt) :
    srcB (cmdOf s x sl) y = if b then sl.w2.signExtend 64 else getAreg y rb := by
  obtain ⟨h1, h2, -⟩ := cmdOf_w h s x
  rw [srcB, h1, h2, hb, hrb, immSext_toNat]

/-- The results of ESC.ALU (R211). -/
theorem alu_spec (op : Nat) (a b : W64) : (op = 0 → alu op a b = a + b) ∧ (op = 1 → alu op a b = a - b) ∧
    (op = 2 → alu op a b = a * b) ∧ (op = 3 → alu op a b = a <<< (b.toNat % 64)) ∧
    (op = 4 → alu op a b = a >>> (b.toNat % 64)) ∧ (op = 5 → alu op a b = a.sshiftRight (b.toNat % 64)) ∧
    (op = 6 → alu op a b = a &&& b) ∧ (op = 7 → alu op a b = a ||| b) ∧ (op = 8 → alu op a b = a ^^^ b) ∧
    (op = 9 → (alu op a b).toNat = min a.toNat b.toNat) ∧ (op = 10 → (alu op a b).toNat = max a.toNat b.toNat) := by
  refine ⟨?_, ?_, ?_, ?_, ?_, ?_, ?_, ?_, ?_, ?_, ?_⟩ <;> rintro rfl
  case refine_10 =>
    rw [alu, apply_ite BitVec.toNat]
    simp only [BitVec.ult, decide_eq_true_eq]
    split_ifs <;> omega
  case refine_11 =>
    show (if a.ult b then b else a).toNat = _
    rw [apply_ite BitVec.toNat]
    simp only [BitVec.ult, decide_eq_true_eq]
    split_ifs <;> omega
  all_goals rfl

/-- The fields of a word of ESC.ALU. -/
theorem aluWord_fields {w d ra rb op : Nat} {b : Bool} (hd : d < 16) (hra : ra < 16) (hrb : rb < 16) (hop : op < 16)
    (hw : w = d + ra * 2 ^ 4 + rb * 2 ^ 8 + b2n b * 2 ^ 12 + op * 2 ^ 13) :
    w < 2 ^ 17 ∧ bits w 3 0 = d ∧ bits w 7 4 = ra ∧ bits w 11 8 = rb ∧ bit w 12 = b ∧ bits w 16 13 = op := by
  cases b <;> simp only [bits, bit, b2n, if_true, if_false, Bool.false_eq_true] at hw ⊢ <;> simp <;> omega

end Sys2Proof.Machine

section
open Sys2Proof Sys2Proof.Machine Host

/-- Settles O7: a scalar command in its format issues (`scalar_issues`), and its effect is read off its fields; what an
engine writes is seen from two EC after the beginning of its AC on (`getAreg_seeLate_landAreg`). -/
theorem registerCommandsResults : Obligations.RegisterCommandsResults := by
  refine ⟨fun e n k a v x hx => ⟨fun he => ?_, fun he hw => ⟨?_, fun b hb => ?_⟩⟩,
    fun s c sl hdue hp hr => ⟨?_, ?_, ?_⟩, ?_⟩
  · exact (getAreg_seeLate_landAreg e n k a v hx a).1 he
  · exact ((getAreg_seeLate_landAreg e n k a v hx a).2 he (hw a)).trans (if_pos rfl)
  · exact ((getAreg_seeLate_landAreg e n k a v hx b).2 he (hw a)).trans (if_neg hb)
  · intro hop h1 h2 h3 h4 h5 h6 h7
    exact scalar_issues hdue hp hr hop (zeroFrom_slot (by omega) _ _ (by simp [slice, slotWords, *])) _
  · intro hop h1 h4 h5 h6 h7
    have hle : opcodeOf sl ≤ 9 := by omega
    obtain ⟨hw1, hw2, hw3, -⟩ := cmdOf_w hle s (ctx s c)
    have hok : setOk (cmdOf s (ctx s c) sl) = true := by
      rw [setOk, hw1, decide_eq_true h1, zeroFrom_slot hle _ _ (by simp [slice, slotWords, *])]; rfl
    obtain ⟨t, ht, hframe, hctx⟩ := scalar_issues hdue hp hr hop hok setEff
    have heff : setEff (cmdOf s (ctx s c) sl) (afterIssue s c sl) =
        writeAreg (dueEc s (ctx s c) sl) (afterIssue s c sl) sl.w1.toNat (sl.w3 ++ sl.w2) := by
      rw [setEff, hw1, hw2, hw3, Nat.mod_eq_of_lt h1]
      exact congrArg (writeAreg _ _ _) (ofNat_words ..)
    rw [heff] at hctx
    refine ⟨t, ht, hframe, hctx, ?_, fun a ha => ?_⟩
    · rw [hctx, getAreg_writeAreg_same]
    · rw [hctx, getAreg_writeAreg_ne _ _ _ ha, getAreg_afterIssue]
  · intro hop h1 h2 h3 h4 h5 h6 h7
    have hle : opcodeOf sl ≤ 9 := by omega
    obtain ⟨hw1, -⟩ := cmdOf_w hle s (ctx s c)
    have hok : ldpOk (cmdOf s (ctx s c) sl) = true := by
      rw [ldpOk, hw1, decide_eq_true h1, zeroFrom_slot hle _ _ (by simp [slice, slotWords, *])]; rfl
    obtain ⟨t, ht, hframe, hctx⟩ := scalar_issues hdue hp hr hop hok ldpEff
    refine ⟨t, ht, hframe, hctx.trans ?_⟩
    rw [ldpEff, hw1, show bits sl.w1.toNat 3 0 = sl.w1.toNat % 16 by simp [bits],
      show bits sl.w1.toNat 9 4 = sl.w1.toNat / 16 by simp only [bits]; omega,
      getPar_afterIssue]
    rfl
  · intro s c sl op d ra rb useImm hdue hp hr hop hd hra hrb hop10 hw h3 h4 h5 h6 h7 x a b
    have hle : opcodeOf sl ≤ 9 := by omega
    obtain ⟨hw1, -⟩ := cmdOf_w hle s (ctx s c)
    obtain ⟨hlt, hfd, hfa, hfb, hfi, hfo⟩ := aluWord_fields hd hra hrb (by omega) hw
    have hok : aluOk (cmdOf s (ctx s c) sl) = true := by
      rw [aluOk, hw1, hfo, decide_eq_true hlt, decide_eq_true hop10, zeroFrom_slot hle _ _ (by simp [slice, slotWords, *])]; rfl
    obtain ⟨t, ht, hframe, hctx⟩ := scalar_issues hdue hp hr hop hok aluEff
    refine ⟨t, alu op a b, ht, hframe, hctx.trans ?_, ?_⟩
    · rw [aluEff, hw1, hfd, hfa, hfo, srcB_cmdOf hle hfi hfb, getAreg_afterIssue, getAreg_afterIssue]; rfl
    · exact alu_spec op a b
end

/-!
## Issue: predicates and comparators (R196, R211, R212)
-/

namespace Sys2Proof.Machine

/-- A predicate bit that has been written (R196). -/
theorem getPred_setPred_same (x : CtxSt) {i : Nat} (h0 : 0 < i) (h16 : i < 16) (b : Bool) : getPred (setPred x i b) i = b := by
  have hbit : (BitVec.ofNat 16 (2 ^ i)).getLsbD i = true := by
    simp only [BitVec.getLsbD_ofNat, Nat.testBit_two_pow_self, h16, decide_true, Bool.and_true]
  rw [getPred, setPred, if_neg (by omega), decide_eq_false (by omega), Bool.false_or]
  generalize BitVec.ofNat 16 (2 ^ i) = m at hbit
  cases b
  · simp [hbit]
  · simp [hbit]

/-- The comparisons of ESC.CMP and of the comparators (R211). -/
theorem condHolds_spec (cond : Nat) (sgn : Bool) (a b : W64) :
    let lt := if sgn then a.toInt < b.toInt else a.toNat < b.toNat
    (cond = 0 → (condHolds cond sgn a b = true ↔ a = b)) ∧ (cond = 1 → (condHolds cond sgn a b = true ↔ a ≠ b)) ∧
    (cond = 2 → (condHolds cond sgn a b = true ↔ lt)) ∧ (cond = 3 → (condHolds cond sgn a b = true ↔ lt ∨ a = b)) ∧
    (cond = 4 → (condHolds cond sgn a b = true ↔ ¬ (lt ∨ a = b))) ∧
    (cond = 5 → (condHolds cond sgn a b = true ↔ ¬ lt)) := by
  intro lt
  have hlt : (if sgn then a.slt b else a.ult b) = true ↔ lt := by
    cases sgn <;> simp [lt, BitVec.slt, BitVec.ult]
  have hle : (if sgn then a.sle b else a.ule b) = true ↔ lt ∨ a = b := by
    cases sgn
    · simp only [lt, BitVec.ule, Bool.false_eq_true, if_false, decide_eq_true_eq, BitVec.toNat_eq]
      omega
    · simp only [lt, BitVec.sle, if_true, decide_eq_true_eq, ← BitVec.toInt_inj]
      omega
  refine ⟨?_, ?_, ?_, ?_, ?_, ?_⟩ <;> rintro rfl
  · exact decide_eq_true_iff
  · exact decide_eq_true_iff
  · exact hlt
  · exact hle
  · rw [← hle, Bool.not_eq_true, ← Bool.not_eq_true']; rfl
  · rw [← hlt, Bool.not_eq_true, ← Bool.not_eq_true']; rfl

/-- The logic of ESC.PLOG (R211). -/
theorem plogOp_spec (op : Nat) (a b : Bool) : (op = 0 → plogOp op a b = (a && b)) ∧ (op = 1 → plogOp op a b = (a || b)) ∧
    (op = 2 → plogOp op a b = (a != b)) ∧ (op = 3 → plogOp op a b = (a && !b)) := by
  refine ⟨?_, ?_, ?_, ?_⟩ <;> rintro rfl
  case refine_3 => cases a <;> cases b <;> rfl
  all_goals rfl

/-- The fields of a word of ESC.CMP and of ESC.CMPARM. -/
theorem cmpWord_fields {w d ra rb cond : Nat} {b sgn : Bool} (hd : d < 16) (hra : ra < 16) (hrb : rb < 16) (hc : cond < 8)
    (hw : w = d + ra * 2 ^ 4 + rb * 2 ^ 8 + b2n b * 2 ^ 12 + cond * 2 ^ 13 + b2n sgn * 2 ^ 16) :
    w < 2 ^ 17 ∧ bits w 3 0 = d ∧ bits w 7 4 = ra ∧ bits w 11 8 = rb ∧ bit w 12 = b ∧ bits w 15 13 = cond ∧
      bit w 16 = sgn := by
  have hop : cond + b2n sgn * 8 < 16 := by cases sgn <;> simp [b2n] <;> omega
  obtain ⟨hlt, hfd, hfa, hfb, hfi, hfo⟩ := aluWord_fields (b := b) hd hra hrb hop (hw.trans (by ring))
  refine ⟨hlt, hfd, hfa, hfb, hfi, ?_, ?_⟩
  · simp only [bits] at hfo ⊢; omega
  · cases sgn <;> simp [bits, bit, b2n] at hfo ⊢ <;> omega

/-- The fields of a word of ESC.PLOG. -/
theorem plogWord_fields {w d pa pb op : Nat} (hd : d < 16) (hpa : pa < 16) (hpb : pb < 16) (hop : op < 4)
    (hw : w = d + pa * 2 ^ 4 + pb * 2 ^ 8 + op * 2 ^ 12) :
    w < 2 ^ 14 ∧ bits w 3 0 = d ∧ bits w 7 4 = pa ∧ bits w 11 8 = pb ∧ bits w 13 12 = op := by
  simp only [bits]; omega

/-- A comparator armed by a slot: which, and what it compares (R211). -/
theorem cmparmOf_cmdOf {sl : Slot} (h : opcodeOf sl ≤ 9) {k : Nat} {cmp : Cmp} (hk : k < 8) (hp : cmp.pdst < 16)
    (hsrc : cmp.src < 16) (hc : cmp.cond < 8) (himm : cmp.imm = sl.w2.toNat)
    (hw : sl.w1.toNat = k + b2n cmp.armed * 2 ^ 3 + cmp.pdst * 2 ^ 4 + cmp.src * 2 ^ 8 + b2n cmp.kind * 2 ^ 12 +
      cmp.cond * 2 ^ 13 + b2n cmp.sgn * 2 ^ 16) (s : State) (x : CtxSt) :
    sl.w1.toNat < 2 ^ 17 ∧ bits sl.w1.toNat 2 0 = k ∧ bits sl.w1.toNat 11 8 = cmp.src ∧ bit sl.w1.toNat 12 = cmp.kind ∧
      bits sl.w1.toNat 15 13 = cmp.cond ∧ cmparmOf (cmdOf s x sl) = cmp := by
  have hd : k + b2n cmp.armed * 2 ^ 3 < 16 := by cases cmp.armed <;> simp [b2n] <;> omega
  obtain ⟨hlt, hfd, hfa, hfb, hfi, hfc, hfs⟩ := cmpWord_fields hd hp hsrc hc hw
  have hbits : bits sl.w1.toNat 2 0 = k ∧ bit sl.w1.toNat 3 = cmp.armed := by
    cases ha : cmp.armed <;> simp [bits, bit, b2n, ha] at hfd ⊢ <;> omega
  obtain ⟨hw1, hw2, -⟩ := cmdOf_w h s x
  refine ⟨hlt, hbits.1, hfb, hfi, hfc, ?_⟩
  rw [cmparmOf, hw1, hw2, hbits.2, hfa, hfb, hfi, hfc, hfs, ← himm]

/-- What arming comparator k does to a context (R212). -/
def armCmp (k : Nat) (cmp : Cmp) (x : CtxSt) : CtxSt :=
  let y := { x with cmps := SMap.set {} x.cmps k cmp }
  if cmp.armed then setPred y cmp.pdst (cmpResult x cmp) else y

theorem armCmp_spec (k : Nat) (cmp : Cmp) (x : CtxSt) : (armCmp k cmp x).cmps = SMap.set {} x.cmps k cmp ∧
    (cmp.armed = false → (armCmp k cmp x).pred = x.pred) ∧
    (cmp.armed = true → 0 < cmp.pdst → cmp.pdst < 16 → getPred (armCmp k cmp x) cmp.pdst = cmpResult x cmp) := by
  unfold armCmp
  refine ⟨?_, fun h => by rw [h]; rfl, fun h h0 h16 => by rw [h]; exact getPred_setPred_same _ h0 h16 _⟩
  dsimp only
  split
  · rw [setPred_pred]
  · rfl

end Sys2Proof.Machine

section
open Sys2Proof Sys2Proof.Machine Host

/-- Settles O8: a scalar command in its format issues (`scalar_issues`) and writes its predicate bit; a comparator compares as
ESC.CMP does (`condHolds_spec`, `armCmp_spec`). -/
theorem predicateAndComparatorResults : Obligations.PredicateAndComparatorResults := by
  refine ⟨fun s c sl hdue hp hr h3 h4 h5 h6 h7 => ⟨?_, ?_⟩, ?_⟩
  · intro d ra rb cond useImm sgn hop hd hra hrb hc hw x a b lt
    have hle : opcodeOf sl ≤ 9 := by omega
    obtain ⟨hw1, -⟩ := cmdOf_w hle s (ctx s c)
    obtain ⟨hlt, hfd, hfa, hfb, hfi, hfc, hfs⟩ := cmpWord_fields hd hra hrb (by omega) hw
    have hok : cmpOk (cmdOf s (ctx s c) sl) = true := by
      rw [cmpOk, hw1, hfc, decide_eq_true hlt, decide_eq_true hc, zeroFrom_slot hle _ _ (by simp [slice, slotWords, *])]; rfl
    obtain ⟨t, ht, hframe, hctx⟩ := scalar_issues hdue hp hr hop hok cmpEff
    have heff : cmpEff (cmdOf s (ctx s c) sl) (afterIssue s c sl) = setPred (afterIssue s c sl) d (condHolds cond sgn a b) := by
      rw [cmpEff, hw1, hfd, hfa, hfc, hfs, srcB_cmdOf hle hfi hfb, getAreg_afterIssue, getAreg_afterIssue]
    rw [heff] at hctx
    exact ⟨t, condHolds cond sgn a b, ht, hframe, hctx, rfl, fun h0 => by rw [hctx, getPred_setPred_same _ h0 hd],
      condHolds_spec cond sgn a b⟩
  · intro d pa pb op hop h2 hd hpa hpb hlt4 hw a b
    have hle : opcodeOf sl ≤ 9 := by omega
    obtain ⟨hw1, -⟩ := cmdOf_w hle s (ctx s c)
    obtain ⟨hlt, hfd, hfa, hfb, hfo⟩ := plogWord_fields hd hpa hpb hlt4 hw
    have hok : plogOk (cmdOf s (ctx s c) sl) = true := by
      rw [plogOk, hw1, decide_eq_true hlt, zeroFrom_slot hle _ _ (by simp [slice, slotWords, *])]; rfl
    obtain ⟨t, ht, hframe, hctx⟩ := scalar_issues hdue hp hr hop hok plogEff
    refine ⟨t, plogOp op a b, ht, hframe, hctx.trans ?_, plogOp_spec op a b⟩
    rw [plogEff, hw1, hfd, hfa, hfb, hfo, getPred_afterIssue, getPred_afterIssue]
  · intro s c sl k cmp hdue hp hr hop hk hpd hsrc hkind hc himm hw h3 h4 h5 h6 h7 x
    have hle : opcodeOf sl ≤ 9 := by omega
    obtain ⟨hw1, -⟩ := cmdOf_w hle s (ctx s c)
    obtain ⟨hlt, hfk, hfs, hfi, hfc, hcmp⟩ := cmparmOf_cmdOf hle hk hpd hsrc (by omega) himm hw s (ctx s c)
    have hok : cmparmOk (cmdOf s (ctx s c) sl) = true := by
      rw [cmparmOk, hw1, hfc, hfs, hfi, decide_eq_true hlt, decide_eq_true hc,
        zeroFrom_slot hle _ _ (by simp [slice, slotWords, *])]
      cases hcase : cmp.kind
      · rfl
      · exact decide_eq_true (hkind hcase)
    obtain ⟨t, ht, hframe, hctx⟩ := scalar_issues hdue hp hr hop hok cmparmEff
    have heff : ctx t c = armCmp k cmp (afterIssue s c sl) := by
      rw [hctx, cmparmEff, hcmp, hw1, hfk]; rfl
    obtain ⟨hcmps, hoff, hon⟩ := armCmp_spec k cmp (afterIssue s c sl)
    refine ⟨t, ht, hframe, ?_, fun j hj => ?_, fun h => ?_, fun h h0 => ?_⟩
    · rw [heff, hcmps, SMap.get_set_same]
    · rw [heff, hcmps, SMap.get_set_ne _ hj]; rfl
    · rw [heff, hoff h]; rfl
    · rw [heff, hon h h0 hpd, cmpResult, cmpSource, himm, immSext_toNat, getAreg_afterIssue]; rfl
end

/-!
## Issue: loops and the end of a program (R199, R206, R213, R214)
-/

namespace Sys2Proof.Machine

/-! ### The frame of a scalar command -/

/-- A change of its own context keeps the frame of a scalar command. -/
theorem ScalarFrame.modCtx {s t : State} {c : Ctx} {sl : Slot} (h : ScalarFrame s c sl t) (f : CtxSt → CtxSt) :
    ScalarFrame s c sl (modCtx t c f) where
  rest := congrArg (fun u : State => { u with ctxs := (Machine.modCtx t c f).ctxs }) h.rest
  time := h.time
  others d hd := (ctx_modCtx_ne _ _ _ _ hd).trans (h.others d hd)
  bytes := h.bytes
  queues := h.queues
  log := h.log

/-- So does its issue. -/
theorem ScalarFrame.passed {s t : State} {c : Ctx} {sl : Slot} (h : ScalarFrame s c sl t) (m : Cmd) :
    ScalarFrame s c sl (passed c m t) := by
  obtain ⟨hrest, -, hothers, -, -, hlog⟩ := h.modCtx fun x =>
    { x with pos := m.pos + 1, lastIssue := m.ec, fresh := false, slipping := false, issued := (x.issued + 1) % 2 ^ 32 }
  unfold Machine.passed
  refine frame_of ?_ hothers ?_
  · exact congrArg (fun u => Machine.trace _ u) hrest
  · obtain ⟨hlog', hactive, hlost, hcounts⟩ := hlog
    obtain ⟨h1, h2, h3, h4⟩ := traceErr_log
      { kind := 1, ctx := some c, opcode := m.op, tag := m.tag, time := m.ec, argA := m.pos, argB := m.gap } t.err
    exact ⟨h1.trans hlog', h2.trans hactive, h3.trans hlost, h4.trans hcounts⟩

/-- The context after the issue of a command (R26). -/
theorem ctx_passed_same (c : Ctx) (m : Cmd) (s : State) : ctx (passed c m s) c =
    { ctx s c with pos := m.pos + 1, lastIssue := m.ec, fresh := false, slipping := false
                   issued := ((ctx s c).issued + 1) % 2 ^ 32 } := by
  rw [passed, ctx_trace, ctx_modCtx_same]

theorem slotAt_congr {s t : State} (h : t.code = s.code) (x : CtxSt) (p : Nat) : slotAt t x p = slotAt s x p := by
  rw [slotAt, h, slotAt]

/-- A scalar command that no predicate holds back issues. -/
theorem exec_always {s : State} {c : Ctx} {sl : Slot} (h : Due s c sl) {op : Nat} (hop : opcodeOf sl = op)
    (act : Ctx → Cmd → State → State) :
    issueRow op true act sl s = .next (act c (cmdOf s (ctx s c) sl) (atIssueState s c sl)) :=
  (if_pos hop).trans (congrArg _ (doIssue_always h act))

/-! ### ESC.LOOP and ESC.ENDLOOP (R213, R214) -/

/-- Counter k of a context has its count (R213). -/
def latchCount (c : Ctx) (k n : Nat) (s : State) : State := modCtx s c (fun x => { x with lcCnt := SMap.set 0 x.lcCnt k n })

/-- ESC.LOOP with an immediate count that closes at an ESC.ENDLOOP of its counter, whose loop is not open: it skips its body, opens,
or faults (R213). -/
theorem issueLoop_immediate {c : Ctx} {m : Cmd} {s : State} {k : Nat} (hk : k < 8) (hrsv : m.rsv = 0) (h1 : m.w 1 = k)
    (h2 : m.w 2 < 2 ^ 16) (hzero : zeroFrom m 5 = true) (hop : opcodeOf (slotAt s (ctx s c) (m.pos + m.w 2)) = 0x08)
    (hctr : (slotAt s (ctx s c) (m.pos + m.w 2)).w1.toNat % 8 = k) (hnew : ∀ l ∈ (ctx s c).loops, l.ctr ≠ k)
    (hroom : (ctx s c).loops.length < 6) :
    (m.w 3 = 0 → issueLoop c m s =
      modCtx (passed c m (latchCount c k 0 s)) c (fun x => { x with pos := m.pos + m.w 2 + 1 })) ∧
    (0 < m.w 3 → m.w 3 ≤ m.w 4 → issueLoop c m s = modCtx (passed c m (latchCount c k (m.w 3) s)) c (fun x =>
      { x with loops := x.loops ++ [⟨k, m.pos + 1⟩], lcIdx := SMap.set 0 x.lcIdx k 0 })) ∧
    (m.w 4 < m.w 3 → issueLoop c m s = streamFault c cLOOP_RANGE m.tag [m.w 3, m.w 4] (latchCount c k (m.w 3) s)) := by
  have hfk : bits (m.w 1) 2 0 = k := by simp only [bits]; omega
  have hsrc : bits (m.w 1) 4 3 = 0 := by simp only [bits]; omega
  have hok : loopOk m = true := by
    rw [loopOk, hsrc, decide_eq_true h2, hzero, decide_eq_true (by omega)]; rfl
  have hcount : loopCount m (ctx s c) = m.w 3 := by rw [loopCount, hsrc]; rfl
  have hclose : bits (slotAt s (ctx s c) (m.pos + m.w 2)).w1.toNat 2 0 = k := by simpa [bits] using hctr
  have hany : ((ctx s c).loops.any fun l => decide (l.ctr = k)) = false :=
    List.any_eq_false.2 fun l hl => by simpa using hnew l hl
  have hbody : issueLoop c m s =
      if m.w 3 = 0 then modCtx (passed c m (latchCount c k (m.w 3) s)) c (fun x => { x with pos := m.pos + m.w 2 + 1 })
      else if m.w 4 < m.w 3 then streamFault c cLOOP_RANGE m.tag [m.w 3, m.w 4] (latchCount c k (m.w 3) s)
      else modCtx (passed c m (latchCount c k (m.w 3) s)) c (fun x =>
        { x with loops := x.loops ++ [⟨k, m.pos + 1⟩], lcIdx := SMap.set 0 x.lcIdx k 0 }) := by
    unfold issueLoop latchCount
    simp only [hfk, hcount, hok, hrsv, hop, hclose, hany, Nat.not_le.2 hroom, ne_eq, not_true_eq_false, Bool.true_eq_false,
      Bool.false_eq_true, or_self, if_false]
  rw [hbody]
  refine ⟨fun h => ?_, fun h h' => ?_, fun h => ?_⟩
  · rw [if_pos h, h]
  · rw [if_neg (by omega), if_neg (by omega)]
  · rw [if_neg (by omega), if_pos h]

/-- ESC.ENDLOOP of the innermost loop: another round, or the loop closes (R214). -/
theorem issueEndLoop_innermost {c : Ctx} {m : Cmd} {s : State} {ls : List Loop} {l : Loop} (hk : l.ctr < 8) (hrsv : m.rsv = 0)
    (h1 : m.w 1 = l.ctr) (hzero : zeroFrom m 2 = true) (hloops : (ctx s c).loops = ls ++ [l]) :
    issueEndLoop c m s = if SMap.get 0 (ctx s c).lcIdx l.ctr + 1 < SMap.get 0 (ctx s c).lcCnt l.ctr then
        modCtx (passed c m s) c (fun x =>
          { x with pos := l.body, lcIdx := SMap.set 0 x.lcIdx l.ctr (SMap.get 0 x.lcIdx l.ctr + 1) })
      else modCtx (passed c m s) c (fun x => { x with loops := x.loops.dropLast }) := by
  have hfk : bits (m.w 1) 2 0 = l.ctr := by simp only [bits]; omega
  have h8 : ¬ 8 ≤ m.w 1 := by omega
  unfold issueEndLoop
  simp only [hloops, List.getLast?_concat, hfk, hrsv, hzero, h8, ne_eq, not_true_eq_false, Bool.true_eq_false, or_self, if_false]

end Sys2Proof.Machine

section
open Sys2Proof Sys2Proof.Machine Host

/-- Settles O9: ESC.LOOP skips, opens or faults (`issueLoop_immediate`), ESC.ENDLOOP of the innermost loop goes round or closes it
(`issueEndLoop_innermost`), and ESC.END issues or pauses at its untimed point. -/
theorem loopsAndTheEndOfAProgram : Obligations.LoopsAndTheEndOfAProgram := by
  refine ⟨?_, ?_, ?_⟩
  · intro s c sl k hdue hr hop hk h1 h2 h5 h6 h7 hclose hctr hnew hroom
    have hle : opcodeOf sl ≤ 9 := by omega
    obtain ⟨hw1, hw2, hw3, hw4⟩ := cmdOf_w hle s (ctx s c)
    have hslot (p : Nat) : slotAt (atIssueState s c sl) (ctx (atIssueState s c sl) c) p = slotAt s (issueCtx s c sl) p := by
      rw [ctx_atIssue]
      exact slotAt_congr (by simp [atIssueState, issueState]) _ _
    obtain ⟨hskip, hopen, hrange⟩ := issueLoop_immediate (c := c) (m := cmdOf s (ctx s c) sl) (s := atIssueState s c sl) hk hr
      (hw1.trans h1) (hw2 ▸ h2) (zeroFrom_slot hle _ _ (by simp [slice, slotWords, *])) (by rw [hslot, hw2]; exact hclose)
      (by rw [hslot, hw2]; exact hctr) (by rw [ctx_atIssue]; exact hnew) (by rw [ctx_atIssue]; exact hroom)
    rw [hw3, hw2] at hskip
    rw [hw3, hw4] at hopen hrange
    have hctx (n : Nat) : ctx (latchCount c k n (atIssueState s c sl)) c =
        { issueCtx s c sl with lcCnt := SMap.set 0 (issueCtx s c sl).lcCnt k n } := ctx_setPoint_atIssue ..
    refine ⟨_, exec_always hdue hop issueLoop, fun h => ?_, fun h h' => ?_, fun h => ?_⟩
    · rw [hskip h]
      refine ⟨((frame_point _).passed _).modCtx _, ?_⟩
      rw [ctx_modCtx_same, ctx_passed_same, hctx, afterIssue]
      generalize issueCtx s c sl = x
      rfl
    · rw [hopen h h']
      refine ⟨((frame_point _).passed _).modCtx _, ?_⟩
      rw [ctx_modCtx_same, ctx_passed_same, hctx]
      generalize issueCtx s c sl = x
      dsimp only
      exact ⟨rfl, rfl, SMap.get_set_same _, SMap.get_set_same _⟩
    · rw [hrange h]
      have hf := ctx_faultCtx (latchCount c k sl.w3.toNat (atIssueState s c sl)) c cLOOP_RANGE 3 (cmdOf s (ctx s c) sl).tag
        [sl.w3.toNat, sl.w4.toNat] (by rw [hctx]; exact issueCtx_stopping hdue)
        (by rw [hctx]; exact fun h => CState.noConfusion (h.symm.trans (issueCtx_running hdue)))
      rw [hctx] at hf
      rw [streamFault, hf]
      refine ⟨rfl, rfl, rfl, SMap.get_set_same _, fun d hd => ?_, fun a => ?_⟩
      · rw [ctx_faultCtx_ne _ _ _ _ _ _ _ hd]
        exact (frame_point _).others d hd
      · rw [readByte_congr (latchCount c k sl.w3.toNat (atIssueState s c sl)) (by simp)]
        exact (frame_point _).bytes a
  · intro s c sl l ls hdue hr hop hk h1 h2 h3 h4 h5 h6 h7 hloops
    have hle : opcodeOf sl ≤ 9 := by omega
    obtain ⟨hw1, -⟩ := cmdOf_w hle s (ctx s c)
    have hend := issueEndLoop_innermost (c := c) (m := cmdOf s (ctx s c) sl) (s := atIssueState s c sl) hk hr (hw1.trans h1)
      (zeroFrom_slot hle _ _ (by simp [slice, slotWords, *])) (by rw [ctx_atIssue]; exact hloops)
    have hx := exec_always hdue hop issueEndLoop
    rw [hend, ctx_atIssue] at hx
    by_cases h : SMap.get 0 (issueCtx s c sl).lcIdx l.ctr + 1 < SMap.get 0 (issueCtx s c sl).lcCnt l.ctr
    · rw [if_pos h] at hx
      refine ⟨_, hx, frame_passed _, fun _ => ?_, fun h' => absurd h (Nat.not_lt.2 h')⟩
      rw [ctx_modCtx_same, ctx_passed, afterIssue]
      dsimp only
      exact ⟨rfl, hloops, SMap.get_set_same _⟩
    · rw [if_neg h] at hx
      refine ⟨_, hx, frame_passed _, fun h' => absurd h' h, fun _ => ?_⟩
      rw [ctx_modCtx_same, ctx_passed, afterIssue]
      dsimp only
      exact ⟨rfl, (congrArg List.dropLast hloops).trans List.dropLast_concat⟩
  · intro s c sl hdue hr hop h1 h2 h3 h4 h5 h6 h7
    have hle : opcodeOf sl ≤ 9 := by omega
    have hzero := zeroFrom_slot hle s (ctx s c) (i := 1) (by simp [slice, slotWords, *])
    have hx := exec_always hdue hop (atPoint issueEnd)
    cases hquiesce : (issueCtx s c sl).quiesceReq
    · have hend : atPoint issueEnd c (cmdOf s (ctx s c) sl) (atIssueState s c sl) = _ :=
        (atPoint_go (by rw [ctx_atIssue, hquiesce]) ..).trans (if_neg (by
          rintro (h | h)
          · exact h hr
          · exact absurd h (by simp [hzero])))
      refine ⟨_, hx.trans (congrArg _ hend), frame_passed _, fun _ => ?_, nofun⟩
      rw [ctx_modCtx_same, ctx_passed]
    · refine ⟨_, hx.trans (congrArg _ (atPoint_pause (by rw [ctx_atIssue, hquiesce]) ..)), frame_point _, nofun, fun _ => ?_⟩
      exact ctx_setPoint_atIssue ..

end

/-!
## Contexts: stop, quiesce, resume and clear by the host (R197, R199, R356)
-/

namespace Sys2Proof.Machine

/-! ### What a context waits for is withdrawn (R81, R259, R356) -/

/-- What a read gives after a change of every entry that keeps the default. -/
theorem SMap.get_map_snd {α β : Type} {d : α} {d' : β} (f : α → β) (hd : f d = d') (m : SMap α) (k : Nat) :
    SMap.get d' (m.map fun p => (p.1, f p.2)) k = f (SMap.get d m k) := by
  induction m with
  | nil => exact hd.symm
  | cons p m ih =>
    simp only [List.map_cons, SMap.get, ih]
    split <;> rfl

/-- With no evaluation due the pennant waits of a context are withdrawn at once (R247, R248). -/
theorem withdrawWait_waits {y : SynSt} (h : y.evals = []) (c : Ctx) (k : Nat) :
    (withdrawWait c k y).waits = y.waits.filter (fun w => decide (w.who ≠ .ctx c)) := by
  simp only [withdrawWait, h, List.any_nil, Bool.or_false, ← decide_not]
  refine (List.map_congr_left fun w hw => if_neg ?_).trans (List.map_id _)
  simpa using (List.mem_filter.1 hw).2

/-- What a quiesce request of context c leaves: bytes of core memory, running commands, every other context, every queue but the
MXE's, and the counts of the pennants. -/
structure QuiesceKept (c : Ctx) (s t : State) : Prop where
  mem : t.mem = s.mem
  runs : t.runs = s.runs
  others : ∀ k : Ctx, k ≠ c → ctx t k = ctx s k
  queues : ∀ q, q ≠ .mxe → queue t q = queue s q
  count : t.syn.count = s.syn.count

namespace QuiesceKept
variable {c : Ctx} {s t u : State}

theorem of_eq (hm : t.mem = s.mem) (hr : t.runs = s.runs) (hc : t.ctxs = s.ctxs) (hq : t.queues = s.queues)
    (hn : t.syn.count = s.syn.count) : QuiesceKept c s t :=
  ⟨hm, hr, fun k _ => ctx_congr s hc k, fun q _ => queue_congr s hq q, hn⟩

theorem refl (c : Ctx) (s : State) : QuiesceKept c s s := .of_eq rfl rfl rfl rfl rfl

theorem trans (h : QuiesceKept c s t) (h' : QuiesceKept c t u) : QuiesceKept c s u where
  mem := h'.mem.trans h.mem
  runs := h'.runs.trans h.runs
  others k hk := (h'.others k hk).trans (h.others k hk)
  queues q hq := (h'.queues q hq).trans (h.queues q hq)
  count := h'.count.trans h.count

theorem modCtx (h : QuiesceKept c s t) (f : CtxSt → CtxSt) : QuiesceKept c s (modCtx t c f) :=
  h.trans ⟨rfl, rfl, fun _ hk => ctx_modCtx_ne _ _ _ _ hk, fun q _ => queue_modCtx _ _ _ q, rfl⟩

end QuiesceKept

/-- The gated STREAM of a context is withdrawn (R81). -/
theorem withdrawGated_spec (c : Ctx) (s : State) : QuiesceKept c s (withdrawGated c s) ∧
    (withdrawGated c s).ctxs = s.ctxs ∧ (withdrawGated c s).syn = s.syn ∧
    queue (withdrawGated c s) .mxe = (queue s .mxe).filter (fun e =>
      decide (e.ctx ≠ c ∨ wd e.words 0 % 256 ≠ 0x13 ∨ bit (wd e.words 5) 23 = false)) := by
  have hmine : (fun e : QEnt => !(decide (e.ctx = c) && decide (wd e.words 0 % 256 = 0x13) && bit (wd e.words 5) 23)) =
      fun e => decide (e.ctx ≠ c ∨ wd e.words 0 % 256 ≠ 0x13 ∨ bit (wd e.words 5) 23 = false) := by
    funext e
    rw [Bool.eq_iff_iff]
    simp only [Bool.not_eq_true', Bool.and_eq_false_iff, decide_eq_false_iff_not, decide_eq_true_eq, or_assoc, ne_eq]
  obtain ⟨hq, hmem, hruns, hctxs, hsyn⟩ : (withdrawGated c s).queues = (setQueue s .mxe ((queue s .mxe).filter (fun e =>
      decide (e.ctx ≠ c ∨ wd e.words 0 % 256 ≠ 0x13 ∨ bit (wd e.words 5) 23 = false)))).queues ∧
      (withdrawGated c s).mem = s.mem ∧ (withdrawGated c s).runs = s.runs ∧ (withdrawGated c s).ctxs = s.ctxs ∧
      (withdrawGated c s).syn = s.syn := by
    unfold withdrawGated
    dsimp only
    rw [hmine]
    split
    · split <;> simp [modMxe]
    · simp
  refine ⟨⟨hmem, hruns, fun k _ => ctx_congr s hctxs k, fun q hne => ?_, by rw [hsyn]⟩, hctxs, hsyn, ?_⟩
  · exact (queue_congr _ hq q).trans (queue_setQueue_ne _ _ _ _ hne)
  · exact (queue_congr _ hq .mxe).trans (queue_setQueue_same ..)

/-- The hoist wait of a context is withdrawn, and the entry that is on its way (R259). -/
def leaveHoist (c : Ctx) (s : State) : State :=
  { s with syn := { s.syn with
    ents := s.syn.ents.filter (fun n => decide (n.ctx ≠ c))
    hoists := s.syn.hoists.map (fun p => (p.1, { p.2 with waiters := p.2.waiters.filter (fun w => decide (w.ctx ≠ c)) })) } }

theorem hoist_leaveHoist (c : Ctx) (s : State) (h : Nat) :
    hoist (leaveHoist c s) h = { hoist s h with waiters := (hoist s h).waiters.filter (fun w => decide (w.ctx ≠ c)) } :=
  SMap.get_map_snd (d := ({} : Hoist)) (d' := ({} : Hoist))
    (fun x => { x with waiters := x.waiters.filter (fun w => decide (w.ctx ≠ c)) }) rfl s.syn.hoists h

section
variable {c : Ctx} {s : State}

theorem withdrawPoint_pennant (h : (ctx s c).point = .pennant) :
    withdrawPoint c s = stepBack c (modSyn (withdrawWait c (ac s)) s) := by rw [withdrawPoint, h]

theorem withdrawPoint_hoist (h : (ctx s c).point = .hoist) :
    ∃ b, withdrawPoint c s = modCtx (stepBack c (leaveHoist c s)) c (fun x => { x with rejoin := b }) := by
  rw [withdrawPoint, h]
  exact ⟨_, rfl⟩

theorem withdrawPoint_gated (h : (ctx s c).point = .gated) : withdrawPoint c s = stepBack c (withdrawGated c s) := by
  rw [withdrawPoint, h]

/-- A context that waits for nothing has nothing to withdraw. -/
theorem withdrawPoint_of_ne (hp : (ctx s c).point ≠ .pennant) (hh : (ctx s c).point ≠ .hoist)
    (hg : (ctx s c).point ≠ .gated) :
    withdrawPoint c s = s := by
  unfold withdrawPoint
  split
  · exact absurd ‹_› hp
  · exact absurd ‹_› hh
  · exact absurd ‹_› hg
  · rfl

theorem withdrawPoint_quiesceKept (c : Ctx) (s : State) : QuiesceKept c s (withdrawPoint c s) := by
  by_cases hp : (ctx s c).point = .pennant
  · rw [withdrawPoint_pennant hp]
    exact QuiesceKept.modCtx (s := s) (t := modSyn (withdrawWait c (ac s)) s) (.of_eq rfl rfl rfl rfl rfl) _
  by_cases hh : (ctx s c).point = .hoist
  · obtain ⟨b, hb⟩ := withdrawPoint_hoist hh
    rw [hb]
    exact (QuiesceKept.modCtx (s := s) (t := leaveHoist c s) (.of_eq rfl rfl rfl rfl rfl) _).modCtx _
  by_cases hg : (ctx s c).point = .gated
  · rw [withdrawPoint_gated hg]
    exact (withdrawGated_spec c s).1.modCtx _
  rw [withdrawPoint_of_ne hp hh hg]
  exact .refl c s

/-! ### The quiesce request (R199) -/

theorem requestQuiesce_idle (h : (ctx s c).cstate ≠ .running) : requestQuiesce c s = s := by simp [requestQuiesce, h]

/-- A context that goes on, and where it is. -/
structure Going (s : State) (c : Ctx) : Prop where
  running : (ctx s c).cstate = .running
  going : (ctx s c).stopping = false

theorem requestQuiesce_inSection (h : Going s c) (hp : (ctx s c).point = .inSection) :
    requestQuiesce c s = modCtx s c (fun x => { x with quiesceReq := true }) := by
  simp [requestQuiesce, h.running, h.going, hp]

theorem requestQuiesce_pausing (h : Going s c) (hp : (ctx s c).point ∈ [Point.ending, .pausing]) : requestQuiesce c s = s := by
  obtain hp | hp : (ctx s c).point = .ending ∨ (ctx s c).point = .pausing := by simpa using hp
  all_goals simp [requestQuiesce, h.running, h.going, hp]

/-- At any other untimed point the context pauses at once. -/
theorem requestQuiesce_atPoint (h : Going s c) (hs : (ctx s c).point ≠ .inSection)
    (hp : (ctx s c).point ∉ [Point.ending, .pausing]) :
    requestQuiesce c s = modCtx (withdrawPoint c s) c (fun x => { x with point := .pausing, quiesceReq := false }) := by
  simp only [List.mem_cons, List.not_mem_nil, or_false, not_or] at hp
  unfold requestQuiesce
  dsimp only
  rw [if_neg (by simp [h.running, h.going])]
  split <;> tauto

theorem requestQuiesce_quiesceKept (c : Ctx) (s : State) : QuiesceKept c s (requestQuiesce c s) := by
  unfold requestQuiesce
  dsimp only
  split
  · exact .refl c s
  · split
    · exact (QuiesceKept.refl c s).modCtx _
    · exact .refl c s
    · exact .refl c s
    · exact (withdrawPoint_quiesceKept c s).modCtx _

/-- The context has left its wait and pauses; it comes back to its command when it resumes. -/
def backAtPoint (x : CtxSt) : CtxSt := { x with point := .pausing, quiesceReq := false, pos := x.pos - 1 }

/-- A context that waits for nothing pauses where it is. -/
theorem requestQuiesce_free (h : Going s c)
    (hp : (ctx s c).point = .start ∨ (∃ e, (ctx s c).point = .released e) ∨ ∃ d, (ctx s c).point = .releasing d) :
    requestQuiesce c s = modCtx s c (fun x => { x with point := .pausing, quiesceReq := false }) := by
  obtain ⟨hs, he, h1, h2, h3⟩ : (ctx s c).point ≠ .inSection ∧ (ctx s c).point ∉ [Point.ending, .pausing] ∧
      (ctx s c).point ≠ .pennant ∧ (ctx s c).point ≠ .hoist ∧ (ctx s c).point ≠ .gated := by
    obtain h | ⟨e, h⟩ | ⟨d, h⟩ := hp <;> simp [h]
  rw [requestQuiesce_atPoint h hs he, withdrawPoint_of_ne h1 h2 h3]

theorem requestQuiesce_pennant (h : Going s c) (hdue : NothingDue s) (hp : (ctx s c).point = .pennant) :
    ctx (requestQuiesce c s) c = backAtPoint (ctx s c) ∧ (requestQuiesce c s).queues = s.queues ∧
    (requestQuiesce c s).syn.waits = s.syn.waits.filter (fun w => decide (w.who ≠ .ctx c)) := by
  rw [requestQuiesce_atPoint h (by simp [hp]) (by simp [hp]), withdrawPoint_pennant hp]
  refine ⟨?_, by simp [stepBack, modSyn], ?_⟩
  · rw [ctx_modCtx_same, stepBack, ctx_modCtx_same, ctx_modSyn, backAtPoint]
  · rw [← withdrawWait_waits hdue c (ac s)]
    simp [stepBack, modSyn]

theorem requestQuiesce_hoist (h : Going s c) (hp : (ctx s c).point = .hoist) :
    ctx (requestQuiesce c s) c = { backAtPoint (ctx s c) with rejoin := (ctx (requestQuiesce c s) c).rejoin } ∧
    (requestQuiesce c s).queues = s.queues ∧ ∀ k, hoist (requestQuiesce c s) k =
      { hoist s k with waiters := (hoist s k).waiters.filter (fun w => decide (w.ctx ≠ c)) } := by
  obtain ⟨b, hb⟩ := withdrawPoint_hoist hp
  rw [requestQuiesce_atPoint h (by simp [hp]) (by simp [hp]), hb]
  refine ⟨?_, by simp [stepBack, leaveHoist],
    fun k => (hoist_congr (s := leaveHoist c s) (by simp [stepBack]) k).trans (hoist_leaveHoist c s k)⟩
  rw [ctx_modCtx_same, ctx_modCtx_same, stepBack, ctx_modCtx_same, backAtPoint]
  rfl

theorem requestQuiesce_gated (h : Going s c) (hp : (ctx s c).point = .gated) :
    ctx (requestQuiesce c s) c = backAtPoint (ctx s c) ∧ (requestQuiesce c s).syn = s.syn ∧
    queue (requestQuiesce c s) .mxe = (queue s .mxe).filter (fun e =>
      decide (e.ctx ≠ c ∨ wd e.words 0 % 256 ≠ 0x13 ∨ bit (wd e.words 5) 23 = false)) := by
  obtain ⟨-, hctxs, hsyn, hq⟩ := withdrawGated_spec c s
  rw [requestQuiesce_atPoint h (by simp [hp]) (by simp [hp]), withdrawPoint_gated hp]
  refine ⟨?_, by simp [stepBack, hsyn], (queue_modCtx ..).trans ((queue_modCtx ..).trans hq)⟩
  rw [ctx_modCtx_same, stepBack, ctx_modCtx_same, ctx_congr s hctxs, backAtPoint]

/-- A snapshot no longer resumes the context (R361). -/
def unpause (c : Ctx) (s : State) : State :=
  { s with rsl := { s.rsl with snap := { s.rsl.snap with paused := s.rsl.snap.paused.filter (fun n => decide (n ≠ c.val)) } } }

theorem hostQuiesce_running (h : (ctx s c).cstate = .running) : hostQuiesce c s = requestQuiesce c (unpause c s) := by
  simp [hostQuiesce, running, h, unpause]

theorem hostQuiesce_idle (h : (ctx s c).cstate ≠ .running) : hostQuiesce c s = s := by
  rw [hostQuiesce, running, decide_eq_false h, if_neg Bool.false_ne_true, requestQuiesce_idle h]

theorem hostQuiesce_quiesceKept (c : Ctx) (s : State) : QuiesceKept c s (hostQuiesce c s) := by
  by_cases h : (ctx s c).cstate = .running
  · rw [hostQuiesce_running h]
    exact QuiesceKept.trans (t := unpause c s) (.of_eq rfl rfl rfl rfl rfl) (requestQuiesce_quiesceKept ..)
  · rw [hostQuiesce_idle h]
    exact .refl c s

end

/-! ### Stop, resume and clear (R197, R199, R356) -/

/-- A host stop of a context that goes on (R199). -/
theorem ctx_hostStop {s : State} {c : Ctx} (h : Going s c) : ctx (hostStop c s) c =
    { ctx s c with stopping := true, faultCode := cHOST_STOP, faultTag := nextTag s c, faultSev := 3
                   imageValid := (ctx s c).imageValid && decide (3 ≠ 4) } := by
  rw [hostStop, if_neg (by simp [h.running]), if_neg (by simp [h.going]), streamFault,
    ctx_faultCtx _ _ _ _ _ _ h.going (by simp [h.running])]

theorem ctx_hostStop_ne (s : State) {c k : Ctx} (hk : k ≠ c) : ctx (hostStop c s) k = ctx s k := by
  unfold hostStop
  split_ifs
  · rfl
  · rfl
  · exact ctx_faultCtx_ne _ _ _ _ _ _ _ hk

section
variable {s : State} {c : Ctx}

theorem ctx_resumeCtx_ne (s : State) {c k : Ctx} (hk : k ≠ c) : ctx (resumeCtx c s) k = ctx s k := by
  unfold resumeCtx
  dsimp only
  split_ifs
  · rfl
  · exact ctx_faultCtx_ne _ _ _ _ _ _ _ hk
  · exact ctx_modCtx_ne _ _ _ _ hk

variable (hq : (ctx s c).cstate = .quiesced) (hp : (ctx s c).paused = true) (hgo : (ctx s c).stopping = false)
  (himg : (ctx s c).imageValid = true)
include hq hp hgo himg

/-- The slot maps have the signature of the image: a paused context runs again (R197). -/
theorem resumeCtx_match (hsig : (ctx s c).img.sig = mapSig s.cm.active) :
    resumeCtx c s = modCtx s c (fun x => { x with cstate := .running, paused := false, point := .start }) := by
  simp [resumeCtx, hq, hp, hgo, himg, hsig]

/-- They do not: it stops (R174). -/
theorem resumeCtx_mismatch (hsig : (ctx s c).img.sig ≠ mapSig s.cm.active) :
    resumeCtx c s = faultCtx c cSLOTMAP 4 0 [(ctx s c).img.sig, mapSig s.cm.active] s := by
  simp [resumeCtx, hq, hp, hgo, himg, hsig]

end

theorem hostStop_mem (c : Ctx) (s : State) : (hostStop c s).mem = s.mem := by
  unfold hostStop
  split_ifs
  · rfl
  · rfl
  · rw [streamFault, faultCtx_frame]

end Sys2Proof.Machine

section
open Sys2Proof Sys2Proof.Machine Host

/-- Settles O23: a host stop is a fault of its context (`ctx_hostStop`), a quiesce request takes effect by the point where the
context is (the `requestQuiesce_` lemmas) and touches nothing else (`QuiesceKept`), a resume asks for the signature of the image. -/
theorem hostControlsContexts : Obligations.HostControlsContexts := by
  intro s c hrel hdue
  refine ⟨⟨_, afterBoot_of s _ hrel, fun k hk => ?_, fun a => ?_, fun hst => ?_, fun hrun hgo => ?_⟩, ?_, ?_, ?_⟩
  · rw [ctx_hostStop_ne _ hk, advance_pass hdue, ctx_pass]
  · exact readByte_congr s ((hostStop_mem ..).trans (by simp)) a
  · rw [advance_pass hdue, hostStop, if_pos (by rw [ctx_pass, hst]), ctx_pass]
  · rw [advance_pass hdue, ctx_hostStop ⟨by rw [ctx_pass, hrun], by rw [ctx_pass, hgo]⟩, ctx_pass]
    exact ⟨rfl, rfl, hrun, rfl⟩
  · have hk := hostQuiesce_quiesceKept c s
    refine ⟨_, afterBoot_of s _ hrel, hk.mem, hk.runs, hk.others, hk.queues, fun p => ?_, hostQuiesce_idle, fun hrun hgo => ?_⟩
    · rw [pennant, hk.count, pennant]
    · have h : Going (unpause c s) c := ⟨hrun, hgo⟩
      rw [hostQuiesce_running hrun]
      refine ⟨fun hp => ?_, fun hp => ?_, fun hp => ?_, requestQuiesce_pennant h hdue, requestQuiesce_hoist h,
        requestQuiesce_gated h⟩
      · rw [requestQuiesce_inSection h hp, ctx_modCtx_same]
        rfl
      · rw [requestQuiesce_pausing h hp]
        rfl
      · rw [requestQuiesce_free h hp, ctx_modCtx_same]
        exact ⟨rfl, by simp [unpause], by simp [unpause]⟩
  · intro hq hp hgo himg
    have hres : exec (.ctxResume c) s = .next (resumeCtx c s) := afterBoot_of s _ hrel
    refine ⟨_, hres, fun k hk => ctx_resumeCtx_ne s hk, fun hsig => ?_, fun hsig => ?_⟩
    · rw [resumeCtx_match hq hp hgo himg hsig, ctx_modCtx_same]
    · rw [resumeCtx_mismatch hq hp hgo himg hsig]
      rw [ctx_faultCtx _ _ _ _ _ _ hgo (by simp [hq])]
      exact ⟨rfl, rfl⟩
  · refine ⟨_, afterBoot_of s _ hrel, fun h => if_pos h, fun h => if_neg h⟩

end

/-!
## The host window: register writes (R205, R425, R440, R443)
-/

namespace Sys2Proof.Machine

/-! ### Time about a register write -/

/-- An EC passes while nothing is due. -/
theorem tick_shape {s : State} (h : NothingDue s) : ∃ w x, tick s = { s with ec := s.ec + 1, wall := w, stretched := x } := by
  obtain ⟨k, w, x, hk, hec⟩ := advance_shape h (s.ec + 1)
  rw [show k = s.ec + 1 from hec.trans (Nat.max_eq_right (Nat.le_succ _))] at hk
  exact ⟨w, x, hk⟩

/-- A register write has its EC between two (R440). -/
theorem exec_registerWrite {s : State} (hno : NoEngineWork s) (off : Nat) (v : W32) :
    ∃ w x, exec (.registerWrite off v) s =
      .next (tick (regWrite off v.toNat { s with ec := s.ec + 1, wall := w, stretched := x })) := by
  obtain ⟨-, -, hdue⟩ := id hno
  obtain ⟨w, x, h⟩ := tick_shape hdue
  exact ⟨w, x, congrArg Host.Outcome.next (by rw [inOwnEc_noEngineWork hno, h])⟩

/-! ### The registers of the escapement (R205, R228) -/

theorem inArr_entry {base stride n i r : Nat} (hi : i < n) (hr : r < stride) :
    inArr base stride n (base + stride * i + r) = some (i, r) := by
  have hlt : stride * i + r < stride * n :=
    calc stride * i + r < stride * i + stride := by omega
      _ = stride * (i + 1) := by ring
      _ ≤ stride * n := Nat.mul_le_mul_left _ hi
  have ho : base + stride * i + r - base = stride * i + r := by omega
  rw [inArr, if_pos (by omega), ho, Nat.mul_add_div (by omega), Nat.div_eq_of_lt hr, Nat.mul_add_mod, Nat.mod_eq_of_lt hr]
  rfl

theorem inArr_above {base stride n o : Nat} (h : base + stride * n ≤ o) : inArr base stride n o = none :=
  if_neg (by omega)

theorem regWrite_esc {s : State} (hrel : Released s) {off : Nat} (hlo : 0x1000 ≤ off) (hhi : off < 2 ^ 16) (v : Nat) :
    regWrite off v s = escWrite off v s := by
  have hw : writable s off = true := by simp [writable, show 8 ≤ s.nvs.phase from hrel]
  rw [regWrite, if_pos hw, regPut, Nat.div_eq_of_lt hhi, Nat.mod_eq_of_lt hhi]
  exact if_neg (by omega)

/-- The registers of a context are at its entry of their array. -/
theorem regWrite_ctx {s : State} (hrel : Released s) (c : Ctx) {r : Nat} (hr : r < 0x40) (v : Nat) :
    regWrite (0x1100 + 0x40 * c.val + r) v s = ctxWrite c r v s := by
  have hc := c.isLt
  rw [regWrite_esc hrel (by omega) (by omega), escWrite, if_neg (by omega), inArr_entry hc hr]
  exact congrArg (ctxWrite · r v s) (ctxOf_val c)

/-- So are its parameter registers. -/
theorem regWrite_par {s : State} (hrel : Released s) (c : Ctx) {r : Nat} (hr : r < 0x200) (v : Nat) :
    regWrite (0x2000 + 0x200 * c.val + r) v s = parWrite c r v s := by
  have hc := c.isLt
  rw [regWrite_esc hrel (by omega) (by omega), escWrite, if_neg (by omega), inArr_above (by omega), inArr_entry hc hr]
  exact congrArg (parWrite · r v s) (ctxOf_val c)

theorem parked_running {s : State} {c : Ctx} (h : (ctx s c).cstate = .running) (act : State → State) :
    parked c act s = modCtx s c (fun x => { x with parRefused := true }) := if_pos h

/-- The registers that R205 closes while their context runs. -/
def ClosedWhileRunning (c : Ctx) (off : Nat) : Prop :=
  off = 0x1110 + 0x40 * c.val ∨ off = 0x1114 + 0x40 * c.val ∨ off = 0x1118 + 0x40 * c.val ∨
    (0x2000 + 0x200 * c.val ≤ off ∧ off < 0x2200 + 0x200 * c.val)

/-- A write to one of them is ignored and sets par_refused (R205). -/
theorem regWrite_closed {s : State} (hrel : Released s) {c : Ctx} (hrun : (ctx s c).cstate = .running) {off : Nat}
    (h : ClosedWhileRunning c off) (v : Nat) : regWrite off v s = modCtx s c (fun x => { x with parRefused := true }) := by
  obtain rfl | rfl | rfl | ⟨hlo, hhi⟩ := h
  · rw [show 0x1110 + 0x40 * c.val = 0x1100 + 0x40 * c.val + 0x10 by omega, regWrite_ctx hrel c (by omega)]
    exact parked_running hrun _
  · rw [show 0x1114 + 0x40 * c.val = 0x1100 + 0x40 * c.val + 0x14 by omega, regWrite_ctx hrel c (by omega)]
    exact parked_running hrun _
  · rw [show 0x1118 + 0x40 * c.val = 0x1100 + 0x40 * c.val + 0x18 by omega, regWrite_ctx hrel c (by omega)]
    exact parked_running hrun fun s => modCtx s c (fun x => { x with spillBlk := bits v 18 0 })
  · obtain ⟨r, rfl⟩ := Nat.exists_eq_add_of_le hlo
    rw [regWrite_par hrel c (by omega)]
    exact parked_running hrun _

/-! ### A parameter register takes a half (R205) -/

/-- The value of a register with its low (r = 0) or its high half (r = 4) replaced. -/
theorem setHalf_low (p : W64) (v : W32) : BitVec.ofNat 64 (setHalf p.toNat 0 v.toNat) = p.extractLsb' 32 32 ++ v := by
  have hhi : (p.extractLsb' 32 32).toNat = p.toNat / 2 ^ 32 := by
    rw [BitVec.extractLsb'_toNat, Nat.shiftRight_eq_div_pow]
    omega
  rw [← ofNat_words, hhi, setHalf, if_pos rfl, Nat.add_comm]

theorem setHalf_high (p : W64) (v : W32) : BitVec.ofNat 64 (setHalf p.toNat 4 v.toNat) = v ++ p.extractLsb' 0 32 := by
  have hlo : (p.extractLsb' 0 32).toNat = p.toNat % 2 ^ 32 := by
    rw [BitVec.extractLsb'_toNat, Nat.shiftRight_zero]
  rw [← ofNat_words, hlo, setHalf, if_neg (by omega), if_pos rfl]

/-- Context c takes half r of its parameter register n. -/
def takeHalf (c : Ctx) (n r v : Nat) (s : State) : State :=
  modCtx s c (fun x => { x with par := SMap.set 0#64 x.par n (BitVec.ofNat 64 (setHalf (getPar x n).toNat r v)) })

/-- A write of half r of parameter register n of a context that does not run. -/
theorem regWrite_par_idle {s : State} (hrel : Released s) {c : Ctx} (hidle : (ctx s c).cstate ≠ .running) {n r : Nat}
    (hn : n < 64) (hr : r < 8) (v : Nat) : regWrite (0x2000 + 0x200 * c.val + (8 * n + r)) v s = takeHalf c n r v s := by
  have hd : (8 * n + r) / 8 = n := by omega
  have hm : (8 * n + r) % 8 = r := by omega
  rw [regWrite_par hrel c (by omega), parWrite, parked, if_neg hidle, hd, hm, takeHalf]

theorem takeHalf_spec (c : Ctx) (n r v : Nat) (s : State) :
    getPar (ctx (takeHalf c n r v s) c) n = BitVec.ofNat 64 (setHalf (getPar (ctx s c) n).toNat r v) ∧
    (∀ k, k ≠ n → getPar (ctx (takeHalf c n r v s) c) k = getPar (ctx s c) k) ∧
    ∀ d : Ctx, d ≠ c → ctx (takeHalf c n r v s) d = ctx s d := by
  rw [takeHalf, ctx_modCtx_same]
  exact ⟨SMap.get_set_same _, fun k hk => SMap.get_set_ne _ hk, fun d hd => ctx_modCtx_ne _ _ _ _ hd⟩

end Sys2Proof.Machine

section
open Sys2Proof Sys2Proof.Machine Host

/-- Settles O57: the write has its EC between two (`exec_registerWrite`), and in it a register is closed (`regWrite_closed`), takes
its half (`regWrite_par_idle`), or is not reached before release. -/
theorem registerWritesFollowTheirRules : Obligations.RegisterWritesFollowTheirRules := by
  intro s off v hno
  obtain ⟨-, -, hdue⟩ := id hno
  obtain ⟨w, x, hexec⟩ := exec_registerWrite hno off v
  refine ⟨_, hexec, ?_⟩
  set u : State := { s with ec := s.ec + 1, wall := w, stretched := x }
  refine ⟨fun hb h1 h2 => ?_, fun hrel hoff => ?_, fun hrel c hrun hoff => ?_,
    fun hrel c n hidle hn => ⟨fun hoff => ?_, fun hoff => ?_⟩⟩
  · have hw : writable u off = false := by
      simp only [writable, Bool.or_eq_false_iff, Bool.and_eq_false_iff, decide_eq_false_iff_not]
      exact ⟨⟨hb, h1⟩, h2.imp Nat.not_le.2 Nat.not_lt.2⟩
    obtain ⟨w', x', ht⟩ := tick_shape (s := u) hdue
    rw [regWrite, if_neg (by simp [hw]), ht]
  · obtain ⟨w', x', ht⟩ := tick_shape (s := { u with scratch := v.toNat }) hdue
    rw [hoff, regWrite_scratch (s := u) hrel, ht]
  · obtain ⟨w', x', ht⟩ := tick_shape (s := modCtx u c (fun x => { x with parRefused := true })) hdue
    rw [regWrite_closed (s := u) hrel hrun hoff, ht]
    rfl
  · obtain ⟨w', x', ht⟩ := tick_shape (s := takeHalf c n 0 v.toNat u) hdue
    obtain ⟨h1, h2, h3⟩ := takeHalf_spec c n 0 v.toNat u
    rw [hoff, show 0x2000 + 0x200 * c.val + 8 * n = 0x2000 + 0x200 * c.val + (8 * n + 0) from rfl,
      regWrite_par_idle (s := u) hrel hidle hn (by omega), ht]
    exact ⟨h1.trans (setHalf_low ..), h2, h3, rfl⟩
  · obtain ⟨w', x', ht⟩ := tick_shape (s := takeHalf c n 4 v.toNat u) hdue
    obtain ⟨h1, h2, h3⟩ := takeHalf_spec c n 4 v.toNat u
    rw [hoff, show 0x2004 + 0x200 * c.val + 8 * n = 0x2000 + 0x200 * c.val + (8 * n + 4) by omega,
      regWrite_par_idle (s := u) hrel hidle hn (by omega), ht]
    exact ⟨h1.trans (setHalf_high ..), h2, h3, rfl⟩

end

/-!
## Host rings: programs, copies and snapshots start (R200 to R204, R345, R348, R355, R356)
-/

namespace Sys2Proof.Machine

/-! ### A descriptor is taken (R342, R345) -/

/-- The ring has had its turn, and its descriptor has been taken. -/
def taken (r : Ctx) (s : State) : State := takeDesc r (passTurn r s)

@[simp] theorem taken_rest (r : Ctx) (s : State) :
    (taken r s).grade = s.grade ∧ (taken r s).cm = s.cm ∧ (taken r s).ctxs = s.ctxs ∧
    (taken r s).mem = s.mem ∧ (taken r s).xmu = s.xmu ∧ (taken r s).xfer = s.xfer ∧ (taken r s).out = s.out ∧
    (taken r s).syn = s.syn ∧ (taken r s).hst.cqQ = s.hst.cqQ := by
  simp [taken, takeDesc, passTurn, modRing, modHst]

theorem ctx_taken (r : Ctx) (s : State) (c : Ctx) : ctx (taken r s) c = ctx s c := ctx_congr s (by simp) c

theorem startRow_starts {s : State} {r : Ctx} {ws : List Nat} {kind : Nat} (hst : startable s r = some ws) (hok : descOk ws = true)
    (hkind : descKind ws = kind) (hnext : nextRing s = some r.val) (act : List Nat → HostRef → State → State) :
    startRow kind r act s = .next (fetchHeads (act ws (refOf r ws) (taken r s))) := by
  simp only [startRow, hst, hok, hkind, hnext, ne_eq, not_true_eq_false, and_false, if_false, if_true, taken]

/-- A ring starts a descriptor only when the queue of completion records has room (R351). -/
theorem startable_room {s : State} {r : Nat} {ws : List Nat} (h : startable s r = some ws) : s.hst.cqQ.length < 64 := by
  unfold startable at h
  dsimp only at h
  split at h
  · rename_i hc
    simp only [Bool.and_eq_true, decide_eq_true_eq] at hc
    tauto
  · exact absurd h nofun

theorem busy_taken (r : Ctx) (s : State) (k : Nat) : (ring (taken r s) k).busy = (ring s k).busy := by
  rw [taken, takeDesc, ring_modRing]
  split
  · subst k; rfl
  · rfl

theorem busy_noteBusy (d : HostRef) (s : State) : (ring (noteBusy d s) d.ring).busy = (ring s d.ring).busy ++ [d] := by
  rw [noteBusy, ring_modRing_same]

/-- What host reads have been asked for stays so while more go out. -/
theorem fetchHead_out (s : State) (k : Nat) : s.out <+: (fetchHead s k).out := by
  unfold fetchHead hostRead emit
  split
  · cases readTag s with
    | none => exact List.prefix_rfl
    | some t => exact List.prefix_append ..
  · exact List.prefix_rfl

theorem fetchHeads_out (s : State) : s.out <+: (fetchHeads s).out :=
  List.foldlRecOn (motive := fun t => s.out <+: t.out) _ fetchHead List.prefix_rfl fun t ht k _ => ht.trans (fetchHead_out t k)

/-! ### Programs (R202 to R204) -/

/-- What the start of a program, or its refusal, leaves: every other context and the bytes of core memory. -/
structure ProgramKept (r : Ctx) (s t : State) : Prop where
  others : ∀ c : Ctx, c ≠ r → ctx t c = ctx s c
  mem : t.mem = s.mem

/-- A context at the start of its program (R203). -/
structure Launched (x : CtxSt) (d : HostRef) (y : CtxSt) : Prop where
  running : y.cstate = .running
  atStart : y.point = .start
  pos : y.pos = x.img.entry
  pred : y.pred = 1#16
  areg : ∀ a, getAreg y a = 0
  loops : y.loops = []
  cmps : y.cmps = []
  summary : y.summary = 0#16
  valid : y.imageValid = x.imageValid
  img : y.img = x.img
  par : y.par = x.par
  launch : y.launch = some d

theorem startProgram_launched (c : Ctx) (d : HostRef) (s : State) :
    Launched (ctx s c) d (ctx (startProgram c d s) c) := by
  rw [startProgram, ctx_modCtx_same]
  exact ⟨rfl, rfl, rfl, rfl, fun _ => rfl, rfl, rfl, rfl, rfl, rfl, rfl, rfl⟩

theorem imgRefusal_congr {s t : State} (hg : t.grade = s.grade) (hc : t.cm = s.cm) (h : ImgHdr) :
    imgRefusal t h = imgRefusal s h := by
  unfold imgRefusal
  rw [hg, hc]

/-- The image is in the stores and the context's table, not yet valid (R202 step 1). -/
theorem copyImage_spec (c : Ctx) (h : ImgHdr) (img : List W8) (s : State) :
    (∃ prog, ctx (copyImage c h img s) c = { ctx s c with uprog := prog, img := h, imageValid := false }) ∧
    ProgramKept c s (copyImage c h img s) :=
  ⟨⟨_, ctx_modCtx_same ..⟩, fun _ hk => ctx_modCtx_ne _ _ _ _ hk, rfl⟩

section
variable {c : Ctx} {d : HostRef} {img : List W8} {s : State}

/-- An image that passes every check starts (R202). -/
theorem launchImage_starts (hlen : img.length = imgLen (hdrOf img))
    (hcode : (hdrOf img).nSlots ≤ Nat.min (ctx s c).codeSize (32768 - (ctx s c).codeBase))
    (haff : (hdrOf img).nAff ≤ Nat.min (ctx s c).affSize (affRoom (ctx s c).affBase))
    (hcrc : crc32c (img.take 252 ++ [0#8, 0#8, 0#8, 0#8] ++ img.drop 256) = imgWord img 63)
    (hchk : imgRefusal s (hdrOf img) = none) (hpart : (hdrOf img).saveBlk ≤ partSize s c) :
    launchImage c d img s =
      startProgram c d (modCtx (copyImage c (hdrOf img) img s) c (fun x => { x with imageValid := true })) := by
  have hpad : padTo 0#8 (imgLen (hdrOf img)) img = img := by simp [padTo, ← hlen]
  have hchk' : imgRefusal (copyImage c (hdrOf img) img s) (hdrOf img) = none := (imgRefusal_congr rfl rfl _).trans hchk
  have hpart' : ¬ partSize (copyImage c (hdrOf img) img s) c < (hdrOf img).saveBlk := Nat.not_lt.2 hpart
  unfold launchImage
  dsimp only
  rw [if_neg (by omega), hpad, if_neg (not_not.2 hcrc), hchk']
  exact if_neg hpart'

/-- LAUNCH of an image in host memory. -/
theorem execLaunch_host {s : State} {r : Ctx} {ws : List Nat} (hst : startable s r = some ws) (hok : descOk ws = true)
    (hnext : nextRing s = some r.val) (hkind : descKind ws = 1) (hhost : bit (wd ws 4) 0 = false) (data : List W8) :
    exec (.launch r data) s = .next (fetchHeads (launchImage r (refOf r ws) data (taken r s))) := by
  have hx : exec (.launch r data) s = execLaunch r data s := rfl
  rw [hx, execLaunch, startRow_starts hst hok hkind hnext, if_neg (by simp [hhost])]

/-- One larger than the regions of its context does not (R202). -/
theorem launchImage_large (h : Nat.min (ctx s c).codeSize (32768 - (ctx s c).codeBase) < (hdrOf img).nSlots ∨
    Nat.min (ctx s c).affSize (affRoom (ctx s c).affBase) < (hdrOf img).nAff) :
    launchImage c d img s = failLaunch c d cIMAGE [1, 0] s := if_pos h

/-- The context of a program that starts so. -/
theorem ctx_launchImage (hlen : img.length = imgLen (hdrOf img))
    (hcode : (hdrOf img).nSlots ≤ Nat.min (ctx s c).codeSize (32768 - (ctx s c).codeBase))
    (haff : (hdrOf img).nAff ≤ Nat.min (ctx s c).affSize (affRoom (ctx s c).affBase))
    (hcrc : crc32c (img.take 252 ++ [0#8, 0#8, 0#8, 0#8] ++ img.drop 256) = imgWord img 63)
    (hchk : imgRefusal s (hdrOf img) = none) (hpart : (hdrOf img).saveBlk ≤ partSize s c) :
    (∃ prog, Launched { ctx s c with uprog := prog, img := hdrOf img, imageValid := true } d (ctx (launchImage c d img s) c)) ∧
    ProgramKept c s (launchImage c d img s) := by
  obtain ⟨⟨prog, hctx⟩, hk⟩ := copyImage_spec c (hdrOf img) img s
  have h := startProgram_launched c d (modCtx (copyImage c (hdrOf img) img s) c (fun x => { x with imageValid := true }))
  rw [launchImage_starts hlen hcode haff hcrc hchk hpart]
  rw [ctx_modCtx_same, hctx] at h
  refine ⟨⟨prog, h⟩, fun k hne => ?_, hk.mem⟩
  rw [startProgram, ctx_modCtx_ne _ _ _ _ hne, ctx_modCtx_ne _ _ _ _ hne, hk.others k hne]

end

/-- A fault of context severity leaves the context without a valid image, in the state of execution it was in (R202, R400). -/
theorem ctx_stopCtx_severe (c : Ctx) (code tag : Nat) (s : State) :
    (ctx (stopCtx c code 4 tag s) c).cstate = (ctx s c).cstate ∧ (ctx (stopCtx c code 4 tag s) c).imageValid = false := by
  unfold stopCtx
  dsimp only
  split
  · rw [ctx_modCtx_same, if_pos rfl]
    split <;> exact ⟨rfl, rfl⟩
  · rw [ctx_modSyn, ctx_modCtx_same]
    exact ⟨rfl, Bool.and_false _⟩

/-- A LAUNCH or REPLAY that a check fails completes with its fault (R202, R350). -/
theorem failLaunch_spec (c : Ctx) {d : HostRef} {code : Nat} (detail : List Nat) {s : State} (hkind : d.kind ≠ 5)
    (hcode : code ≠ 0) (hroom : s.hst.cqQ.length < 64) :
    (ctx (failLaunch c d code detail s) c).cstate = (ctx s c).cstate ∧
    (ctx (failLaunch c d code detail s) c).imageValid = false ∧
    (failLaunch c d code detail s).hst.cqQ.length = s.hst.cqQ.length + 1 ∧ ProgramKept c s (failLaunch c d code detail s) := by
  have hq : (faultCtx c code 4 0 detail s).hst.cqQ = s.hst.cqQ := by
    rw [faultCtx, stopCtx_frame]
    exact logErr_cqQ ..
  obtain ⟨hstate, hvalid⟩ := ctx_stopCtx_severe c code 0 (logErr code 4 { ctx := some c, tag := 0 } detail s)
  rw [failLaunch, endWithFault]
  refine ⟨?_, ?_, ?_, fun k hk => ?_, ?_⟩
  · rw [ctx_complete, faultCtx, hstate, ctx_logErr]
  · rw [ctx_complete, faultCtx, hvalid]
  · rw [complete_cqQ _ _ _ _ _ _ _ hkind (by rw [hq]; exact hroom), hq, if_pos (.inr hcode)]
  · rw [ctx_complete, ctx_faultCtx_ne _ _ _ _ _ _ _ hk]
  · rw [complete_frame, faultCtx_frame]

/-! ### REPLAY and its patches (R204) -/

/-- The parameter registers after a list of patches (R347). -/
def patchedPars (ps : List (Nat × Nat)) (m : SMap W64) : SMap W64 :=
  ps.foldl (fun m p => SMap.set 0#64 m p.1 (BitVec.ofNat 64 p.2)) m

/-- The patches reach parameter registers of the context alone. -/
theorem ctx_patchPars (r : Ctx) (ps : List (Nat × Nat)) (s : State) :
    ctx (ps.foldl (fun s p => patchPar r p s) s) r = { ctx s r with par := patchedPars ps (ctx s r).par } ∧
      ProgramKept r s (ps.foldl (fun s p => patchPar r p s) s) := by
  induction ps generalizing s with
  | nil => exact ⟨rfl, fun _ _ => rfl, rfl⟩
  | cons p ps ih =>
    obtain ⟨hctx, hk⟩ := ih (patchPar r p s)
    refine ⟨?_, fun k hne => ?_, hk.mem⟩
    · rw [List.foldl_cons, hctx, patchPar, ctx_modCtx_same]
      rfl
    · rw [List.foldl_cons, hk.others k hne, patchPar, ctx_modCtx_ne _ _ _ _ hne]

/-- REPLAY of a valid image that the core may run (R204). -/
theorem execReplay_starts {s : State} {r : Ctx} {ws : List Nat} {data : List W8} {ps : List (Nat × Nat)}
    (hst : startable s r = some ws) (hok : descOk ws = true) (hnext : nextRing s = some r.val) (hkind : descKind ws = 2)
    (hlen : data.length = 16 * wd ws 4) (hps : patches (wd ws 4) data = some ps) (hvalid : (ctx s r).imageValid = true)
    (hchk : imgRefusal s (ctx s r).img = none) : exec (.replay r data) s =
      .next (fetchHeads (startProgram r (refOf r ws) (ps.foldl (fun s p => patchPar r p s) (taken r s)))) := by
  have hpad : padTo 0#8 (16 * wd ws 4) data = data := by simp [padTo, ← hlen]
  have hx : exec (.replay r data) s = execReplay r data s := rfl
  rw [hx, execReplay, startRow_starts hst hok hkind hnext, hpad, hps]
  dsimp only
  rw [ctx_taken, if_neg (by simp [hvalid]), imgRefusal_congr (s := s) (by simp) (by simp), hchk]

/-! ### COPY from host memory (R348) -/

/-- A COPY as it goes on: what of it stays as it is. -/
structure SameCopy (j k : Job) : Prop where
  id : k.id = j.id
  kind : k.kind = j.kind
  words : k.words = j.words
  ctx : k.ctx = j.ctx
  faulted : k.faulted = j.faulted

/-- What asking for lines of the only transfer leaves. -/
structure AskKept (j : Job) (s t : State) : Prop where
  hst : t.hst = s.hst
  ctxs : t.ctxs = s.ctxs
  mem : t.mem = s.mem
  out : s.out <+: t.out
  job : ∃ k, t.xfer.jobs = [k] ∧ SameCopy j k

namespace AskKept
variable {j k : Job} {s t u : State}

theorem refl (h : s.xfer.jobs = [j]) : AskKept j s s := ⟨rfl, rfl, rfl, List.prefix_rfl, j, h, rfl, rfl, rfl, rfl, rfl⟩

theorem trans (h : AskKept j s t) (hjk : SameCopy j k) (h' : AskKept k t u) : AskKept j s u where
  hst := h'.hst.trans h.hst
  ctxs := h'.ctxs.trans h.ctxs
  mem := h'.mem.trans h.mem
  out := h.out.trans h'.out
  job := by
    obtain ⟨l, hl, hkl⟩ := h'.job
    exact ⟨l, hl, hkl.id.trans hjk.id, hkl.kind.trans hjk.kind, hkl.words.trans hjk.words, hkl.ctx.trans hjk.ctx,
      hkl.faulted.trans hjk.faulted⟩

end AskKept

/-- The transfer with one line more asked for. -/
def nextLine (len off : Nat) (k : Job) : Job :=
  { k with col := k.col + 64, acks := k.acks + 1, row := if len ≤ off + 64 then 1 else 0 }

/-- A line has been asked for. -/
def askedLine (id off tag len addr : Nat) (s : State) : State :=
  modJob id (nextLine len off)
    (emit (.hostRead tag addr 64) { s with xfer := { s.xfer with hreads := SMap.put s.xfer.hreads tag (.copy id off) } })

theorem askHost_succ {id fuel : Nat} {s : State} {j : Job} (hj : s.xfer.jobs = [j]) (hid : j.id = id) :
    askHost id (fuel + 1) s =
      if j.faulted || decide (wd j.words 6 ≤ j.col) || decide (256 ≤ copyLanding s) then s
      else match readTag s with
        | none => s
        | some tag => askHost id fuel (askedLine id j.col tag (wd j.words 6) (wd j.words 2 + wd j.words 3 * 2 ^ 32 + j.col) s) := by
  have hfind : findJob s id = some j := by simp [findJob, hj, hid]
  rw [askHost, hfind]
  dsimp only
  rw [hostRead]
  cases readTag s <;> rfl

theorem askedLine_jobs {s : State} {j : Job} (hj : s.xfer.jobs = [j]) (off tag len addr : Nat) :
    (askedLine j.id off tag len addr s).xfer.jobs = [nextLine len off j] := by simp [askedLine, modJob, emit, hj]

theorem nextLine_sameCopy (len off : Nat) (j : Job) : SameCopy j (nextLine len off j) := ⟨rfl, rfl, rfl, rfl, rfl⟩

theorem askedLine_askKept {s : State} {j : Job} (hj : s.xfer.jobs = [j]) (off tag len addr : Nat) :
    AskKept j s (askedLine j.id off tag len addr s) where
  hst := rfl
  ctxs := rfl
  mem := rfl
  out := List.prefix_append ..
  job := ⟨_, askedLine_jobs hj .., nextLine_sameCopy ..⟩

theorem askHost_askKept (fuel : Nat) {s : State} {j : Job} (hj : s.xfer.jobs = [j]) : AskKept j s (askHost j.id fuel s) := by
  induction fuel generalizing s j with
  | zero => exact .refl hj
  | succ fuel ih =>
    rw [askHost_succ hj rfl]
    split
    · exact .refl hj
    · cases readTag s with
      | none => exact .refl hj
      | some tag =>
        exact (askedLine_askKept hj ..).trans (nextLine_sameCopy ..) (ih (askedLine_jobs hj ..))

/-- With every tag free the first line of a COPY is asked for (R414). -/
theorem askHost_first (fuel : Nat) {s : State} {j : Job} (hj : s.xfer.jobs = [j]) (hreads : s.xfer.hreads = [])
    (harr : s.xfer.arrivals = []) (hgo : j.faulted = false) (hcol : j.col = 0) (hlen : wd j.words 6 ≠ 0) :
    OutEv.hostRead 0 (addr64 j.words 2) 64 ∈ (askHost j.id (fuel + 1) s).out := by
  have htag : readTag s = some 0 := by simp [readTag, hreads]
  have hland : copyLanding s = 0 := by simp [copyLanding, harr]
  have haddr : wd j.words 2 + wd j.words 3 * 2 ^ 32 + 0 = addr64 j.words 2 := by rw [addr64, Nat.add_zero]
  rw [askHost_succ hj rfl, if_neg (by simp [hgo, hcol, hlen, hland]), htag, hcol]
  dsimp only
  rw [haddr]
  exact (askHost_askKept fuel (askedLine_jobs hj ..)).out.subset (List.mem_append_right _ (List.mem_singleton_self _))

theorem copyOk_length {ws : List Nat} (hok : descOk ws = true) (hkind : descKind ws = 3) : wd ws 6 ≠ 0 := by
  simp only [descOk, hkind, copyOk, Bool.and_eq_true, decide_eq_true_eq] at hok
  tauto

theorem copyFault_congr {s t : State} (hg : t.grade = s.grade) (hc : t.cm = s.cm) (hx : t.xmu = s.xmu) (c : Ctx) (ws : List Nat) :
    copyFault t c ws = copyFault s c ws := by
  unfold copyFault badRange
  simp only [hx, mayUse_congr hg hc]

/-- The transfer of a COPY descriptor. -/
def copyJob (r : Ctx) (ws : List Nat) (id : Nat) : Job :=
  { id := id, kind := .copy, ctx := r.val, blame := descBlame (refOf r ws), prio := bits (wd ws 7) 5 4
    pennant := bits (wd ws 8) 11 0, incr := if bits (wd ws 7) 3 2 = 1 then bits (wd ws 8) 27 12 else 0
    comb := bits (wd ws 7) 9 6, words := ws, verify := bit (wd ws 7) 10, host := some (refOf r ws) }

/-- A COPY from host memory whose extents are good asks for its lines (R348). -/
theorem startCopy_host {s : State} {r : Ctx} {ws : List Nat} (hsrc : bits (wd ws 7) 1 0 = 0) (hgood : copyFault s r ws = none) :
    startCopy r ws (refOf r ws) s =
      askHost s.xfer.nextJob 256 (addJob (fun _ => copyJob r ws s.xfer.nextJob) (noteBusy (refOf r ws) s)) := by
  unfold startCopy
  dsimp only
  rw [hgood, hsrc]
  rfl

/-- It starts, and its first line is asked for (R348, R414). -/
theorem startCopy_spec {s : State} {r : Ctx} {ws : List Nat} (hsrc : bits (wd ws 7) 1 0 = 0) (hgood : copyFault s r ws = none)
    (hlen : wd ws 6 ≠ 0) (hjobs : s.xfer.jobs = []) (hreads : s.xfer.hreads = []) (harr : s.xfer.arrivals = []) :
    let t := startCopy r ws (refOf r ws) s
    (∃ j, t.xfer.jobs = [j] ∧ SameCopy (copyJob r ws s.xfer.nextJob) j) ∧ OutEv.hostRead 0 (addr64 ws 2) 64 ∈ t.out ∧
    t.hst = (noteBusy (refOf r ws) s).hst ∧ t.ctxs = s.ctxs ∧ t.mem = s.mem := by
  intro t
  set j := copyJob r ws s.xfer.nextJob with hj
  set u := addJob (fun _ => j) (noteBusy (refOf r ws) s) with hu
  have ht : t = askHost j.id 256 u := startCopy_host hsrc hgood
  have hju : u.xfer.jobs = [j] := by simp [hu, addJob, noteBusy, modRing, modHst, hjobs]
  have hk := askHost_askKept 256 hju
  have hfirst := askHost_first 255 hju hreads harr rfl rfl hlen
  rw [ht]
  exact ⟨hk.job, hfirst, hk.hst, hk.ctxs, hk.mem⟩

/-! ### A SNAPSHOT asks the contexts (R355, R356) -/

theorem withdrawGated_rsl (c : Ctx) (s : State) : (withdrawGated c s).rsl = s.rsl := by
  unfold withdrawGated
  dsimp only
  split
  · split <;> simp [modMxe]
  · simp

theorem withdrawPoint_rsl (c : Ctx) (s : State) : (withdrawPoint c s).rsl = s.rsl := by
  unfold withdrawPoint
  split
  · simp [stepBack, modSyn]
  · simp [stepBack]
  · simp [stepBack, withdrawGated_rsl]
  · rfl

theorem requestQuiesce_rsl (c : Ctx) (s : State) : (requestQuiesce c s).rsl = s.rsl := by
  unfold requestQuiesce
  dsimp only
  split
  · rfl
  · split
    · simp
    · rfl
    · rfl
    · rw [← withdrawPoint_rsl c s]; simp

/-- Contexts are asked one after the other: every other one stays, and one inside a section takes note. -/
theorem requestQuiesces_spec (l : List Ctx) (hl : l.Nodup) (s : State) :
    (l.foldl (fun s c => requestQuiesce c s) s).mem = s.mem ∧ (l.foldl (fun s c => requestQuiesce c s) s).rsl = s.rsl ∧
    (∀ c ∉ l, ctx (l.foldl (fun s c => requestQuiesce c s) s) c = ctx s c) ∧
    (∀ c ∈ l, Going s c → (ctx s c).point = .inSection →
      ctx (l.foldl (fun s c => requestQuiesce c s) s) c = { ctx s c with quiesceReq := true }) := by
  induction l generalizing s with
  | nil => exact ⟨rfl, rfl, fun _ _ => rfl, nofun⟩
  | cons d l ih =>
    obtain ⟨hd, hl⟩ := List.nodup_cons.1 hl
    have hk := requestQuiesce_quiesceKept d s
    obtain ⟨hmem, hrsl, hout, hin⟩ := ih hl (requestQuiesce d s)
    refine ⟨hmem.trans hk.mem, hrsl.trans (requestQuiesce_rsl d s), fun c hc => ?_, fun c hc hgo hp => ?_⟩
    · obtain ⟨hne, hc⟩ := not_or.1 (mt List.mem_cons.2 hc)
      rw [List.foldl_cons, hout c hc, hk.others c hne]
    · rw [List.foldl_cons]
      obtain rfl | hc := List.mem_cons.1 hc
      · rw [hout c hd, requestQuiesce_inSection hgo hp, ctx_modCtx_same]
      · have hx := hk.others c (fun h => hd (h ▸ hc))
        rw [hin c hc ⟨by rw [hx]; exact hgo.running, by rw [hx]; exact hgo.going⟩ (by rw [hx]; exact hp), hx]

/-- A snapshot begins its quiesce phase, and asks the contexts that run (R355, R356). -/
theorem startSnapshot_spec (d : HostRef) (mask : Nat) (full : Bool) (store : Nat) (s : State) :
    let t := startSnapshot d mask full store s
    (t.rsl.snap.phase = 1 ∧ t.rsl.snap.mask = mask ∧ t.rsl.snap.full = full ∧ t.rsl.snap.host = some d) ∧ t.mem = s.mem ∧
    (∀ c : Ctx, (ctx s c).cstate ≠ .running → ctx t c = ctx s c) ∧
    (∀ c : Ctx, Going s c → (ctx s c).point = .inSection → ctx t c = { ctx s c with quiesceReq := true }) := by
  intro t
  set cs := (List.finRange 8).filter (fun (c : Ctx) => running s c && !(ctx s c).stopping) with hcs
  have hmem (c : Ctx) : c ∈ cs ↔ (ctx s c).cstate = .running ∧ (ctx s c).stopping = false := by simp [hcs, running]
  obtain ⟨hm, hr, hout, hin⟩ := requestQuiesces_spec cs ((List.nodup_finRange 8).filter _) (modSnap (fun n => { n with
    phase := 1, host := some d, mask := mask, full := full, store := store
    paused := (cs.filter (fun (c : Ctx) => !(ctx s c).quiesceReq && decide ((ctx s c).point ≠ .pausing))).map
      (fun (c : Ctx) => c.val)
    due := s.wall + Nat.max 1 n.quiesceMs * msTicks }) s)
  refine ⟨?_, hm, fun c hc => hout c (fun h => hc ((hmem c).1 h).1),
    fun c hc hp => hin c ((hmem c).2 ⟨hc.running, hc.going⟩) ⟨hc.running, hc.going⟩ hp⟩
  rw [show t.rsl = _ from hr]
  exact ⟨rfl, rfl, rfl, rfl⟩

theorem ctx_fetchHeads (s : State) (c : Ctx) : ctx (fetchHeads s) c = ctx s c := ctx_congr s (by simp) c

end Sys2Proof.Machine

section
open Sys2Proof Sys2Proof.Machine Host

/-- Settles O46. A LAUNCH or REPLAY that passes its checks ends in `startProgram` (`ctx_launchImage`, `execReplay_starts`); a
COPY is one transfer, which asks for its first line and stays as it is but for its place (`startCopy_spec`); a SNAPSHOT asks
the contexts that run, one after the other (`startSnapshot_spec`). -/
theorem programsCopiesAndSnapshotsStart : Obligations.ProgramsCopiesAndSnapshotsStart := by
  refine ⟨fun s r ws data hst hok hnext => ?_,
    fun s r ws hst hok hnext => ⟨fun hkind hsrc hgood hjobs hreads harr => ?_, fun hkind _ => ?_⟩⟩
  · intro h
    refine ⟨fun hkind hhost hlen => ?_, fun ps hkind hlen hps hvalid hchk => ?_⟩
    · intro code affs
      refine ⟨fun hcode haff hcrc hchk hpart => ?_, fun hlarge => ?_⟩
      · obtain ⟨⟨prog, hl⟩, hk⟩ := ctx_launchImage (c := r) (d := refOf r ws) (s := taken r s) hlen
          (by rw [ctx_taken]; exact hcode) (by rw [ctx_taken]; exact haff) hcrc
          ((imgRefusal_congr (by simp) (by simp) _).trans hchk) (by rw [partSize]; simpa [partSize] using hpart)
        rw [ctx_taken] at hl
        refine ⟨_, execLaunch_host hst hok hnext hkind hhost data, ?_⟩
        simp only [ctx_fetchHeads]
        exact ⟨hl.running, hl.atStart, hl.pos, hl.pred, hl.areg, hl.loops, hl.cmps, hl.summary, hl.valid, hl.img, hl.par,
          hl.launch, fun c hc => (hk.others c hc).trans (ctx_taken ..), readByte_congr s (by simp [hk.mem])⟩
      · obtain ⟨hstate, hvalid, hq, hk⟩ := failLaunch_spec r (d := refOf r ws) (code := cIMAGE) [1, 0] (s := taken r s)
          (by simp [refOf, hkind]) (by decide) (by simpa using startable_room hst)
        have hrun := execLaunch_host hst hok hnext hkind hhost data
        rw [launchImage_large (by rw [ctx_taken]; exact hlarge)] at hrun
        refine ⟨_, hrun, ?_⟩
        simp only [ctx_fetchHeads]
        exact ⟨hstate.trans (by rw [ctx_taken]), hvalid, by simpa using hq,
          fun c hc => (hk.others c hc).trans (ctx_taken ..), readByte_congr s (by simp [hk.mem])⟩
    · refine ⟨_, execReplay_starts hst hok hnext hkind hlen hps hvalid hchk, ?_⟩
      obtain ⟨hctx, hk⟩ := ctx_patchPars r ps (taken r s)
      have hl := startProgram_launched r (refOf r ws) (ps.foldl (fun s p => patchPar r p s) (taken r s))
      rw [hctx, ctx_taken] at hl
      simp only [ctx_fetchHeads]
      refine ⟨hl.running, hl.atStart, hl.pos, hl.pred, hl.areg, hl.loops, hl.launch, fun c hc => ?_, readByte_congr s ?_,
        ?_, ?_⟩
      · rw [startProgram, ctx_modCtx_ne _ _ _ _ hc, hk.others c hc, ctx_taken]
      · simp [startProgram, hk.mem]
      · rintro rfl
        exact hl.par
      · rintro a v rfl
        rw [getPar, hl.par]
        exact ⟨SMap.get_set_same _, fun b hb => (congrArg (SMap.get _ · b) hl.par).trans (SMap.get_set_ne _ hb)⟩
  · have hx : exec (.copy r) s = execCopy r s := rfl
    obtain ⟨⟨j, hj, hsame⟩, hread, hhst, hctxs, hmem⟩ := startCopy_spec (s := taken r s) hsrc
      ((copyFault_congr (by simp) (by simp) (by simp) r ws).trans hgood) (copyOk_length hok hkind) (by simpa using hjobs)
      (by simpa using hreads) (by simpa using harr)
    refine ⟨_, j, by rw [hx, execCopy, startRow_starts hst hok hkind hnext], ?_, hsame.kind, hsame.words, hsame.ctx,
      hsame.faulted, (fetchHeads_out _).subset hread, ?_, ?_, ?_⟩
    · rw [fetchHeads_frame]; exact hj
    · rw [ring_fetchHeads, ring_congr _ (congrArg HstSt.rings hhst), ← busy_taken r s]
      exact busy_noteBusy (refOf r ws) _
    · simp [hctxs]
    · simp [hmem]
  · have hx : exec (.snapshot r) s = execSnapshot r s := rfl
    have hctx (c : Ctx) : ctx (noteBusy (refOf r ws) (taken r s)) c = ctx s c := ctx_congr s (by simp [noteBusy, modRing, modHst]) c
    obtain ⟨⟨hphase, hmask, hfull, hhost⟩, hmem, hother, hask⟩ := startSnapshot_spec (refOf r ws) (bits (wd ws 2) 7 0)
      (bit (wd ws 2) 8) (wd ws 3 + bits (wd ws 4) 25 0 * 2 ^ 32) (noteBusy (refOf r ws) (taken r s))
    refine ⟨_, by rw [hx, execSnapshot, startRow_starts hst hok hkind hnext], ?_⟩
    simp only [ctx_fetchHeads, fetchHeads_rest, ← hctx]
    exact ⟨hphase, hmask, hfull, hhost, hmem.trans (by simp [noteBusy, modRing, modHst]), hother,
      fun c hrun hgo => hask c ⟨hrun, hgo⟩⟩

end
